-- ==== Sys2Proof/Word.lean ====
section
/-! DEFINITION. Word.lean: the word and byte types, the sparse table every RAM and register file of the model
is kept in, and the format names of Table 02.1. -/

namespace Sys2Proof

/-- A byte (R11: the smallest unit every layout is given in). -/
abbrev Byte := BitVec 8

/-- A 32-bit word: a scalar register, a host register, an instruction word. -/
abbrev Word := BitVec 32

/-- A sparse table: keys strictly rising. A key that is not listed reads as the table's default, which the
reader names. Plain data, so that states can be compared. -/
abbrev Tab (α : Type) := List (Nat × α)

/-- The sixteen number formats of Table 02.1 (R44). -/
inductive Fmt
  | fp32 | bf16 | fp16 | e4m3 | e5m2 | int32 | int16 | int8 | uint8 | int4 | u4 | n4 | mxfp8 | mxfp4 | mxint8 | rb8
  deriving DecidableEq, Repr, Inhabited

end Sys2Proof
end

