-- ==== Sys2Proof/Syntax.lean ====
section
/-! DEFINITION. Syntax.lean: the commands of the block, one constructor per row of spec/opcode_table.json (each row
is one whole and indivisible step of the part, spec 95). An operand carries what the step takes from outside the
state: which unit, thread or link acts, or the bytes, readings and choices that arrive. The rows with operands stand before
those without, in the table's order. -/

namespace Sys2Proof

/-- What the way has done to a flit (R329, R333): whether noise has spoilt it, and how many codewords that carried it the
FEC of an Extium Link corrected and could not correct. -/
structure Noise where
  bad : Bool := false
  corr : Nat := 0
  uncorr : Nat := 0
  deriving DecidableEq, Repr

/-- A CTRL DOWN flit that arrives (R338): the Extium Link and the reason it names. -/
structure LinkDown where
  link : Nat
  reason : Nat
  deriving DecidableEq, Repr

/-- What the part reads of an image in host memory (R451, R452): its bytes, or none where the read of the extent list
fails, and the first byte, if any, whose read fails. -/
structure ImageRead where
  bytes : Option (List Byte)
  badAt : Option Nat := none
  deriving DecidableEq, Repr

/-- The commands. -/
inductive Instr
  /-- REG_WRITE, R21 -/
  | regWrite (space : Nat) (a : Nat) (v : Nat)
  /-- RC_READ, R24 -/
  | rcRead (path : Nat) (a : Nat)
  /-- W1C_WRITE, R24 -/
  | w1cWrite (path : Nat) (a : Nat) (v : Nat)
  /-- SNAPSHOT_READ, R25 -/
  | snapshotRead (path : Nat) (a : Nat)
  /-- INSTR_ISSUE, R159 -/
  | instrIssue (u : Nat)
  /-- HELD_RETIRE, R162 -/
  | heldRetire (u : Nat) (t : Nat)
  /-- NOP, R224 -/
  | nop (u : Nat) (t : Nat)
  /-- PARK, R158 -/
  | park (u : Nat) (t : Nat)
  /-- BRK, R224 -/
  | brk (u : Nat) (t : Nat)
  /-- RDSR, R225 -/
  | rdsr (u : Nat) (t : Nat)
  /-- SETVL, R210 -/
  | setvl (u : Nat) (t : Nat)
  /-- ADD, R194 -/
  | add (u : Nat) (t : Nat)
  /-- SUB, R194 -/
  | sub (u : Nat) (t : Nat)
  /-- AND, R194 -/
  | and (u : Nat) (t : Nat)
  /-- OR, R194 -/
  | or (u : Nat) (t : Nat)
  /-- XOR, R194 -/
  | xor (u : Nat) (t : Nat)
  /-- SHL, R194 -/
  | shl (u : Nat) (t : Nat)
  /-- SHR, R194 -/
  | shr (u : Nat) (t : Nat)
  /-- SRA, R194 -/
  | sra (u : Nat) (t : Nat)
  /-- SLT, R194 -/
  | slt (u : Nat) (t : Nat)
  /-- SLTU, R194 -/
  | sltu (u : Nat) (t : Nat)
  /-- MIN, R194 -/
  | min (u : Nat) (t : Nat)
  /-- MAX, R194 -/
  | max (u : Nat) (t : Nat)
  /-- MINU, R194 -/
  | minu (u : Nat) (t : Nat)
  /-- MAXU, R194 -/
  | maxu (u : Nat) (t : Nat)
  /-- MUL, R194 -/
  | mul (u : Nat) (t : Nat)
  /-- MULH, R194 -/
  | mulh (u : Nat) (t : Nat)
  /-- MULHU, R194 -/
  | mulhu (u : Nat) (t : Nat)
  /-- ADDS, R194 -/
  | adds (u : Nat) (t : Nat)
  /-- SUBS, R194 -/
  | subs (u : Nat) (t : Nat)
  /-- CLZ, R194 -/
  | clz (u : Nat) (t : Nat)
  /-- POPC, R194 -/
  | popc (u : Nat) (t : Nat)
  /-- ADDI, R195 -/
  | addi (u : Nat) (t : Nat)
  /-- ANDI, R195 -/
  | andi (u : Nat) (t : Nat)
  /-- ORI, R195 -/
  | ori (u : Nat) (t : Nat)
  /-- XORI, R195 -/
  | xori (u : Nat) (t : Nat)
  /-- SLTI, R195 -/
  | slti (u : Nat) (t : Nat)
  /-- SLTIU, R195 -/
  | sltiu (u : Nat) (t : Nat)
  /-- LUI, R195 -/
  | lui (u : Nat) (t : Nat)
  /-- SHLI, R195 -/
  | shli (u : Nat) (t : Nat)
  /-- SHRI, R195 -/
  | shri (u : Nat) (t : Nat)
  /-- SRAI, R195 -/
  | srai (u : Nat) (t : Nat)
  /-- BEQ, R196 -/
  | beq (u : Nat) (t : Nat)
  /-- BNE, R196 -/
  | bne (u : Nat) (t : Nat)
  /-- BLT, R196 -/
  | blt (u : Nat) (t : Nat)
  /-- BGE, R196 -/
  | bge (u : Nat) (t : Nat)
  /-- BLTU, R196 -/
  | bltu (u : Nat) (t : Nat)
  /-- BGEU, R196 -/
  | bgeu (u : Nat) (t : Nat)
  /-- J, R196 -/
  | j (u : Nat) (t : Nat)
  /-- CALL, R174 -/
  | call (u : Nat) (t : Nat)
  /-- JR, R196 -/
  | jr (u : Nat) (t : Nat)
  /-- CALLR, R196 -/
  | callr (u : Nat) (t : Nat)
  /-- RET, R174 -/
  | ret (u : Nat) (t : Nat)
  /-- TRAP_SERVICE, R176 -/
  | trapService (u : Nat)
  /-- LW, R197 -/
  | lw (u : Nat) (t : Nat)
  /-- LH, R197 -/
  | lh (u : Nat) (t : Nat)
  /-- LHU, R197 -/
  | lhu (u : Nat) (t : Nat)
  /-- LB, R197 -/
  | lb (u : Nat) (t : Nat)
  /-- LBU, R197 -/
  | lbu (u : Nat) (t : Nat)
  /-- SW, R197 -/
  | sw (u : Nat) (t : Nat)
  /-- SH, R197 -/
  | sh (u : Nat) (t : Nat)
  /-- SB, R197 -/
  | sb (u : Nat) (t : Nat)
  /-- EWAIT, R200 -/
  | ewait (u : Nat) (t : Nat)
  /-- WAIT_WAKE, R171 -/
  | waitWake (u : Nat) (t : Nat)
  /-- ESIG, R199 -/
  | esig (u : Nat) (t : Nat)
  /-- ESET, R199 -/
  | eset (u : Nat) (t : Nat)
  /-- ERD, R200 -/
  | erd (u : Nat) (t : Nat)
  /-- RSIG, R199 -/
  | rsig (u : Nat) (t : Nat)
  /-- SIGNAL_SEND, R170 -/
  | signalSend (u : Nat)
  /-- SIGNAL_APPLY, R322 -/
  | signalApply (n : Nat)
  /-- PISSUE, R201 -/
  | pissue (u : Nat) (t : Nat)
  /-- PSTAT, R202 -/
  | pstat (u : Nat) (t : Nat)
  /-- PCLR, R203 -/
  | pclr (u : Nat) (t : Nat)
  /-- PCANCEL, R146 -/
  | pcancel (u : Nat) (t : Nat)
  /-- DESC_START, R128 -/
  | descStart (u : Nat) (ch : Nat)
  /-- PUMP_BLOCK, R149 -/
  | pumpBlock (u : Nat) (ch : Nat)
  /-- DESC_COMPLETE, R138 -/
  | descComplete (u : Nat) (ch : Nat)
  /-- TIMEOUT, R142 -/
  | timeout (u : Nat) (req : Nat)
  /-- CHAIN, R204 -/
  | chain (u : Nat) (t : Nat)
  /-- CABORT, R306 -/
  | cabort (u : Nat) (t : Nat)
  /-- CPOS, R305 -/
  | cpos (u : Nat) (t : Nat)
  /-- CSTAT, R305 -/
  | cstat (u : Nat) (t : Nat)
  /-- CHAIN_START, R279 -/
  | chainStart (u : Nat) (t : Nat)
  /-- CHAIN_TILE_OUTPUT, R291 -/
  | chainTileOutput (u : Nat) (t : Nat)
  /-- ATTN_PAGE_READ, R298 -/
  | attnPageRead (u : Nat) (t : Nat)
  /-- GATHER_SHARE_START, R299 -/
  | gatherShareStart (u : Nat) (t : Nat) (d : Nat) (g : Nat)
  /-- REDUCE_COMBINE, R300 -/
  | reduceCombine (u : Nat) (t : Nat) (g : Nat)
  /-- CHAIN_COMPLETE, R304 -/
  | chainComplete (u : Nat) (t : Nat)
  /-- MSHIFT, R205 -/
  | mshift (u : Nat) (t : Nat)
  /-- MPASS, R206 -/
  | mpass (u : Nat) (t : Nat)
  /-- SHIFT_START, R245 -/
  | shiftStart (u : Nat) (ma : Nat)
  /-- SHIFT_COMPLETE, R246 -/
  | shiftComplete (u : Nat) (ma : Nat)
  /-- PASS_START, R245 -/
  | passStart (u : Nat) (ma : Nat)
  /-- PASS_COMPLETE, R246 -/
  | passComplete (u : Nat) (ma : Nat)
  /-- VOP_ADD, R213 -/
  | vopAdd (u : Nat) (t : Nat)
  /-- VOP_SUB, R213 -/
  | vopSub (u : Nat) (t : Nat)
  /-- VOP_MUL, R213 -/
  | vopMul (u : Nat) (t : Nat)
  /-- VOP_FMA, R213 -/
  | vopFma (u : Nat) (t : Nat)
  /-- VOP_MIN, R213 -/
  | vopMin (u : Nat) (t : Nat)
  /-- VOP_MAX, R213 -/
  | vopMax (u : Nat) (t : Nat)
  /-- VOP_ABS, R213 -/
  | vopAbs (u : Nat) (t : Nat)
  /-- VOP_NEG, R213 -/
  | vopNeg (u : Nat) (t : Nat)
  /-- VOP_SEL, R213 -/
  | vopSel (u : Nat) (t : Nat)
  /-- VOP_ADDB, R213 -/
  | vopAddb (u : Nat) (t : Nat)
  /-- VOP_SUBB, R213 -/
  | vopSubb (u : Nat) (t : Nat)
  /-- VOP_MULB, R213 -/
  | vopMulb (u : Nat) (t : Nat)
  /-- VOP_EXP, R213 -/
  | vopExp (u : Nat) (t : Nat)
  /-- VOP_LOG, R213 -/
  | vopLog (u : Nat) (t : Nat)
  /-- VOP_RCP, R213 -/
  | vopRcp (u : Nat) (t : Nat)
  /-- VOP_RSQRT, R213 -/
  | vopRsqrt (u : Nat) (t : Nat)
  /-- VOP_SQRT, R213 -/
  | vopSqrt (u : Nat) (t : Nat)
  /-- VOP_TANH, R213 -/
  | vopTanh (u : Nat) (t : Nat)
  /-- VOP_SIGMOID, R213 -/
  | vopSigmoid (u : Nat) (t : Nat)
  /-- VOP_SILU, R213 -/
  | vopSilu (u : Nat) (t : Nat)
  /-- VOP_GELU_TANH, R213 -/
  | vopGeluTanh (u : Nat) (t : Nat)
  /-- VCMP, R214 -/
  | vcmp (u : Nat) (t : Nat)
  /-- VRED_RSUM, R269 -/
  | vredRsum (u : Nat) (t : Nat)
  /-- VRED_RMAX, R269 -/
  | vredRmax (u : Nat) (t : Nat)
  /-- VRED_RMIN, R269 -/
  | vredRmin (u : Nat) (t : Nat)
  /-- VRED_RMAXABS, R269 -/
  | vredRmaxabs (u : Nat) (t : Nat)
  /-- VMOV_MOV, R216 -/
  | vmovMov (u : Nat) (t : Nat)
  /-- SPLAT, R216 -/
  | splat (u : Nat) (t : Nat)
  /-- COMPRESS, R216 -/
  | compress (u : Nat) (t : Nat)
  /-- EXPAND, R216 -/
  | expand (u : Nat) (t : Nat)
  /-- ZERO, R216 -/
  | zero (u : Nat) (t : Nat)
  /-- MAND, R216 -/
  | mand (u : Nat) (t : Nat)
  /-- MOR, R216 -/
  | mor (u : Nat) (t : Nat)
  /-- MXOR, R216 -/
  | mxor (u : Nat) (t : Nat)
  /-- MNOT, R216 -/
  | mnot (u : Nat) (t : Nat)
  /-- MSET, R216 -/
  | mset (u : Nat) (t : Nat)
  /-- VFENCE, R216 -/
  | vfence (u : Nat) (t : Nat)
  /-- VFENCE_FIRE, R216 -/
  | vfenceFire (u : Nat)
  /-- VCVT, R218 -/
  | vcvt (u : Nat) (t : Nat)
  /-- VEC_CMD_START, R217 -/
  | vecCmdStart (u : Nat)
  /-- VEC_CMD_COMPLETE, R217 -/
  | vecCmdComplete (u : Nat)
  /-- PSETW, R220 -/
  | psetw (u : Nat) (t : Nat)
  /-- SLOTW, R221 -/
  | slotw (u : Nat) (t : Nat)
  /-- SLOTR, R222 -/
  | slotr (u : Nat) (t : Nat)
  /-- NCUCNT, R219 -/
  | ncucnt (u : Nat) (t : Nat)
  /-- STEPCLOSE, R223 -/
  | stepclose (u : Nat) (t : Nat)
  /-- STEP_BOUNDARY, R101 -/
  | stepBoundary (u : Nat)
  /-- CIST_CE_WRITEBACK, R114 -/
  | cistCeWriteback (w : Nat)
  /-- WELL_READ, R121 -/
  | wellRead (a : Nat)
  /-- THREAD_PARK, R178 -/
  | threadPark (u : Nat) (t : Nat)
  /-- PARK_REQUEST, R178 -/
  | parkRequest (u : Nat)
  /-- PM_WRITE, R179 -/
  | pmWrite (u : Nat) (addr : Nat) (ws : List Word)
  /-- RESUME, R180 -/
  | resume (u : Nat) (acts : List Nat)
  /-- DEADLOCK_COUNT_EXPIRE, R183 -/
  | deadlockCountExpire (u : Nat)
  /-- STATION_RESET, R186 -/
  | stationReset (ls : Nat)
  /-- STATION_RESET_RELEASE, R187 -/
  | stationResetRelease (ls : Nat)
  /-- UNIT_SWITCH, R576 -/
  | unitSwitch (ls : Nat)
  /-- SIPHON_TILE_SEND, R316 -/
  | siphonTileSend (u : Nat) (req : Nat)
  /-- FLIT_RECEIVE, R329 -/
  | flitReceive (h : Nat) (noise : Noise) (bytes : List Byte)
  /-- NAK_RECEIVE, R330 -/
  | nakReceive (h : Nat) (bytes : List Byte)
  /-- REPLAY_TIMEOUT, R330 -/
  | replayTimeout (h : Nat)
  /-- LINK_ACK_TIMEOUT, R330 -/
  | linkAckTimeout (h : Nat)
  /-- LOSS_OF_LOCK, R338 -/
  | lossOfLock (h : Nat)
  /-- TILE_LAND, R317 -/
  | tileLand (n : Nat)
  /-- LANDED_RECEIVE, R318 -/
  | landedReceive (n : Nat)
  /-- CTRL_DOWN_RECEIVE, R338 -/
  | ctrlDownReceive (down : LinkDown)
  /-- DIE_LINK_RETRAIN, R334 -/
  | dieLinkRetrain (l : Nat)
  /-- LINK_PAIR_CTL_WRITE, R334 -/
  | linkPairCtlWrite (v : Nat)
  /-- LINK_RETRAIN, R338 -/
  | linkRetrain (v : Nat)
  /-- EXT_LINK_TRAIN_STATE, R334 -/
  | extLinkTrainState (l : Nat)
  /-- PAIR_INFO, R335 -/
  | pairInfo (l : Nat) (peerRole : Nat) (variant : Nat) (maps : List Nat)
  /-- EXT_AUTO_RETRAIN, R334 -/
  | extAutoRetrain (l : Nat)
  /-- LEAVE_REQUEST, R352 -/
  | leaveRequest (kind : Nat) (u : Nat) (x : Nat) (y : Nat)
  /-- DROOP_ASSERT, R360 -/
  | droopAssert (src : Nat)
  /-- THERM_SAMPLE, R362 -/
  | thermSample (dieT : List Nat) (stackT : List Nat)
  /-- PWR_CTL_WRITE, R368 -/
  | pwrCtlWrite (v : Nat)
  /-- SQ_TAIL_DOORBELL, R380 -/
  | sqTailDoorbell (n : Nat) (v : Nat)
  /-- CQ_HEAD_DOORBELL, R381 -/
  | cqHeadDoorbell (n : Nat) (v : Nat)
  /-- QP_ENABLE_WRITE, R379 -/
  | qpEnableWrite (n : Nat) (v : Nat)
  /-- QP_DISABLE_DONE, R379 -/
  | qpDisableDone (n : Nat)
  /-- QP_COAL_WRITE, R382 -/
  | qpCoalWrite (n : Nat) (v : Nat)
  /-- SQ_FETCH, R380 -/
  | sqFetch (n : Nat) (entry : Option (List Byte))
  /-- MSIX_COAL_TIMEOUT, R382 -/
  | msixCoalTimeout (n : Nat)
  /-- OPEN, R391 -/
  | openSession (sid : Nat)
  /-- CONFIG, R392 -/
  | config (sid : Nat) (payload : Option (List Byte))
  /-- APPEND_TEXT, R394 -/
  | appendText (sid : Nat) (payload : Option (List Byte))
  /-- APPEND_TOKENS, R394 -/
  | appendTokens (sid : Nat) (payload : Option (List Byte))
  /-- GENERATE, R395 -/
  | generate (sid : Nat)
  /-- CANCEL, R396 -/
  | cancel (sid : Nat)
  /-- CANCEL_APPLY, R396 -/
  | cancelApply (sid : Nat)
  /-- CLOSE, R397 -/
  | close (sid : Nat)
  /-- QUERY_SESSION, R398 -/
  | querySession (sid : Nat)
  /-- QUERY_DEVICE, R398 -/
  | queryDevice (sid : Nat)
  /-- STEP_COMPLETE, R461 -/
  | stepComplete (peer : Option (Tab Nat))
  /-- STEP_FAULT, R410 -/
  | stepFault (peer : Bool)
  /-- TOKENIZE_APPEND, R424 -/
  | tokenizeAppend (k : Nat)
  /-- LOAD, R452 -/
  | load (extents : List (Nat × Nat)) (image : ImageRead)
  /-- PTM_MEASURE, R466 -/
  | ptmMeasure (master : Option Nat)
  /-- TIME_SRC_SELECT, R468 -/
  | timeSrcSelect (v : Nat)
  /-- STEP_REQ, R467 -/
  | stepReq (v : Nat)
  /-- TIME_TOD_HI_WRITE, R467 -/
  | timeTodHiWrite (v : Nat)
  /-- FLOAT_OP_READ, R472 -/
  | floatOpRead (path : Nat) (n : Nat)
  /-- SUMP_REC_READ, R482 -/
  | sumpRecRead (path : Nat)
  /-- EVT_MASK_WRITE, R484 -/
  | evtMaskWrite (v : Nat)
  /-- LC_TRANSITION, R490 -/
  | lcTransition (w : Option Nat)
  /-- SLOT_PROGRAM, R492 -/
  | slotProgram (v : Nat)
  /-- SLOT_REVOKE, R492 -/
  | slotRevoke (v : Nat)
  /-- ATTEST, R494 -/
  | attest (v : Nat)
  /-- ZEROIZE, R499 -/
  | zeroize (w : Option Nat)
  /-- SVN_ADVANCE, R495 -/
  | svnAdvance (v : Nat)
  /-- DBG_REQ_WRITE, R506 -/
  | dbgReqWrite (jtag : Bool) (v : Nat)
  /-- DBG_RESPONSE, R506 -/
  | dbgResponse (jtag : Bool) (v : Nat)
  /-- READ_THREAD, R501 -/
  | readThread (w : Nat)
  /-- READ_EVENTS, R501 -/
  | readEvents (w : Nat)
  /-- READ_PUMP, R501 -/
  | readPump (w : Nat)
  /-- HALT, R503 -/
  | halt (w : Nat)
  /-- DBG_RESUME, R503 -/
  | dbgResume (w : Nat)
  /-- DBG_STEP, R504 -/
  | dbgStep (w : Nat)
  /-- BRK_ARM, R501 -/
  | brkArm (w : Nat)
  /-- BRK_DISARM, R501 -/
  | brkDisarm (w : Nat)
  /-- READ_SCALAR, R501 -/
  | readScalar (w : Nat)
  /-- WRITE_SCALAR, R501 -/
  | writeScalar (w : Nat)
  /-- READ_TILE, R501 -/
  | readTile (w : Nat)
  /-- WRITE_TILE, R501 -/
  | writeTile (w : Nat)
  /-- READ_MEM, R505 -/
  | readMem (w : Nat)
  /-- WRITE_MEM, R505 -/
  | writeMem (w : Nat)
  /-- SAMPLE_PRELOAD, R510 -/
  | samplePreload (preload : List Byte)
  /-- DBG_ACCESS, R510 -/
  | dbgAccess (req : Option (Nat × Option Nat))
  /-- CP_WRITE_FRAME, R524 -/
  | cpWriteFrame (bytes : List Byte)
  /-- CP_READ_FRAME, R524 -/
  | cpReadFrame (bytes : List Byte)
  /-- CP_FRAME_ABANDON, R524 -/
  | cpFrameAbandon (bytes : List Byte)
  /-- WIN_TABLE_WRITE, R531 -/
  | winTableWrite (path : Nat) (v : Nat)
  /-- WIN_DATA_READ, R534 -/
  | winDataRead (path : Nat)
  /-- WIN_DATA_WRITE, R533 -/
  | winDataWrite (path : Nat) (v : Nat)
  /-- BOOT_GO, R567 -/
  | bootGo (v : Nat)
  /-- CTRL_RESET, R571 -/
  | ctrlReset (v : Nat)
  /-- MAP_STN_RESET, R558 -/
  | mapStnReset (v : Nat)
  /-- PCIE_LINK_TRAIN, R600 -/
  | pcieLinkTrain (rate : Nat) (width : Nat)
  /-- BOOT_FLASH, R567 -/
  | bootFlash (bytes : List Byte)
  /-- BOOT_LINK_TRAIN, R565 -/
  | bootLinkTrain (result : Nat)
  /-- MEM_TRAIN, R569 -/
  | memTrain (failed : List (Nat × Nat))
  /-- SELF_TEST, R570 -/
  | selfTest (badStations : List (Nat × Nat)) (badStacks : List Nat) (hubBad : Bool)
  /-- IDLE_ACK_FLIT, R329 -/
  | idleAckFlit (h : Nat)
  /-- PEER_IMAGE_ID, R454 -/
  | peerImageId (ready : Bool) (id : List Byte) (pages : List Nat)
  /-- SECONDARY_STEP_ROWS, R411 -/
  | secondaryStepRows (no : Nat) (bufs : List (List Byte)) (pts : List (List Byte)) (masks : List (Nat × Nat × List Byte))
  /-- MSIX_VECTOR_UNMASK, R382 -/
  | msixVectorUnmask (v : Nat)
  /-- WELL_REREAD, R121 -/
  | wellReread
  /-- WELL_REFRESH, R152 -/
  | wellRefresh
  /-- WELL_RECAL, R152 -/
  | wellRecal
  /-- SCRUB_CIST_LINE, R153 -/
  | scrubCistLine
  /-- SCRUB_WELL_BEAT, R153 -/
  | scrubWellBeat
  /-- TEXT_SCRUB, R419 -/
  | textScrub
  /-- LINK_TRAIN_TIMEOUT, R475 -/
  | linkTrainTimeout
  /-- PAIR_STANDBY, R341 -/
  | pairStandby
  /-- PAIR_HOLD_EXPIRE, R341 -/
  | pairHoldExpire
  /-- WINDOW_START, R344 -/
  | windowStart
  /-- LEAVE_GRANT, R353 -/
  | leaveGrant
  /-- DROOP_STRETCH_END, R361 -/
  | droopStretchEnd
  /-- PSTATE_TRANSITION, R368 -/
  | pstateTransition
  /-- AUTO_IDLE_ENTER, R370 -/
  | autoIdleEnter
  /-- P3_ENTRY, R370 -/
  | p3Entry
  /-- P3_EXIT, R370 -/
  | p3Exit
  /-- VID_STEP, R591 -/
  | vidStep
  /-- REFCLK_LOSS, R595 -/
  | refclkLoss
  /-- FLR, R377 -/
  | flr
  /-- STEP_START, R461 -/
  | stepStart
  /-- STEP_WATCHDOG, R409 -/
  | stepWatchdog
  /-- TEXT_SRAM_REPAIR, R419 -/
  | textSramRepair
  /-- UNLOAD, R455 -/
  | unload
  /-- PRIMING_START, R462 -/
  | primingStart
  /-- PRIMING_COMPLETE, R462 -/
  | primingComplete
  /-- PRIMING_TIMEOUT, R463 -/
  | primingTimeout
  /-- TIME_TICK, R464 -/
  | timeTick
  /-- PPS_EDGE, R466 -/
  | ppsEdge
  /-- SERVO_HOLDOVER, R468 -/
  | servoHoldover
  /-- SUMP_INTAKE, R476 -/
  | sumpIntake
  /-- TELEM_SNAPSHOT, R486 -/
  | telemSnapshot
  /-- DRBG_RESEED, R497 -/
  | drbgReseed
  /-- ENTROPY_HEALTH_FAIL, R497 -/
  | entropyHealthFail
  /-- CHALLENGE_EXPIRE, R507 -/
  | challengeExpire
  /-- HALT_DONE, R503 -/
  | haltDone
  /-- IDCODE, R510 -/
  | idcode
  /-- BYPASS, R510 -/
  | bypass
  /-- EXTEST, R511 -/
  | extest
  /-- EXTEST_PULSE, R511 -/
  | extestPulse
  /-- EXTEST_TRAIN, R511 -/
  | extestTrain
  /-- CLAMP, R511 -/
  | clamp
  /-- HIGHZ, R511 -/
  | highz
  /-- SCAN, R510 -/
  | scan
  /-- COLD_RESET, R561 -/
  | coldReset
  /-- PWR_OK_FALL, R593 -/
  | pwrOkFall
  /-- WARM_RESET, R572 -/
  | warmReset
  /-- BOOT_ROM, R565 -/
  | bootRom
  /-- FW_AUTH, R566 -/
  | fwAuth
  /-- ENTROPY_STARTUP_PASS, R497 -/
  | entropyStartupPass
  /-- TEST_LOGIC_RESET, R599 -/
  | testLogicReset
  /-- VDD_IO_VALID, R590 -/
  | vddIoValid
  /-- RAIL_OUT_OF_TOLERANCE, R593 -/
  | railOutOfTolerance
  deriving DecidableEq, Repr

end Sys2Proof
end

