-- ==== Sys2Proof/Decode.lean ====
section
/-! DEFINITION. Decode.lean: the commands that words spell by the table's bits. The part takes commands and no row of
spec/opcode_table.json gives bits, so no word spells one (log entry 2). The words the part does decode are decoded where
they act: the station instructions in Machine/Operands.lean (Table 06.2), pump descriptors and flits in their
meanings, the Control Port's frames in Machine/Port.lean. -/

namespace Sys2Proof

/-- No row gives bits: no word spells a command. -/
def decodeTableWord (_nbits _w : Nat) : Option Instr := none

end Sys2Proof
end

