-- ==== Sys2Proof/Machine/Tab.lean ====
section
/-! DEFINITION. Machine/Tab.lean: reading and writing the sparse tables (`Tab`) that hold RAMs and register files,
and the bit-field and byte-order helpers (R10, R11). -/

namespace Sys2Proof.Machine

/-- The value at key `i`, or the default `d` where the key is not listed. -/
def tabGet {α : Type} (d : α) : Tab α → Nat → α
  | [], _ => d
  | (k, v) :: t, i => if i = k then v else if i < k then d else tabGet d t i

/-- Drops the leading entries whose key is at most `i`. -/
def tabDrop {α : Type} : Tab α → Nat → Tab α
  | [], _ => []
  | (k, v) :: t, i => if k ≤ i then tabDrop t i else (k, v) :: t

/-- Writes key `i` and keeps the canonical form: a key that holds the default is not listed. -/
def tabSet {α : Type} [DecidableEq α] (d : α) : Tab α → Nat → α → Tab α
  | [], i, v => if v = d then [] else [(i, v)]
  | (k, w) :: t, i, v =>
    if i < k then (if v = d then (k, w) :: t else (i, v) :: (k, w) :: t)
    else if i = k then (if v = d then tabDrop t i else (i, v) :: t)
    else (k, w) :: tabSet d t i v

/-- Writes key `i`, listing it whatever its value (for tables of records, whose entries are never compared with
the default). -/
def tabPut {α : Type} : Tab α → Nat → α → Tab α
  | [], i, v => [(i, v)]
  | (k, w) :: t, i, v =>
    if i < k then (i, v) :: (k, w) :: t
    else if i = k then (i, v) :: t
    else (k, w) :: tabPut t i v

/-- Removes key `i` (for tables whose keys are the things that exist). -/
def tabDel {α : Type} : Tab α → Nat → Tab α
  | [], _ => []
  | (k, w) :: t, i => if k = i then t else (k, w) :: tabDel t i

/-- Keys strictly rising from `lo` on, and no entry equal to the default. -/
def tabWfFrom {α : Type} [DecidableEq α] (d : α) : Nat → Tab α → Bool
  | _, [] => true
  | lo, (k, v) :: t => decide (lo ≤ k) && decide (v ≠ d) && tabWfFrom d (k + 1) t

/-- The canonical form of a table with default `d`. -/
def tabWf {α : Type} [DecidableEq α] (d : α) (t : Tab α) : Bool := tabWfFrom d 0 t

/-- Updates the entry at `i` with `f`. -/
def tabMod {α : Type} (d : α) (t : Tab α) (i : Nat) (f : α → α) : Tab α := tabPut t i (f (tabGet d t i))

/-- Bits [hi:lo] of `x` (R10). -/
def bits (x hi lo : Nat) : Nat := (x >>> lo) % 2 ^ (hi + 1 - lo)

/-- Bit `n` of `x`. -/
def bit (x n : Nat) : Bool := x.testBit n

/-- 1 for true, 0 for false. -/
def b2n (b : Bool) : Nat := if b then 1 else 0

/-- The two's complement value of the low `w` bits of `x`. -/
def sext (w x : Nat) : Int :=
  let y := x % 2 ^ w
  if y < 2 ^ (w - 1) then (y : Int) else (y : Int) - (2 ^ w : Nat)

/-- The low `w` bits of an integer, as a natural number. -/
def unsigned (w : Nat) (x : Int) : Nat := (x % ((2 ^ w : Nat) : Int)).toNat

/-- The value of little-endian bytes (R11). -/
def leNat : List Byte → Nat
  | [] => 0
  | b :: t => b.toNat + 256 * leNat t

/-- `n` little-endian bytes of a value (R11). -/
def leBytes : Nat → Nat → List Byte
  | 0, _ => []
  | n + 1, x => BitVec.ofNat 8 x :: leBytes n (x / 256)

/-- `x` sticking at `m`: counters that saturate. -/
def stick (m x : Nat) : Nat := min x m

/-- A 32-bit counter that sticks at 2^32 − 1, increased by `n`. -/
def stick32 (x n : Nat) : Nat := min (x + n) 0xFFFFFFFF

/-- `sat` of R65: the saturating clamp. -/
def satI (x lo hi : Int) : Int := if x < lo then lo else if x > hi then hi else x

/-- ⌈a / b⌉. -/
def ceilDiv (a b : Nat) : Nat := (a + b - 1) / b

/-- `n` bytes of a byte RAM from address `a`, whose unlisted bytes read 0. -/
def memRead (m : List (Nat × BitVec 8)) (a : Nat) : Nat → List Byte
  | 0 => []
  | n + 1 => tabGet 0 m a :: memRead (tabDrop m a) (a + 1) n

/-- The entries of bytes from address `a` on, before the entries `t`: a byte of 0 is not listed. -/
def memRun (a : Nat) : List Byte → List (Nat × BitVec 8) → List (Nat × BitVec 8)
  | [], t => t
  | b :: bs, t => if b = 0 then memRun (a + 1) bs t else (a, b) :: memRun (a + 1) bs t

/-- Writes bytes from address `a` on, in place of the entries that stood there. -/
def memWrite : List (Nat × BitVec 8) → Nat → List Byte → List (Nat × BitVec 8)
  | [], a, bs => memRun a bs []
  | (k, w) :: t, a, bs =>
    if k < a then (k, w) :: memWrite t a bs
    else match bs with
      | [] => (k, w) :: t
      | b :: r => memRun a (b :: r) (tabDrop ((k, w) :: t) (a + r.length))

/-- Sets the bytes `[a, a+n)` of a byte RAM to 0 (they are unlisted afterwards). -/
def memClear (m : List (Nat × BitVec 8)) (a n : Nat) : List (Nat × BitVec 8) :=
  m.filter (fun c => decide (c.1 < a ∨ a + n ≤ c.1))

end Sys2Proof.Machine
end

