-- ==== Sys2Proof/Machine/Num.lean ====
section
/-! DEFINITION. Machine/Num.lean: the number formats of chapter 02. Exact values, the one rounding rule (RNA),
and the decoding and encoding of every format of Table 02.1. -/

namespace Sys2Proof.Machine

/-- An exact value on its way through a conversion (R71): a signed magnitude `n/d` with `d > 0` and its own sign
of zero (R69), an infinity, or NaN (R52: payloads and quietness are not kept). -/
inductive Val
  | fin (neg : Bool) (n d : Nat)
  | inf (neg : Bool)
  | nan
  deriving DecidableEq, Repr, Inhabited

/-- +0. -/
def vZero : Val := .fin false 0 1

/-- 1. -/
def vOne : Val := .fin false 1 1

/-- An exact integer. -/
def vInt (x : Int) : Val := .fin (decide (x < 0)) x.natAbs 1

/-- `n/d` times 2^e, as a pair. -/
def scale2 (n d : Nat) (e : Int) : Nat × Nat :=
  if 0 ≤ e then (n * 2 ^ e.toNat, d) else (n, d * 2 ^ (-e).toNat)

/-- 2^e. -/
def vPow2 (e : Int) : Val := let p := scale2 1 1 e; .fin false p.1 p.2

/-- `⌊log2 (n/d)⌋`, exact, for `n, d > 0`. -/
def floorLog2 (n d : Nat) : Int :=
  let e : Int := (Nat.log2 n : Int) - (Nat.log2 d : Int)
  let p := scale2 n d (-e)
  if p.2 ≤ p.1 then e else e - 1

/-- RNA of the magnitude `n/d` to an integer (R64, R65): ties go away from zero. -/
def rnaNat (n d : Nat) : Nat := (2 * n + d) / (2 * d)

/-- RNA right shift of R65. -/
def rnaShift (x : Int) (s : Nat) : Int :=
  if s = 0 then x
  else
    let m := (x.natAbs + 2 ^ (s - 1)) / 2 ^ s
    if x < 0 then -(m : Int) else (m : Int)

/-- Whether a value is finite. -/
def Val.isFin : Val → Bool
  | .fin _ _ _ => true
  | _ => false

/-- Whether a value is zero of either sign. -/
def Val.isZero : Val → Bool
  | .fin _ n _ => n == 0
  | _ => false

/-- The sign of a value (NaN has none). -/
def Val.neg? : Val → Bool
  | .fin s _ _ => s
  | .inf s => s
  | .nan => false

/-- The magnitude of a finite value as a pair; infinities and NaN give 0. -/
def Val.mag : Val → Nat × Nat
  | .fin _ n d => (n, d)
  | _ => (0, 1)

/-- Sign reversal. -/
def vNeg : Val → Val
  | .fin s n d => .fin (!s) n d
  | .inf s => .inf (!s)
  | .nan => .nan

/-- Magnitude. -/
def vAbs : Val → Val
  | .fin _ n d => .fin false n d
  | .inf _ => .inf false
  | .nan => .nan

/-- Exact product, with the IEEE 754 special values (R67). -/
def vMul : Val → Val → Val
  | .nan, _ => .nan
  | _, .nan => .nan
  | .fin s n d, .fin t m e => .fin (s != t) (n * m) (d * e)
  | .inf s, .inf t => .inf (s != t)
  | .inf s, .fin t m _ => if m = 0 then .nan else .inf (s != t)
  | .fin s n _, .inf t => if n = 0 then .nan else .inf (s != t)

/-- Exact quotient by a finite non-zero value. -/
def vDiv : Val → Val → Val
  | .fin s n d, .fin t m e => if m = 0 then .nan else .fin (s != t) (n * e) (d * m)
  | .inf s, .fin t _ _ => .inf (s != t)
  | .fin s _ _, .inf t => .fin (s != t) 0 1
  | _, _ => .nan

/-- The signed numerator of a finite value over the denominator `l`, a multiple of its own. -/
def Val.over (v : Val) (l : Nat) : Int :=
  match v with
  | .fin s n d => let m : Int := (n * (l / d) : Nat); if s then -m else m
  | _ => 0

/-- Exact sum, with the IEEE 754 special values; an exact zero sum of values of unlike sign is +0. -/
def vAdd (a b : Val) : Val :=
  match a, b with
  | .nan, _ => .nan
  | _, .nan => .nan
  | .inf s, .inf t => if s = t then .inf s else .nan
  | .inf s, .fin _ _ _ => .inf s
  | .fin _ _ _, .inf t => .inf t
  | .fin s n d, .fin t m e =>
    let l := Nat.lcm d e
    let x := (Val.fin s n d).over l + (Val.fin t m e).over l
    if x = 0 then .fin (s && t && n == 0 && m == 0) 0 1
    else .fin (decide (x < 0)) x.natAbs l

/-- `a < b` on values that are not NaN (false where either is). Zeros of both signs are equal. -/
def vLt (a b : Val) : Bool :=
  match a, b with
  | .nan, _ => false
  | _, .nan => false
  | .inf s, .inf t => s && !t
  | .inf s, .fin _ _ _ => s
  | .fin _ _ _, .inf t => !t
  | .fin s n d, .fin t m e => decide ((Val.fin s n d).over (d * e) < (Val.fin t m e).over (d * e))

/-- `a = b` as numbers (false where either is NaN). -/
def vEq (a b : Val) : Bool :=
  match a, b with
  | .nan, _ => false
  | _, .nan => false
  | _, _ => !vLt a b && !vLt b a

/-- The layout of a binary float format (Table 02.2, R51). -/
structure FSpec where
  /-- fraction bits -/
  fb : Nat
  /-- total width -/
  w : Nat
  bias : Nat
  /-- magnitude code of the largest finite value -/
  maxCode : Nat
  /-- canonical NaN -/
  nanCode : Nat
  /-- whether the format has infinities (their magnitude code is maxCode + 1) -/
  hasInf : Bool
  /-- whether the format has NaN codes (every magnitude above the largest finite and the infinity) -/
  hasNan : Bool
  deriving DecidableEq, Repr

def fp32Spec : FSpec := ⟨23, 32, 127, 0x7F7FFFFF, 0x7FC00000, true, true⟩
def bf16Spec : FSpec := ⟨7, 16, 127, 0x7F7F, 0x7FC0, true, true⟩
def fp16Spec : FSpec := ⟨10, 16, 15, 0x7BFF, 0x7E00, true, true⟩
def e4m3Spec : FSpec := ⟨3, 8, 7, 0x7E, 0x7F, false, true⟩
def e5m2Spec : FSpec := ⟨2, 8, 15, 0x7B, 0x7E, true, true⟩
def e2m1Spec : FSpec := ⟨1, 4, 1, 0x7, 0x0, false, false⟩

/-- The exact value of a float code (Table 02.2; R52: every NaN code is NaN). -/
def decFloat (sp : FSpec) (code : Nat) : Val :=
  let m := code % 2 ^ (sp.w - 1)
  let s := code.testBit (sp.w - 1)
  if m ≤ sp.maxCode then
    let e := m / 2 ^ sp.fb
    let f := m % 2 ^ sp.fb
    let k := if e = 0 then f else 2 ^ sp.fb + f
    let x : Int := (max e 1 : Nat) - (sp.bias : Int) - (sp.fb : Int)
    let p := scale2 k 1 x
    .fin s p.1 p.2
  else if sp.hasInf && m == sp.maxCode + 1 then .inf s
  else .nan

/-- The magnitude code that rounds `n/d` under RNA at the format's precision, its exponent range taken as without
an upper limit (R65): above `maxCode` the value has overflowed. -/
def encMag (sp : FSpec) (n d : Nat) : Nat :=
  if n = 0 then 0
  else
    let e : Int := max (floorLog2 n d) (1 - (sp.bias : Int))
    let p := scale2 n d ((sp.fb : Int) - e)
    (e + sp.bias).toNat * 2 ^ sp.fb + rnaNat p.1 p.2 - 2 ^ sp.fb

/-- The sign bit of a format. -/
def signBit (sp : FSpec) (s : Bool) : Nat := if s then 2 ^ (sp.w - 1) else 0

/-- Rule F of Table 02.5: overflow gives infinity. -/
def encF (sp : FSpec) : Val → Nat
  | .nan => sp.nanCode
  | .inf s => signBit sp s + sp.maxCode + 1
  | .fin s n d => signBit sp s + min (encMag sp n d) (sp.maxCode + 1)

/-- Rule S of Table 02.5: overflow and infinities give the largest finite value. -/
def encS (sp : FSpec) : Val → Nat
  | .nan => sp.nanCode
  | .inf s => signBit sp s + sp.maxCode
  | .fin s n d => signBit sp s + min (encMag sp n d) sp.maxCode

/-- RNA of a finite value to a signed integer. -/
def rnaInt : Val → Int
  | .fin s n d => if s then -(rnaNat n d : Int) else (rnaNat n d : Int)
  | _ => 0

/-- FP32 code to value and back. -/
def f32 (c : Nat) : Val := decFloat fp32Spec c
def toF32 (v : Val) : Nat := encF fp32Spec v
def bf16 (c : Nat) : Val := decFloat bf16Spec c
def toBf16 (v : Val) : Nat := encF bf16Spec v

/-- Code of Table 02.1 to format; reserved codes give none (R44, R45). -/
def fmtOf : Nat → Option Fmt
  | 0 => some .fp32 | 1 => some .bf16 | 2 => some .fp16 | 3 => some .e4m3 | 4 => some .e5m2 | 5 => some .int32
  | 6 => some .int16 | 7 => some .int8 | 8 => some .uint8 | 9 => some .int4 | 10 => some .u4 | 11 => some .n4
  | 12 => some .mxfp8 | 13 => some .mxfp4 | 14 => some .mxint8 | 15 => some .rb8
  | _ => none

/-- The format's code (Table 02.1). -/
def fmtCode : Fmt → Nat
  | .fp32 => 0 | .bf16 => 1 | .fp16 => 2 | .e4m3 => 3 | .e5m2 => 4 | .int32 => 5 | .int16 => 6 | .int8 => 7
  | .uint8 => 8 | .int4 => 9 | .u4 => 10 | .n4 => 11 | .mxfp8 => 12 | .mxfp4 => 13 | .mxint8 => 14 | .rb8 => 15

/-- R45: a register field that holds a reserved code stores 0x01 (BF16). -/
def fmtClamp (c : Nat) : Nat := if c ≤ 15 then c else 1

/-- Element width in bits (Table 02.1). -/
def ebits : Fmt → Nat
  | .fp32 | .int32 => 32
  | .bf16 | .fp16 | .int16 => 16
  | .int4 | .u4 | .n4 | .mxfp4 => 4
  | _ => 8

def isMx : Fmt → Bool
  | .mxfp8 | .mxfp4 | .mxint8 => true
  | _ => false

/-- Formats that carry a zero point (R55). -/
def hasZp : Fmt → Bool
  | .uint8 | .u4 => true
  | _ => false

/-- Bytes of a row of `n` elements, padded to whole bytes (R47) and, for MX, to whole blocks of 32 (R48). -/
def rowBytes (f : Fmt) (n : Nat) : Nat :=
  let m := if isMx f then ceilDiv n 32 * 32 else n
  ceilDiv (m * ebits f) 8

/-- The zero point a format reads from an 8-bit field (R55: U4 reads bits [3:0]). -/
def zpOf (f : Fmt) (z : Nat) : Nat := if f = .u4 then z % 16 else z % 256

/-- The level of a code in a level table given as 16 bytes (R57): bits [6:0], two's complement. -/
def n4Level (tab : List Nat) (c : Nat) : Int := sext 7 (tab.getD c 0)

/-- Table 02.3: the default N4 level table. -/
def n4Default : List Nat :=
  [0x00, 0x06, 0x0C, 0x12, 0x19, 0x21, 0x2C, 0x3F, 0xC0, 0xC1, 0xD4, 0xDF, 0xE7, 0xEE, 0xF4, 0xFA]

/-- The decoded multiplicand of an element code before its scale (R54 to R57, R60, R63): the float value, the
integer, `q − z`, the level, or for an MX format the element value with MXINT8's 2^−6. -/
def decElem (f : Fmt) (z : Nat) (tab : List Nat) (c : Nat) : Val :=
  match f with
  | .fp32 => decFloat fp32Spec c
  | .bf16 => decFloat bf16Spec c
  | .fp16 => decFloat fp16Spec c
  | .e4m3 | .mxfp8 => decFloat e4m3Spec c
  | .e5m2 => decFloat e5m2Spec c
  | .int32 => vInt (sext 32 c)
  | .int16 => vInt (sext 16 c)
  | .int8 | .rb8 => vInt (sext 8 c)
  | .uint8 => vInt ((c % 256 : Nat) - (zpOf .uint8 z : Int))
  | .int4 => vInt (sext 4 c)
  | .u4 => vInt ((c % 16 : Nat) - (zpOf .u4 z : Int))
  | .n4 => vInt (n4Level tab (c % 16))
  | .mxfp4 => decFloat e2m1Spec c
  | .mxint8 => match vInt (sext 8 c) with
    | .fin s n d => .fin s n (d * 64)
    | v => v

/-- The scale an E8M0 byte stands for; 0xFF makes the block NaN (R53, R60). -/
def e8m0 (c : Nat) : Val := if c = 0xFF then .nan else vPow2 ((c : Int) - 127)

/-- The value of an element under its scale (Table 02.4). NaN and ±Inf codes decode as such, whatever a finite
scale is; a non-finite scale makes the value non-finite (R93). -/
def applyScale (v s : Val) : Val :=
  match v, s with
  | .inf b, .fin _ _ _ => .inf b
  | .fin b n d, .fin t m e => if n = 0 && d == 1 && !b then .fin false 0 1 else .fin (b != t) (n * m) (d * e)
  | _, _ => vMul v s

/-- The largest and smallest levels of a table. -/
def n4Levels (tab : List Nat) : List Int := (List.range 16).map (n4Level tab)
def n4Max (tab : List Nat) : Int := (n4Levels tab).foldl max (-64)
def n4Min (tab : List Nat) : Int := (n4Levels tab).foldl min 63

/-- |t − L| for a finite `t = ±n/d`, over the denominator `d`. -/
def n4Dist (s : Bool) (n d : Nat) (l : Int) : Nat := ((if s then -(n : Int) else (n : Int)) - l * d).natAbs

/-- R59: the code whose level is nearest to a finite `t`; ties to the larger magnitude, then, at equal magnitude
(+a and −a about t = ±0), to the lowest code of either level. -/
def n4Nearest (tab : List Nat) (s : Bool) (n d : Nat) : Nat :=
  ((List.range 16).foldl (fun (best : Nat) c =>
    let l := n4Level tab c
    let b := n4Level tab best
    let dl := n4Dist s n d l
    let db := n4Dist s n d b
    if dl < db ∨ (dl = db ∧ b.natAbs < l.natAbs) then c else best) 0)

/-- The lowest code of the level `l`. -/
def n4CodeOf (tab : List Nat) (l : Int) : Nat := ((List.range 16).find? (fun c => n4Level tab c == l)).getD 0

/-- R96, rule G: whether a finite `t` lies at or beyond an end's guard s point. -/
def n4Beyond (tab : List Nat) (s : Bool) (n d : Nat) : Bool :=
  let ls := n4Levels tab
  let hi := n4Max tab
  let lo := n4Min tab
  let below := (ls.filter (· < hi)).foldl max (-1000)
  let above := (ls.filter (lo < ·)).foldl min 1000
  let g : Int := if below = -1000 then 1 else hi - below
  let g' : Int := if above = 1000 then 1 else above - lo
  let t : Int := if s then -(n : Int) else (n : Int)
  decide (2 * t ≥ (2 * hi + g) * d) || decide (2 * t ≤ (2 * lo - g') * d)

/-- The outcome of encoding one element: the code, and whether a finite element saturated (R96). -/
structure Enc where
  code : Nat
  sat : Bool
  deriving DecidableEq, Repr, Inhabited

/-- Clips `|t|` at `C` keeping the sign (step 5 of R80). -/
def clipVal (clip : Option Val) (t : Val) : Val :=
  match clip, t with
  | some (.fin _ n d), .fin s m e => if n * e < m * d then .fin s n d else .fin s m e
  | _, t => t

/-- The integer range of a format (R54 symmetric for signed; 0 to 2^n − 1 for UINT8 and U4). -/
def intRange : Fmt → Int × Int
  | .int32 => (-2147483647, 2147483647)
  | .int16 => (-32767, 32767)
  | .int4 => (-7, 7)
  | .uint8 => (0, 255)
  | .u4 => (0, 15)
  | _ => (-127, 127)

/-- Encodes into an integer target with zero point `z` (rules I and Z; z is 0 for signed targets). `q` is the
value to round: for MXINT8 it is `t × 2^6`. -/
def encInt (f : Fmt) (z : Nat) (q qc : Val) : Enc :=
  let r := intRange f
  match q with
  | .nan => ⟨if hasZp f then z else 0, false⟩
  | .inf s => ⟨unsigned (ebits f) (if s then r.1 else r.2), false⟩
  | _ =>
    let free := rnaInt q + z
    let out := satI (rnaInt qc + z) r.1 r.2
    ⟨unsigned (ebits f) out, out != free⟩

/-- Encodes a finite or special value into a float target by rule F or S. -/
def encFl (sp : FSpec) (ruleF : Bool) (t tc : Val) : Enc :=
  let code := if ruleF then encF sp tc else encS sp tc
  match t with
  | .fin s n d => ⟨code, decide (sp.maxCode < encMag sp n d) || code != signBit sp s + encMag sp n d⟩
  | _ => ⟨code, false⟩

/-- Encodes into N4 (rule G). -/
def encN4 (tab : List Nat) (t tc : Val) : Enc :=
  match t, tc with
  | .nan, _ => ⟨0, false⟩
  | .inf s, _ => ⟨n4CodeOf tab (if s then n4Min tab else n4Max tab), false⟩
  | .fin s n d, .fin s' n' d' =>
    let c := n4Nearest tab s' n' d'
    ⟨c, n4Beyond tab s n d || c != n4Nearest tab s n d⟩
  | _, _ => ⟨0, false⟩

/-- Encodes the scaled value `t` (step 6 of R80) after the clip of step 5, by the target's rule of Table 02.5.
For an MX target `t` is already divided by the shared scale (R62). -/
def encElem (f : Fmt) (z : Nat) (tab : List Nat) (clip : Option Val) (t : Val) : Enc :=
  let tc := clipVal clip t
  match f with
  | .fp32 => encFl fp32Spec true t tc
  | .bf16 => encFl bf16Spec true t tc
  | .fp16 => encFl fp16Spec true t tc
  | .e4m3 | .mxfp8 => encFl e4m3Spec false t tc
  | .e5m2 => encFl e5m2Spec false t tc
  | .mxfp4 => encFl e2m1Spec false t tc
  | .mxint8 => encInt .mxint8 0 (vMul t (vInt 64)) (vMul tc (vInt 64))
  | .n4 => encN4 tab t tc
  | .uint8 => encInt f (zpOf f z) t tc
  | .u4 => encInt f (zpOf f z) t tc
  | _ => encInt f 0 t tc

/-- The NaN result of a target (Table 02.5). -/
def nanOf (f : Fmt) (z : Nat) : Nat :=
  match f with
  | .fp32 => 0x7FC00000 | .bf16 => 0x7FC0 | .fp16 => 0x7E00 | .e4m3 | .mxfp8 => 0x7F | .e5m2 => 0x7E
  | .uint8 | .u4 => zpOf f z
  | _ => 0

/-- Emax of R61. -/
def mxEmax : Fmt → Int
  | .mxfp8 => 8
  | .mxfp4 => 2
  | _ => 0

/-- The larger of two magnitudes given as pairs. -/
def magMax (a b : Nat × Nat) : Nat × Nat := if a.1 * b.2 < b.1 * a.2 then b else a

/-- The largest finite magnitude of a list (0 where none is finite). -/
def maxFinite (vs : List Val) : Nat × Nat := vs.foldl (fun m v => magMax m v.mag) (0, 1)

/-- R61: the shared exponent X of a block. -/
def mxExp (f : Fmt) (m : Nat × Nat) : Int :=
  if m.1 = 0 then 0 else satI (floorLog2 m.1 m.2 - mxEmax f) (-127) 127

/-- Unpacks `n` element codes of a row from its bytes (R46, R47). -/
def unpackElems (f : Fmt) (bs : List Byte) (n : Nat) : List Nat :=
  (List.range n).map (fun i =>
    match ebits f with
    | 4 => let b := (bs.getD (i / 2) 0).toNat; if i % 2 = 0 then b % 16 else b / 16
    | 8 => (bs.getD i 0).toNat
    | 16 => leNat ((bs.drop (2 * i)).take 2)
    | _ => leNat ((bs.drop (4 * i)).take 4))

/-- Packs 4-bit codes two to a byte, an odd last one with code 0 above it (R47). -/
def packNibbles : List Nat → List Byte
  | [] => []
  | [a] => [BitVec.ofNat 8 (a % 16)]
  | a :: b :: t => BitVec.ofNat 8 (a % 16 + 16 * (b % 16)) :: packNibbles t

/-- Packs element codes into bytes (R46, R47). -/
def packElems (f : Fmt) (cs : List Nat) : List Byte :=
  match ebits f with
  | 4 => packNibbles cs
  | 8 => cs.map (BitVec.ofNat 8)
  | 16 => cs.flatMap (leBytes 2)
  | _ => cs.flatMap (leBytes 4)

end Sys2Proof.Machine
end

