-- ==== Sys2Proof/Config.lean ====
section
/-! DEFINITION. Config.lean: what the specification leaves open or names without giving it: the free values, the
fixed but unstated mapping of the vector functions (R272), and what no rule places or quantifies. None of them has a body, so
nothing can be proved of a value. -/

namespace Sys2Proof

/-- A free byte: the value of generation `g` at position `i` (log entry 3). -/
opaque Config.freeByte : Nat → Nat → BitVec 8

/-- A free choice: generation `g`, position `i` (log entry 3). -/
opaque Config.freeBit : Nat → Nat → Bool

/-- A free number: generation `g`, position `i` (log entry 3); its user bounds it. -/
opaque Config.freeNat : Nat → Nat → Nat

/-- R272: the one fixed mapping of vector function `fn` (0x10 to 0x18) for FP32 (`false`) and BF16 (`true`), from
operand code to result code. The manual does not give it; the model keeps it within Table 08.7 (log entry 4). -/
opaque Config.vfun : Nat → Bool → Nat → Nat

/-- The byte of an allow mask that no CONFIG has stored: mask slot, byte (log entry 33). It depends on nothing else, so
that tokens depend on nothing else (R40). -/
opaque Config.unstoredMask : Nat → Nat → BitVec 8

/-- The code stored by an integer requantisation whose limits meet in no value of the target: limits as stored and the
product before the clamp (log entry 18). -/
opaque Config.reqUnfit : Nat → Nat → Int → Nat

/-- The payload of a CTRL flit, by code (0 PAIR_INFO, 1 DOWN, 2 STANDBY) and the values it carries, and what a payload
reads as (log entry 17). -/
opaque Config.ctrlPayload : Nat → List Nat → List (BitVec 8)
opaque Config.ctrlRead : List (BitVec 8) → Nat × List Nat

/-- R287: the exponent of a block of an MX weight that a chain loads, for which the manual gives no place: weight operand,
output channel, block, and the block's element codes (log entry 20). -/
opaque Config.mxWeightExp : Nat → Nat → Nat → List Nat → BitVec 8

/-- The token that an OUT beyond the vocabulary gives a session (log entry 41). -/
opaque Config.strayToken : Nat → Nat

/-- Where a page's share holds K (`false`) and V (`true`), by the size of the share (log entry 39). -/
opaque Config.kvOffset : Bool → Nat → Nat

/-- Where in the system area of die 0's well the Supervisor keeps its copies, as a byte offset: 0 the tokenizer section
(R449), 1 and 2 the telemetry snapshots (R486) (log entry 67). -/
opaque Config.sysPlace : Nat → Nat

/-- R467: the gains of the servo's proportional (`false`) and integral (`true`) parts, which the manual does not state
(log entry 30). -/
opaque Config.servoGain : Bool → Nat

end Sys2Proof
end

