-- ==== Sys2Proof/Machine/Regs.lean ====
section
/-! DEFINITION. Machine/Regs.lean: the word addresses of the register map (chapter 18). -/

namespace Sys2Proof.Machine

-- identification (Table 18.3)
def Reg.idFwVer : Nat := 0x007
-- boot (Tables 18.5, 18.6)
def Reg.bootStatus : Nat := 0x040
def Reg.bootCtl : Nat := 0x041
def Reg.bootFwLen : Nat := 0x042
def Reg.imgListLo : Nat := 0x046
def Reg.imgListHi : Nat := 0x047
def Reg.imgListCnt : Nat := 0x048
def Reg.imgCtl : Nat := 0x049
def Reg.imgStatus : Nat := 0x04A
def Reg.imgShortLo : Nat := 0x04B
def Reg.imgShortHi : Nat := 0x04C
def Reg.imgModes : Nat := 0x04D
def Reg.imgPool : Nat := 0x04E
def Reg.floatBase : Nat := 0x050
-- power, leave and thermal (Table 18.7)
def Reg.pwrCtl : Nat := 0x080
def Reg.pwrState : Nat := 0x081
def Reg.pkgLimit : Nat := 0x082
def Reg.pwrEst : Nat := 0x083
def Reg.pwrEnergyLo : Nat := 0x084
def Reg.pwrEnergyHi : Nat := 0x085
def Reg.droopCnt : Nat := 0x086
def Reg.leaveBudget : Nat := 0x088
def Reg.leaveStarve : Nat := 0x089
def Reg.leaveWaitCnt : Nat := 0x08A
def Reg.leaveDebtCnt : Nat := 0x08B
def Reg.thermMax : Nat := 0x090
def Reg.thermStackMax : Nat := 0x091
def Reg.thermBand : Nat := 0x092
def Reg.thermThrottle : Nat := 0x093
def Reg.thermStopCnt : Nat := 0x094
def Reg.thermDie : Nat := 0x095
def Reg.thermHub : Nat := 0x099
def Reg.thermStack : Nat := 0x0A0
-- time (Table 18.8)
def Reg.timeFrac : Nat := 0x0C0
def Reg.timeNsLo : Nat := 0x0C1
def Reg.timeNsHi : Nat := 0x0C2
def Reg.timeCtl : Nat := 0x0C3
def Reg.timeState : Nat := 0x0C4
def Reg.timeOffset : Nat := 0x0C5
def Reg.timeRate : Nat := 0x0C6
def Reg.timeLockNs : Nat := 0x0C7
def Reg.timePtmMs : Nat := 0x0C8
def Reg.timeTodLo : Nat := 0x0C9
def Reg.timeTodHi : Nat := 0x0CA
def Reg.timePpsLo : Nat := 0x0CB
def Reg.timePpsHi : Nat := 0x0CC
def Reg.timeStepCnt : Nat := 0x0CD
def Reg.timePpsBadCnt : Nat := 0x0CE
-- host rings (Table 18.9)
def Reg.hostLink : Nat := 0x100
def Reg.frameErrCnt : Nat := 0x101
def Reg.qpErrLo : Nat := 0x102
def Reg.qpErrHi : Nat := 0x103
def Reg.qpEnLo : Nat := 0x104
def Reg.qpEnHi : Nat := 0x105
-- dispatcher and text (Table 18.10)
def Reg.dispCtl : Nat := 0x140
def Reg.sessCap : Nat := 0x141
def Reg.sessOpen : Nat := 0x142
def Reg.rowsBusy : Nat := 0x143
def Reg.freePages : Nat := 0x144
def Reg.stepCntLo : Nat := 0x145
def Reg.stepCntHi : Nat := 0x146
def Reg.stepWdog : Nat := 0x147
def Reg.faultCnt : Nat := 0x148
def Reg.ctxMax : Nat := 0x149
def Reg.textState : Nat := 0x160
def Reg.textVocab : Nat := 0x161
def Reg.textInBytes : Nat := 0x162
def Reg.textTokens : Nat := 0x163
def Reg.textCutBytes : Nat := 0x164
def Reg.textTruncDrop : Nat := 0x165
def Reg.textStop : Nat := 0x166
def Reg.textCe : Nat := 0x167
def Reg.textUe : Nat := 0x168
-- memory health (Table 18.11)
def Reg.pumpTimeout : Nat := 0x180
def Reg.pumpErr : Nat := 0x181
def Reg.cistCe : Nat := 0x182
def Reg.cistUe : Nat := 0x183
def Reg.wellCe : Nat := 0x184
def Reg.wellRetry : Nat := 0x185
def Reg.wellUe : Nat := 0x186
def Reg.stackEcc : Nat := 0x187
def Reg.badBeat : Nat := 0x188
def Reg.pmCe : Nat := 0x189
def Reg.pmUe : Nat := 0x18A
def Reg.trfCe : Nat := 0x18B
def Reg.trfUe : Nat := 0x18C
def Reg.scrubCist : Nat := 0x190
def Reg.scrubWell : Nat := 0x191
def Reg.scrubWellPos : Nat := 0x192
-- links (Table 18.12)
def Reg.pairCtl : Nat := 0x1C0
def Reg.linkRetrain : Nat := 0x1C1
def Reg.extState : Nat := 0x1C2
def Reg.dieState : Nat := 0x1C3
def Reg.linkDown : Nat := 0x1C4
def Reg.linkReplay : Nat := 0x1C5
def Reg.linkCrc : Nat := 0x1C6
def Reg.fecCorr : Nat := 0x1C7
def Reg.fecUncorr : Nat := 0x1C8
-- calibration (Table 18.13)
def Reg.satThresh : Nat := 0x200
def Reg.underSteps : Nat := 0x201
def Reg.misfitCnt : Nat := 0x202
def Reg.misfitLast : Nat := 0x203
def Reg.calNfLo : Nat := 0x204
def Reg.calNfHi : Nat := 0x205
def Reg.calSatLo : Nat := 0x206
def Reg.calSatHi : Nat := 0x207
-- events (Table 18.14)
def Reg.evtStatus : Nat := 0x240
def Reg.evtMask : Nat := 0x241
def Reg.evtCtl : Nat := 0x242
def Reg.telemMs : Nat := 0x243
def Reg.telemSeq : Nat := 0x244
def Reg.deadCycles : Nat := 0x245
def Reg.deadCnt : Nat := 0x246
def Reg.trapCnt : Nat := 0x247
-- security and debug (Table 18.15)
def Reg.lifecycle : Nat := 0x280
def Reg.secStatus : Nat := 0x281
def Reg.lcReq : Nat := 0x282
def Reg.lcStatus : Nat := 0x283
def Reg.slotCtl : Nat := 0x284
def Reg.slotState : Nat := 0x285
def Reg.attestCtl : Nat := 0x286
def Reg.zeroize : Nat := 0x287
def Reg.svnAdvance : Nat := 0x288
def Reg.authFailCnt : Nat := 0x289
def Reg.deviceId : Nat := 0x28C
def Reg.dbgLevel : Nat := 0x2C0
def Reg.dbgReq : Nat := 0x2C1
def Reg.dbgStatus : Nat := 0x2C2
def Reg.dbgCmd : Nat := 0x2C3
def Reg.dbgCmdStatus : Nat := 0x2C4
def Reg.dbgAddrLo : Nat := 0x2C5
def Reg.dbgAddrHi : Nat := 0x2C6
def Reg.dbgData : Nat := 0x2D0
-- sump and window (Table 18.16)
def Reg.sumpWr : Nat := 0x300
def Reg.sumpSel : Nat := 0x301
def Reg.sumpDrop : Nat := 0x302
def Reg.sumpRec : Nat := 0x310
def Reg.winTable : Nat := 0x340
def Reg.winIndex : Nat := 0x341
def Reg.winData : Nat := 0x342
def Reg.winLen : Nat := 0x343
def Reg.winStatus : Nat := 0x344
def Reg.portCrc : Nat := 0x345
def Reg.portBad : Nat := 0x346
-- station map (Table 18.17)
def Reg.mapSummary : Nat := 0x380
def Reg.mapDieEn : Nat := 0x381
def Reg.mapDieLog : Nat := 0x385
def Reg.mapSpare : Nat := 0x390
def Reg.stnReset : Nat := 0x398
def Reg.mapStatus : Nat := 0x399

end Sys2Proof.Machine
end

