-- ==== Sys2Proof/Machine/Types.lean ====
section
/-! DEFINITION. Machine/Types.lean: the records a station is made of (chapters 03 to 09): parameter sets, scale
slots, pump channels, threads, arrays, vector commands, chains. All plain data. -/

namespace Sys2Proof.Machine

/-- An error of a SECDED-protected word: one bit, or uncorrectable (R114, R166, R263). A word with no mark is
clean. `reported` is set once an uncorrectable TRF word has written its record (R263). -/
inductive Mark
  | single
  | bad (reported : Bool)
  deriving DecidableEq, Repr

/-- What a re-read of a well beat finds (R121). -/
inductive ReRead
  | clean | single | bad
  deriving DecidableEq, Repr

/-- An error of a well beat (R121): one that the stack itself corrects on every read, a single-bit error of the device
code, or an uncorrectable code or tag mismatch together with what its re-reads will find (an empty list: every re-read
is uncorrectable too). -/
inductive BeatMark
  | stack
  | single
  | bad (rereads : List ReRead)
  deriving DecidableEq, Repr

/-- One NCU parameter set (Table 03.6, R86). -/
structure PSet where
  lsBase : Nat := 0
  lsKind : Nat := 0
  lsFmt : Nat := 0
  lzEn : Nat := 0
  lzBase : Nat := 0
  reqTab : Nat := 0
  reqM : Nat := 0
  reqS : Nat := 0
  reqZp : Nat := 0
  reqLo : Nat := 0
  reqHi : Nat := 0
  deriving DecidableEq, Repr, Inhabited

/-- One scale slot (Table 03.9, R99), at its reset values. `hist` lists the valid history, newest first: HCNT is
its length. -/
structure Slot where
  fmt : Nat := 0x07
  zp : Nat := 0
  hlen : Nat := 1
  hr : Nat := 0
  e : Nat := 0x7F
  ePrev : Nat := 0x7F
  hist : List Nat := []
  stepMax : Nat := 0
  stepValid : Bool := false
  used : Bool := false
  stepSat : Nat := 0
  underCnt : Nat := 0
  satCnt : Nat := 0
  nfCnt : Nat := 0
  misfitCnt : Nat := 0
  deriving DecidableEq, Repr, Inhabited

/-- A siphon tile (R314, Table 10.4): its destination work unit (in the paired package when `xpkg`), local data
address, local scale address, row bytes, rows, stride, the data bytes row by row and the scale bytes, the source
work unit, and the requester (0 to 3 pump channel, 4 or 5 chain half; Table 10.3). `runs` says where the scale bytes go
when they are not the one run at `spl` (log entry 16). -/
structure Tile where
  dst : Nat := 0
  xpkg : Bool := false
  addr : Nat := 0
  spl : Nat := 0
  rowBytes : Nat := 0
  rows : Nat := 0
  stride : Int := 0
  data : List Byte := []
  scale : List Byte := []
  runs : List (Nat × Nat) := []
  src : Nat := 0
  req : Nat := 0
  deriving DecidableEq, Repr, Inhabited

/-- A siphon requester's work (R316, R319): the tiles of the block in hand, first to leave first, and what stands
with the first: 0 nothing, 1 credit taken and leave requested, 2 leave granted, 3 sent and outstanding. -/
structure Sip where
  tiles : List Tile := []
  phase : Nat := 0
  /-- what the grant debited for the tile in hand -/
  paid : Nat := 0
  deriving DecidableEq, Repr, Inhabited

/-- The descriptor that is active in a pump channel: its 64 bytes (as one little-endian number), the control word
and parameter set it latched when its first element entered the NCU (R87; none before), the timeout it started
with (R143), the source elements whose writes are complete (POS, R139), whether a cancel waits for its next block
boundary (R146), and the status it will complete with once a fault has ended it (R141). -/
structure Active where
  raw : Nat := 0
  latched : Option (Nat × PSet) := none
  timeoutUs : Nat := 0
  pos : Nat := 0
  cancel : Bool := false
  ended : Option Nat := none
  /-- granted WELL leave in hand, in bytes of source data (R148) -/
  leaveBytes : Nat := 0
  /-- bytes of source data for which WELL leave has been requested since the descriptor started -/
  leaveAsked : Nat := 0
  /-- the siphon tiles of the block in hand, and what POS stands at once each of them has landed (R138, R316, R318) -/
  sip : Sip := {}
  marks : List Nat := []
  deriving DecidableEq, Repr, Inhabited

/-- A pump channel: its queued descriptors, oldest first, each with whether a PCANCEL caught it (R146); the active
one; and its three status words (R139), cleared as after a station reset (R187). -/
structure Chan where
  queue : List (Nat × Bool) := []
  active : Option Active := none
  last : Nat := 0
  firstErr : Nat := 0
  errCnt : Nat := 0
  deriving DecidableEq, Repr, Inhabited

/-- Thread states of Table 05.1 (R156). -/
inductive TState
  | run | wait | parked | trapped
  deriving DecidableEq, Repr, Inhabited

/-- The instructions of Table 06.2, by mnemonic. -/
inductive SOp
  | nop | park | brk | rdsr | setvl
  | add | sub | and | or | xor | shl | shr | sra | slt | sltu | min | max | minu | maxu | mul | mulh | mulhu
  | adds | subs | clz | popc
  | addi | andi | ori | xori | slti | sltiu | lui | shli | shri | srai
  | beq | bne | blt | bge | bltu | bgeu | j | call | jr | callr | ret
  | lw | lh | lhu | lb | lbu | sw | sh | sb
  | ewait | esig | eset | erd | rsig
  | pissue | pstat | pclr | pcancel
  | chain | cabort | cpos | cstat
  | mshift | mpass
  | vadd | vsub | vmul | vfma | vmin | vmax | vabs | vneg | vsel | vaddb | vsubb | vmulb
  | vexp | vlog | vrcp | vrsqrt | vsqrt | vtanh | vsigmoid | vsilu | vgelu
  | vcmp | rsum | rmax | rmin | rmaxabs
  | vmov | splat | compress | expand | zero | mand | mor | mxor | mnot | mset | vfence
  | vcvt | psetw | slotw | slotr | ncucnt | stepclose
  deriving DecidableEq, Repr, Inhabited

/-- A hardware thread (R156 to R175), as R157 and R210 leave it after a station reset. `stack` lists the on-chip
call stack, newest entry first. `latchLast`/`latchErr` are the PSTAT latches per channel (R202), `latchCycle` the
CYCLE_LO latch (R225). -/
structure Thread where
  st : TState := .parked
  pc : Nat := 0
  regs : Tab Word := []
  vl : Nat := 0
  cause : Nat := 0
  stack : List Nat := []
  spill : Nat := 0
  waitEv : Nat := 0
  waitTarget : Nat := 0
  latchLast : Tab Nat := []
  latchErr : Tab Nat := []
  latchCycle : Nat := 0
  /-- CSTAT and CPOS of the thread's most recent chain (R305) -/
  chainStat : Nat := 0x7E
  chainPos : Nat := 0
  deriving DecidableEq, Repr, Inhabited

/-- An instruction that has issued and not retired (R160, R162): its thread, address and word, and whether it is
held at retirement or waiting at an EWAIT. -/
structure InFlight where
  thread : Nat
  pc : Nat
  word : Nat
  held : Bool := false
  deriving DecidableEq, Repr, Inhabited

/-- A remote signal on its way (R170, R322): the sender's work unit, the destination work unit, whether it lies in
the paired package, and the counter. -/
structure Signal where
  fromUnit : Nat
  toUnit : Nat
  xpkg : Bool
  ev : Nat
  deriving DecidableEq, Repr, Inhabited

/-- Phase of an array command: waiting, executing, or (a pass) streamed and draining its results (R245). -/
inductive APhase
  | queued | running | drained
  deriving DecidableEq, Repr, Inhabited

/-- A command in an array's queue (R238, R245): its instruction word, whether it is an MSHIFT, the bank it is bound
to, its ARRAY leave request while that is not granted (R351), and its phase. -/
structure ACmd where
  word : Nat
  shift : Bool
  bank : Nat
  /-- its cost-table entry (Table 11.1) -/
  entry : Nat := 3
  /-- the leave request it joined, or none once that is granted; then what the grant debited for it -/
  req : Option Nat := none
  paid : Nat := 0
  phase : APhase := .queued
  /-- handed off against R282, to an array that a chain has claimed -/
  bad : Bool := false
  deriving DecidableEq, Repr, Inhabited

/-- One weight bank (R236): the weight format and K segment it was filled with, and the tile and sidecar bytes
taken from tw. -/
structure Bank where
  fmt : Nat := 0
  ksel : Nat := 0
  tile : List (Nat × BitVec 8) := []
  side : List (Nat × BitVec 8) := []
  /-- free-value generation: 0 for defined contents, else the bank is unpredictable (R281) -/
  havoc : Nat := 0
  deriving DecidableEq, Repr, Inhabited

/-- One matrix array (R236 to R245). `lastW` is the format and KSEL of the most recent MSHIFT instruction retired
since the last station reset (R206), `lastBank` the bank bound by the most recent MSHIFT, `begunBank` that of the
most recent shift that began (R238), `front` the front bank. -/
structure Arr where
  q : List ACmd := []
  lastW : Option (Nat × Nat) := none
  lastBank : Nat := 0
  begunBank : Nat := 0
  front : Nat := 0
  bank0 : Bank := {}
  bank1 : Bank := {}
  deriving DecidableEq, Repr, Inhabited

/-- A vector or VCVT command, mask operation or VFENCE (R210, R217): its word, the VL and scalar value it took at
retirement, its thread, and its VECTOR leave request while that is not granted. -/
structure VCmd where
  word : Nat
  vl : Nat
  sx : Nat
  thread : Nat
  /-- its occupancy in cycles (Table 06.15), its cost in VEC_CYC -/
  occ : Nat := 0
  /-- the leave request it joined, or none once that is granted or where it needs none; what the grant debited -/
  req : Option Nat := none
  paid : Nat := 0
  deriving DecidableEq, Repr, Inhabited

/-- One row's running state of ATTN_PAGED (R297): m, l and o as FP32 codes. -/
structure AttnRow where
  m : Nat := 0xFF800000
  l : Nat := 0
  o : List Nat := []
  deriving DecidableEq, Repr, Inhabited

/-- A chain in flight (R279 to R308): its thread, its 64-byte block (one little-endian number), whether it has
started, its CHAIN_POS, whether an ABORT was requested, the egress control word and set it latched, the pages
read and the running rows of the current row group (ATTN_PAGED), the shares started (GATHER_GEMM: source × 2^16 +
row group), the local partial tiles converted and the row groups combined (REDUCE_GEMM), the status of the fault
that ended it, and the output tile converted but not yet landed. -/
structure ChainRec where
  thread : Nat
  raw : Nat
  started : Bool := false
  pos : Nat := 0
  abort : Bool := false
  latched : Option (Nat × PSet) := none
  page : Nat := 0
  rows : List AttnRow := []
  shares : List Nat := []
  partTiles : Nat := 0
  combined : List Nat := []
  ended : Option Nat := none
  /-- the output tile that is on its way to another die (R292); the bursts granted and not yet run: class and what
  the grant debited (R302) -/
  sip : Sip := {}
  leave : List (Nat × Nat) := []
  /-- free-value generation of an output that a command against R282 has made unpredictable; none for defined -/
  broken : Option Nat := none
  /-- free-value generation of what a write to the window's registers leaves (R261, R282) -/
  gen : Nat := 0
  /-- notify increments that wait for a place in the outbound queue (R170, R292) -/
  notes : Nat := 0
  deriving DecidableEq, Repr, Inhabited

/-- A station's work unit and engines: everything R188 gives a work unit, with the engines of its host. The values
are those after a cold reset and release (R157, R187, R256, R266). -/
structure Station where
  thr : Tab Thread := []
  /-- the thread that issued most recently (R159); 3 before any, so that thread 0 is considered first -/
  lastIssue : Nat := 3
  pipe : List InFlight := []
  ev : Tab Word := []
  outq : List Signal := []
  frozen : Bool := false
  /-- cycles the stuck condition has held, and the DEADLOCK_CYCLES in force when that count began (R183, R189) -/
  deadCnt : Nat := 0
  deadLim : Nat := 0
  /-- threads waiting for the trap context, oldest first (R176), and its private registers k0 to k3 -/
  trapQ : List Nat := []
  k : Tab Word := []
  parkReq : Bool := false
  pm : Tab Word := []
  pmErr : Tab Mark := []
  pmHeld : List (Nat × Word) := []
  chans : Tab Chan := []
  slots : Tab Slot := []
  slotSnap : Tab Slot := []
  slotPend : List (Nat × Nat × Nat) := []
  psets : Tab PSet := []
  /-- NF_CNT and SAT_CNT per NCU (0 ingress, 1 egress), and the increments of both NCUs since the last step boundary,
  which go on past the limit of a counter that sticks (R108) -/
  nf : Tab Nat := []
  sat : Tab Nat := []
  nfDue : Nat := 0
  satDue : Nat := 0
  /-- STEPCLOSE (R223): the thread whose close is handed off, and whether its step boundary has been made -/
  closing : Option (Nat × Bool) := none
  /-- the last holder of each NCU (R150): channels 0 to 3, chain sequencer 4 -/
  ncuLast : Tab Nat := []
  arrs : Tab Arr := []
  trf : List (Nat × BitVec 8) := []
  side : List (Nat × BitVec 8) := []
  trfErr : Tab Mark := []
  /-- rows of the TRF and sidecars that hold free values (R281, R261): key row, value generation and byte mask -/
  trfFree : Tab (Nat × Nat) := []
  masks : Tab (BitVec 64) := []
  vexec : Option VCmd := none
  vq : List VCmd := []
  chains : List ChainRec := []
  /-- chains that have completed, and whose completion event no thread has yet observed with EWAIT (R282) -/
  unseen : List ChainRec := []
  /-- breakpoints armed, and the threads that BRK reported to the debug port (R224) -/
  brkArmed : Bool := false
  brkHit : List Nat := []
  /-- the station is between the quiesce and the release of a station reset (R186) -/
  inReset : Bool := false
  /-- threads that a debug HALT parked (R503); the thread being single-stepped, and whether its instruction
  has issued (R504) -/
  haltWas : List Nat := []
  stepThread : Option Nat := none
  stepIssued : Bool := false
  /-- threads that a unit switch parked, to be resumed when the unit is resident again (R576) -/
  switchParked : List Nat := []
  deriving DecidableEq, Repr, Inhabited

end Sys2Proof.Machine
end

