-- ==== Sys2Proof/Machine/HubTypes.lean ====
section
/-! DEFINITION. Machine/HubTypes.lean: the records of the hub and the links (chapters 10, 11 and 15): flits and
hops, Extium Links, the Governor, the Timebase, the floats and the sump. -/

namespace Sys2Proof.Machine

/-- A flit (Table 10.2), its payload as it stands in bytes 8 to 251 without trailing zero padding. The CRC is a
function of the rest (R327). -/
structure Flit where
  /-- the model's own: the way of a flit that is bound for or comes from the paired package (0 neither, 1 outbound
  over this package's spokes, 2 inbound over them), which Table 10.2 leaves to the hubs (log entry 15) -/
  way : Nat := 0
  type : Nat := 0
  seq : Nat := 0
  ack : Nat := 0
  ackV : Bool := false
  srcDie : Nat := 0
  dstDie : Nat := 0
  hub : Bool := false
  /-- the model's own: where the scale bytes of a chain's output tile go, as runs of address and length, which Table 10.4
  has no field for (log entry 16); empty for the one run that SPL names -/
  runs : List (Nat × Nat) := []
  payload : List Byte := []
  deriving DecidableEq, Repr, Inhabited

/-- One direction of one hop (R328 to R330). `sendq` holds sequenced flits that have not left, `unacked` those
sent and unacknowledged, each with its replays, `wire` what is on its way, `expect`/`lastAcc`/`nak` the receiver:
the number it expects, the last it accepted, and the NAK sent for the expected one; `ackDue` that it has
accepted a flit no ACK has been sent for. `replays` counts replays since training (the LINK_DOWN context). `nak` is the
device time at the last NAK for the number expected (R329). -/
structure Hop where
  nextSeq : Nat := 0
  sendq : List Flit := []
  unacked : List (Flit × Nat) := []
  wire : List Flit := []
  expect : Nat := 0
  lastAcc : Option Nat := none
  nak : Option Nat := none
  ackDue : Bool := false
  replays : Nat := 0
  /-- the flits of a tile that has begun to arrive at the end of its route (R317) -/
  part : List Flit := []
  /-- the logical station whose tile took the direction last (R312) -/
  turn : Nat := 127
  deriving DecidableEq, Repr, Inhabited

/-- What has arrived at a compute die at the end of its route and waits to take effect (R317, R318, R322). -/
inductive ArrKind
  | tile (t : Tile)
  | signal (unit ev : Nat)
  | landed (unit req status : Nat)
  deriving DecidableEq, Repr

/-- An arrival: the hop it came in on (100 + die for the die's own mesh), the group die index of its source, the die
it arrived at, whether it came from the paired package, and what it is. -/
structure Arrival where
  xp : Bool := false
  hop : Nat
  src : Nat
  die : Nat
  what : ArrKind
  deriving DecidableEq, Repr

/-- States of an Extium Link (Table 10.5). -/
inductive ExtSt
  | disabled | detect | equalize | align | pair | up | down
  deriving DecidableEq, Repr, Inhabited

/-- One Extium Link: its state, last down reason (Table 10.6), whether a link event of it is still in progress (R339:
a link that goes down during its retraining is part of the same event), and the station maps its peer sent (R335). -/
structure ExtLink where
  st : ExtSt := .disabled
  reason : Nat := 0
  event : Bool := false
  peer : Option (List Nat) := none
  deriving DecidableEq, Repr, Inhabited

/-- What a leave request is for (R350, Table 11.4). -/
inductive Purpose
  /-- joined MSHIFT and MPASS commands of a station -/
  | array
  /-- joined vector commands -/
  | vector
  /-- a pump span: channel and source bytes -/
  | span (ch bytes : Nat)
  /-- a siphon tile of a pump channel -/
  | pumpTile (ch : Nat)
  /-- a burst of a thread's chain, of the request's class -/
  | chain (thread : Nat)
  /-- a siphon tile of a thread's chain -/
  | chainTile (thread : Nat)
  /-- a hub well access; the bits name the stacks its addresses reach, and how many bytes it covers -/
  | hub (mask bytes : Nat)
  deriving DecidableEq, Repr

/-- A leave request in its class queue (R350 to R355): class (Table 11.1 order: 0 ARRAY, 1 VECTOR, 2 WELL,
3 SIPHON, 4 LINK), requester (a logical station, or 128 for the hub), the work unit and purpose, its cost as units
of the cost-table entries (Table 11.1: key entry), the commands joined to it, the cycle in which it was placed (R353), the
window boundaries it has waited through, whether the window began with it at the head of its queue (R355), and when it
became starved. -/
structure LReq where
  id : Nat
  cls : Nat
  requester : Nat
  unit : Nat
  what : Purpose
  units : Tab Nat
  joined : Nat := 1
  placed : Nat := 0
  waited : Nat := 0
  lead : Bool := false
  starved : Option Nat := none
  deriving DecidableEq, Repr

/-- Power states (Table 11.6). -/
inductive PState
  | p0 | p1 | p2 | p3 | p4
  deriving DecidableEq, Repr, Inhabited

/-- The Power Governor and the power-state machine (R343 to R373), as after a cold reset. Energies are in units of
2^−16 µJ. -/
structure Gov where
  window : Nat := 0
  budget : Nat := 0
  /-- the grantable budget of the window with no debt (R355) -/
  budgetNoDebt : Nat := 0
  spent : Nat := 0
  debt : Nat := 0
  /-- MAINT allowance used in this window (R358), and the amount beyond it -/
  maint : Nat := 0
  reqs : List LReq := []
  nextId : Nat := 0
  /-- granted WELL leave that the hub has in hand, in bytes (R350) -/
  hubLeave : Nat := 0
  lastClass : Nat := 4
  /-- the requester last granted, per class (R353) -/
  lastReq : Tab Nat := []
  /-- whether a grant has been made in the window (R355) -/
  granted : Bool := false
  /-- a request waited for budget in this window (LEAVE_WAIT_CNT) -/
  waiting : Bool := false
  band : Nat := 0
  /-- temperature T and f_therm (in 2^−16) latched at the window's start (R362) -/
  tMax : Nat := 0
  fTherm : Nat := 65536
  thermStop : Bool := false
  /-- stacks stopped at 95 °C (R365) and stacks at 85 °C (doubled refresh) -/
  stackStop : List Nat := []
  stackHot : List Nat := []
  /-- droop sources asserted (0 the pin, 1 to 5 the detectors of the dies and hub), the stretch, and whether
  grants wait for the window boundary after it (R360, R361) -/
  droopSrc : List Nat := []
  stretch : Bool := false
  droopWait : Bool := false
  ps : PState := .p0
  /-- the column of the cost table that budgets this window (R369) -/
  psWindow : PState := .p0
  busy : Option PState := none
  /-- TARGET was written during a transition, and takes effect when that ends (R368) -/
  again : Bool := false
  autoIdle : Bool := false
  thermTrip : Bool := false
  /-- debits plus BASE of the last 1,000 windows, newest first, and their total since cold reset -/
  history : List Nat := []
  energy : Nat := 0
  /-- sensors: readings in units of 0.25 °C; compute die d sensor i at 8d + i, hub sensors 32 and 33; stacks -/
  sensors : Tab Nat := []
  stackCount : Tab Nat := []
  deriving DecidableEq, Repr, Inhabited

/-- Servo states (Table 15.1). -/
inductive Servo
  | free | locking | locked | holdover
  deriving DecidableEq, Repr, Inhabited

/-- The Timebase (R464 to R470) as after a cold reset. `time` is in units of 2^−16 ns; `rho` is ρ × 2^48. -/
structure TimeB where
  time : Nat := 0
  /-- the part of a tick below 2^−16 ns, in units of 2^−48 × 2^−16 ns -/
  sub : Nat := 0
  rho : Int := 0
  servo : Servo := .free
  /-- measurements since the last transition; consecutive measurements within the lock window -/
  count : Nat := 0
  good : Nat := 0
  /-- θ of the last measurement that was slewed, in units of 2^−16 ns (R467) -/
  offset : Int := 0
  /-- a step is due at the next measurement (R467) -/
  stepDue : Bool := false
  /-- whether TIME_TOD holds the time of the next PPS edge (R466), the expected next edge once one was given, and the
  device time (ns) at the last edge -/
  todArmed : Bool := false
  ppsNext : Option Nat := none
  ppsLast : Option Nat := none
  deriving DecidableEq, Repr, Inhabited

/-- A float (R471 to R475), and the copy latched by reading FLOAT_OP (R472). -/
structure Float8 where
  op : Nat := 0
  st : Nat := 0
  result : Nat := 0
  seq : Nat := 0
  pos : Nat := 0
  fin : Nat := 0
  pct : Nat := 0
  deriving DecidableEq, Repr, Inhabited

/-- A record on its way into the sump (R476): source kind and index, code and context bytes. -/
structure RecIn where
  kind : Nat
  index : Nat
  code : Nat
  ctx : List Byte := []
  deriving DecidableEq, Repr, Inhabited

/-- A sump record (Table 15.6). -/
structure Rec where
  time : Nat := 0
  kind : Nat := 0
  index : Nat := 0
  code : Nat := 0
  seq : Nat := 0
  ctx : List Byte := []
  deriving DecidableEq, Repr, Inhabited

/-- The sump (R476 to R482): its slots, the intake queue, and the record latched by SUMP_REC[0]. -/
structure Sump where
  slots : Tab Rec := []
  intake : List RecIn := []
  latched : Rec := {}
  deriving DecidableEq, Repr, Inhabited

/-- An entry of the MSI-X table (R375, R382): address, data and mask bit. -/
structure MsixEntry where
  addrLo : Nat := 0
  addrHi : Nat := 0
  data : Nat := 0
  masked : Bool := true
  deriving DecidableEq, Repr, Inhabited

/-- The function's configuration space, as far as the manual names it (R374, R375, R382; log entry 65): MSI-X enable and
function mask, Bus Master Enable, the MSI-X table and its pending bits, the codes of Max_Payload_Size and
Max_Read_Request_Size (128 bytes doubled that often), the 10-bit tag enable, and the status, mask and severity words of
AER (uncorrectable errors, then correctable ones). -/
structure Msix where
  en : Bool := false
  fmask : Bool := false
  busMaster : Bool := false
  table : Tab MsixEntry := []
  pend : Nat := 0
  maxPay : Nat := 0
  maxRead : Nat := 2
  tag10 : Bool := false
  aerUe : Nat := 0
  aerUeMask : Nat := 0
  aerUeSev : Nat := 0x462030
  aerCe : Nat := 0
  aerCeMask : Nat := 0x2000
  deriving DecidableEq, Repr, Inhabited

end Sys2Proof.Machine
end

