-- ==== Sys2Proof/Machine/HostTypes.lean ====
section
/-! DEFINITION. Machine/HostTypes.lean: the records of queue pairs, sessions, the Session Dispatcher, the Text Engine
and the loaded image (chapters 12, 13 and 14). -/

namespace Sys2Proof.Machine

/-- A completion entry that waits to be written (R381, R387): its queue pair, session, TYPE and DATA. -/
structure CqItem where
  qp : Nat
  sid : Nat
  type : Nat
  data : List Byte
  deriving DecidableEq, Repr

/-- A queue pair (Table 12.3, R379 to R383). `sqB` to `cqL` are the bases and sizes latched at the last enable;
`tail` is SQ_TAIL; `reserved` counts the DONE entries reserved for fetched frames; `badHead` is set while an invalid
CQ_HEAD stands; `waiting` lists the DONE entries held back by it; `since` counts the entries written since the last
message, `oldest` the TIME_NS of the oldest of them; `ending` is set between the disable and STATE DISABLED. -/
structure QPair where
  sqBase : Nat := 0
  cqBase : Nat := 0
  enable : Bool := false
  sqLog2 : Nat := 8
  cqLog2 : Nat := 8
  vector : Nat := 0
  coalCount : Nat := 1
  coalUs : Nat := 0
  st : Nat := 0
  errCause : Nat := 0
  sqHead : Nat := 0
  cqTail : Nat := 0
  sqB : Nat := 0
  cqB : Nat := 0
  sqL : Nat := 8
  cqL : Nat := 8
  tail : Nat := 0
  cqHead : Nat := 0
  phase : Bool := true
  reserved : Nat := 0
  badHead : Bool := false
  waiting : List CqItem := []
  since : Nat := 0
  oldest : Nat := 0
  ending : Bool := false
  deriving DecidableEq, Repr, Inhabited

/-- A fetched submission entry (Table 12.4): bytes 20 to 63 stand in `body`, `no` is its place in the order of
fetching. -/
structure Frame where
  qp : Nat
  sid : Nat
  type : Nat
  flags : Nat
  tag : Nat
  addr : Nat
  len : Nat
  body : List Byte
  no : Nat
  deriving DecidableEq, Repr

/-- A GENERATE in progress (R395): its frame, limit, OUT, tokens generated, standpipe, and bytes discarded. -/
structure Gen where
  frame : Frame
  maxNew : Nat
  outTok : Bool
  count : Nat := 0
  pipe : List Byte := []
  disc : Nat := 0
  deriving DecidableEq, Repr

/-- A session, and the frames of its SID (R390 to R399). `tokens` holds positions 0 to L − 1, `comp` is C, `pages`
lists for each KV page the group dies and page indices that hold it; `pend` the in-order frames, the one in progress
first; `urgent` the fetched CANCEL, CLOSE and QUERY frames that have not acted; `armed` the CANCELs waiting for the
step boundary; `outq` the entries to be written, oldest first; `ready` its place among sessions waiting for a row;
`row` its decode row. `inc` tells apart the sessions that have used the SID. -/
structure Sess where
  inc : Nat := 0
  isOpen : Bool := false
  /-- closed, with entries still to be written: the SID is not free yet (R397) -/
  closing : Bool := false
  faulted : Bool := false
  qp : Nat := 0
  seed : Nat := 0
  temp : Nat := 0x3F800000
  topP : Nat := 0x3F800000
  topK : Nat := 0
  maxNew : Nat := 0
  truncHead : Nat := 0
  truncLimit : Nat := 65536
  maskEn : Nat := 0
  masks : Tab (List Byte) := []
  stops : List (List Byte) := []
  tokens : List Nat := []
  comp : Nat := 0
  pages : List (List (Nat × Nat)) := []
  pend : List Frame := []
  urgent : List Frame := []
  armed : List Frame := []
  gen : Option Gen := none
  /-- an append waits for or holds a pipe -/
  busy : Bool := false
  outq : List CqItem := []
  ready : Option Nat := none
  row : Option Nat := none
  deriving DecidableEq, Repr, Inhabited

/-- A row of a model step (Table 14.11): its number, session and incarnation, kind (1 PREFILL, 2 DECODE), whether it is
skipped, position and token. -/
structure RowRec where
  row : Nat
  sid : Nat
  inc : Nat
  kind : Nat
  skipped : Bool
  pos : Nat
  tok : Nat
  deriving DecidableEq, Repr, Inhabited

/-- The model step in progress (R461): its number, rows, the DONE_EVT of each work unit when it started, and whether it
runs for the primary of a pair (R411). -/
structure StepRec where
  no : Nat
  rows : List RowRec
  base : Tab Word
  secondary : Bool := false
  deriving DecidableEq, Repr, Inhabited

/-- Priming (R462, R463): what it follows. -/
inductive PrimeOf
  | load | p3 | fault | reset
  deriving DecidableEq, Repr, Inhabited

/-- Priming: none; due once the stations are released; running, with the DONE_EVT values it counts from. -/
inductive Prime
  | none
  | due (what : PrimeOf)
  | running (what : PrimeOf)
  deriving DecidableEq, Repr, Inhabited

/-- The Session Dispatcher: the step in progress, its decode-row and prefill figures, the session that prefilled last,
the numbers it hands out, priming with the failures in a row, and whether a cause of R409 has been reported since the
step or priming began. -/
structure Disp where
  step : Option StepRec := none
  lastPrefill : Option Nat := none
  nextReady : Nat := 0
  nextFetch : Nat := 0
  nextInc : Nat := 1
  prime : Prime := .none
  primeFails : Nat := 0
  faultSeen : Bool := false
  deriving DecidableEq, Repr, Inhabited

/-- An append that holds or waits for a pipe of the Text Engine (R414): its frame, text, spans, and bytes cut. -/
structure TextJob where
  frame : Frame
  text : List Byte
  spans : List (Nat × Nat)
  cut : Nat
  deriving DecidableEq, Repr

/-- The Text Engine (R414 to R419): Text SRAM, the errors of its 64-bit words, whether the tables of an image are
loaded, the words whose rewrite is due, the copy of the tokenizer section in the well system area, the two pipes, and
the appends waiting for one. -/
structure TextE where
  sram : List (Nat × BitVec 8) := []
  err : Tab Mark := []
  loaded : Bool := false
  repair : List Nat := []
  copy : List Byte := []
  pipes : Tab TextJob := []
  wait : List TextJob := []
  deriving DecidableEq, Repr, Inhabited

/-- A program blob's use by a work unit (R447): the blob and the four entry PCs. -/
structure ProgRec where
  blob : Nat := 0
  pcs : List Nat := []
  deriving DecidableEq, Repr, Inhabited

/-- The initial state of a work unit (R448): 16 sets of 11 values, and 64 slots of FMT, ZP, HLEN, HR and E. -/
structure InitRec where
  psets : List (List Nat) := []
  slots : List (List Nat) := []
  deriving DecidableEq, Repr, Inhabited

/-- The loaded image, as the Supervisor holds it (chapter 14): header and CONTEXT fields, SCHEDULE, programs, initial
state, the figures of the fit check, the layer modes, and the content key. -/
structure Image where
  id : List Byte := []
  dies : Nat := 0
  cls : Nat := 0
  vocab : Nat := 0
  ctxMax : Nat := 0
  kvTok : Nat := 0
  split : Bool := false
  sampleBase : Nat := 0
  ends : List Nat := []
  minPages : Nat := 0
  sessWant : Nat := 0
  pagesPerSess : Nat := 0
  vshard : Nat := 0
  foot : List Nat := []
  entries : List (Nat × Nat) := []
  workBytes : Nat := 0
  stepBase : Nat := 0
  ptBase : Nat := 0
  maskBase : Nat := 0
  modeBase : Nat := 0
  stepEvt : Nat := 0
  doneEvt : Nat := 0
  blobs : List (List Nat) := []
  progs : List ProgRec := []
  inits : List InitRec := []
  initMap : List Nat := []
  /-- pages of each die of this package, and the first pair offset of its pool -/
  pages : List Nat := []
  base : List Nat := []
  modes : List Nat := []
  key : List Byte := []
  deriving DecidableEq, Repr, Inhabited

/-- What the Supervisor keeps of the loading and pairing of images: the image, the pages in use of each group die, the
peer's state over Extium link 0 (R454) and its pages per die, and the scale slots saved at P3 entry (R370, R371). -/
structure Loader where
  image : Option Image := none
  used : Tab (List Nat) := []
  peer : Option (List Byte) := none
  peerPages : List Nat := []
  savedSlots : Tab (Tab Slot) := []
  deriving DecidableEq, Repr, Inhabited

end Sys2Proof.Machine
end

