-- ==== Sys2Proof/Machine/SecTypes.lean ====
section
/-! DEFINITION. Machine/SecTypes.lean: the records of security, debug, JTAG, the Control Port window, boot, telemetry
and the pins (chapters 15 to 20). -/

namespace Sys2Proof.Machine

/-- The fuses (R489, R491, R492, R495): how many of the three of OPEN, SEALED and RETIRED are blown, the owner key and
its kill fuse, the signing keys by slot with the revoke fuses, the SVN count, and the device unique secret. -/
structure Fuses where
  openF : Nat := 0
  sealedF : Nat := 0
  retiredF : Nat := 0
  ownerKey : Option (List Byte) := none
  /-- the SHA-384 check of the owner key (R491) -/
  ownerCheck : List Byte := []
  killed : Bool := false
  slots : Tab (List Byte) := []
  revoked : Nat := 0
  svn : Nat := 0
  dus : List Byte := []
  deriving DecidableEq, Repr, Inhabited

/-- An open challenge (R506, R507): its 64 bytes and the level it asks for (7 for RETIRE). -/
structure Chal where
  bytes : List Byte
  level : Nat
  /-- TIME_NS at its issue, from which the seconds left are counted (log entry 42) -/
  start : Nat := 0
  deriving DecidableEq, Repr

/-- A zeroize (R498 to R500): kind (1 MODEL, 2 FULL), cause (0 SEC_ZEROIZE, 1 unlock, 2 retire), result so far (0xFD
once restarted after a reset). -/
structure Zero where
  kind : Nat
  cause : Nat
  result : Nat := 0
  /-- steps 1 and 2 of R499 have been taken -/
  begun : Bool := false
  deriving DecidableEq, Repr

/-- An unlock that waits for its zeroize (R508): level, key slot (0xFF for plain), UNLOCK_CNT, and whether it came over
JTAG. -/
structure Unlock where
  level : Nat
  slot : Nat
  cnt : Nat
  jtag : Bool
  deriving DecidableEq, Repr

/-- The Security Block: lifecycle in force, identity, staged tables, entropy source and DRBG, lifecycle transition,
zeroize, and unlock. -/
structure Sec where
  lifecycle : Nat := 0
  /-- the identity key of this boot (R493): private and public key, 16 bytes of DEVICE_ID -/
  idKey : List Byte := []
  idPub : List Byte := []
  devId : List Byte := []
  /-- tables SEC_OWNER_KEY, SEC_SLOT_PROG, SEC_ATTEST and DBG_RESP as bytes written to them -/
  ownerStage : List (Nat × BitVec 8) := []
  slotStage : List (Nat × BitVec 8) := []
  attest : List (Nat × BitVec 8) := []
  resp : List (Nat × BitVec 8) := []
  entOk : Bool := false
  /-- requests of the DRBG since it last reseeded (R497) -/
  drbg : Nat := 0
  /-- attestations and challenges that wait for a reseed: a challenge level, or none for an attestation -/
  waits : List (Option (Nat × Bool)) := []
  /-- the target of the lifecycle transition in progress, and the RETIRE request and response of R490 -/
  lcTo : Option Nat := none
  /-- how far the fuse work on the owner key has come in the transition in progress: 0, its key blown, its check too -/
  keyStep : Nat := 0
  retireAsked : Bool := false
  retireOk : Bool := false
  zero : Option Zero := none
  zpend : Option Zero := none
  /-- the content key was zeroized since the image was loaded (Table 16.5) -/
  keyGone : Bool := false
  chal : Option Chal := none
  unlockCnt : Nat := 0
  fails : Nat := 0
  unlock : Option Unlock := none
  /-- whether the open challenge was asked for over JTAG -/
  chalJtag : Bool := false
  deriving DecidableEq, Repr, Inhabited

/-- The TAP (R510, R511): the instruction selected, the scan state, and the boundary register's last preload. -/
structure Tap where
  ir : Nat := 0x01
  scan : Bool := false
  boundary : List Byte := []
  deriving DecidableEq, Repr, Inhabited

/-- A path's copy of the indirect window (R531, R532, R534): table, station, index, status, and the latched units by
number (0 the TELEM snapshot, 1 + 64 × station + slot a SLOTS record). -/
structure Win where
  table : Nat := 0
  station : Nat := 0
  index : Nat := 0
  ignored : Bool := false
  wrapped : Bool := false
  latched : Tab (List Nat) := []
  deriving DecidableEq, Repr, Inhabited

/-- Boot and resets (chapter 19): whether the register map is ready, the firmware waiting at FW_AUTH (its source: 1
flash copy A, 2 flash copy B, 3 upload), the bytes of FW_STAGE, whether this boot follows a control reset, and resets
that wait (a control reset behind a lifecycle transition, station resets behind a P3 exit). -/
structure Boot where
  mapReady : Bool := false
  fw : Option (Nat × List Byte) := none
  /-- copy A has failed in this boot, so that stage FLASH reads copy B -/
  tryB : Bool := false
  stage : List (Nat × BitVec 8) := []
  ctrlBoot : Bool := false
  ctrlWait : Bool := false
  /-- a control reset is at its step 2: the stations are being reset -/
  ctrlRun : Bool := false
  /-- a warm or function level reset whose station resets wait for the exit from P3 (R562) -/
  stnWait : Bool := false
  /-- power was lost during the fuse work of a FULL zeroize, which the next boot finishes (R500) -/
  fullZero : Bool := false
  deriving DecidableEq, Repr, Inhabited

/-- Pins and rails (chapter 20): PWR_OK, PERST_N low, VDD_IO valid, whether REFCLK was lost, the VID code and its
target, and the bytes CP_MISO has carried. -/
structure Pins where
  pwrOk : Bool := false
  perstLow : Bool := true
  vddIo : Bool := false
  refLost : Bool := false
  vid : Nat := 30
  vidTo : Nat := 30
  miso : List Byte := []
  deriving DecidableEq, Repr, Inhabited

/-- The telemetry snapshots (R486, R487): two buffers, and which holds the newest complete one. -/
structure Telem where
  bufs : Tab (List Nat) := []
  newest : Nat := 0
  deriving DecidableEq, Repr, Inhabited

/-- The debug command in progress (R502 to R504): its OP, work unit and thread. -/
structure DbgRun where
  op : Nat
  unit : Nat
  thread : Nat
  deriving DecidableEq, Repr

/-- The debug command interface and its operation registers live in the register map; this is the operation that has
not ended. -/
structure Dbg where
  run : Option DbgRun := none
  deriving DecidableEq, Repr, Inhabited

end Sys2Proof.Machine
end

