-- ==== Sys2Proof/Machine/State.lean ====
section
/-! DEFINITION. Machine/State.lean: the state of the part, its reasons to stop, and the state after reset. -/

namespace Sys2Proof.Machine

/-- Why a step stops with a fault. -/
inductive Fault
  /-- Raised by a meaning whose operand names something the part does not have (a station, thread, link, register
  word or queue pair beyond the part's), or carries bytes no sender can send. Safe: no state is reached that the part
  could not reach. -/
  | badOperand
  deriving DecidableEq, Repr

/-- Why a step is refused. -/
inductive Refusal
  /-- Raised only by Dispatch.lean, for a command that has no meaning yet. Safe. -/
  | notModelled (mnemonic : String)
  deriving DecidableEq, Repr

/-- What the part is, fixed at manufacture and not touched by any reset: variant (R3; 0 T4, 1 T4N, 2 T2), stepping
(R4; 0 A0, 1 A1, 2 B0), and per die the mask of stations that are not fused off. -/
structure Part where
  variant : Nat := 0
  stepping : Nat := 2
  fuseEn : Tab Nat := []
  deriving DecidableEq, Repr, Inhabited

/-- Something the part sends to its host (R381, R382). -/
inductive OutMsg
  /-- a posted write to host memory -/
  | write (addr : Nat) (bytes : List Byte)
  /-- an MSI-X message: address and data -/
  | msi (addr data : Nat)
  /-- a flit that leaves on an Extium Link -/
  | flit (link : Nat) (bytes : List Byte)
  /-- what a package's Dispatcher sends the other's over Extium link 0 (R411): the manual gives it no layout -/
  | peer (what : String) (body : List Nat)
  /-- the value a read returns (R375): its path, its address there, and the value -/
  | value (path addr v : Nat)
  /-- an access that completes as an Unsupported Request (R375): its path and offset -/
  | unsupported (path addr : Nat)
  /-- the bits that the TAP shifts out of the selected data register on TDO: how many, and their value (R510) -/
  | tdo (n v : Nat)
  deriving DecidableEq, Repr

/-- The state. -/
structure State where
  part : Part
  /-- CCLK cycles since the last cold reset (R225) -/
  cyc : Nat
  /-- the model's own: how many free values have been taken -/
  free : Nat
  /-- stored words of the register map (chapter 18), by word address -/
  regs : Tab Word
  /-- latches of multi-word reads (R25), by word address of the word they serve -/
  latch : Tab Word
  /-- work units (R188), by work-unit number -/
  stns : Tab Station
  /-- the resident work unit of each logical station that hosts two (R576) -/
  resident : Tab Nat
  /-- remote signals held for work units that are not resident (R188) -/
  heldSig : List Signal
  /-- cistern bytes by global address (R111), their word errors, words whose correction waits to be written back
  (R114), and the known-bad tables (R145) -/
  cist : List Host.Cell
  cistErr : Tab Mark
  cistWb : List Nat
  cistBad : List Nat
  /-- well bytes by well address (R117), beat errors by address / 32, a beat whose re-reads are due (R121), and
  the known-bad tables -/
  well : List Host.Cell
  wellErr : Tab BeatMark
  reread : Option (Nat × Nat × Nat)
  wellBad : List Nat
  /-- the model's own: the ROWBLK that encoded each RB8 plane entry an NCU has written (R91), plus 1, by the entry's
  `entryKey`; 0 where the model does not know it (log entry 28) -/
  rbLen : Tab Nat
  /-- patrol scrub: lines read of every slice, beats read of every stack (R153) -/
  scrubCist : Nat
  scrubWell : Nat
  /-- die links and Extium directions (by hop number), UP bits of the die links, Extium Links, pairing -/
  hops : Tab Hop
  /-- tiles, signals and LANDED flits at the end of their route -/
  arrivals : List Arrival
  dieUp : Nat
  ext : Tab ExtLink
  /-- credits a die of this package has taken of a destination die (R319), and the station that took one last: key 8 ×
  source + destination, where a die of the paired package is 4 + its number -/
  credits : Tab Nat
  credTurn : Tab Nat
  gov : Gov
  time : TimeB
  floats : Tab Float8
  floatLatch : Tab Float8
  sump : Sump
  msix : Msix
  /-- whether both Extium Links are UP after a successful PAIR check, or the pairing is held (R336, R341); the peer's
  station masks per die, as exchanged in training (R335) -/
  paired : Bool
  held : Bool
  /-- the ROLE in force since the last training began (R342), the links of the LINK_TRAIN operation in progress as a
  mask (R475), and tiles still outstanding whose requester has gone: unit, requester, destination die as in `credits` (R142, R316) -/
  roleNow : Bool
  trainLinks : Nat
  orphans : List (Nat × Nat × Nat)
  peerEn : Tab Nat
  /-- queue pairs, sessions by SID, the Dispatcher, the Text Engine and the loaded image -/
  qps : Tab QPair
  sess : Tab Sess
  disp : Disp
  text : TextE
  ldr : Loader
  /-- fuses, Security Block, debug, TAP, the window copies of the Control Port (0) and BAR0 (1), boot, pins, telemetry -/
  fuses : Fuses
  sec : Sec
  dbg : Dbg
  tap : Tap
  wins : Tab Win
  boot : Boot
  pins : Pins
  telem : Telem
  out : List OutMsg
  pending : List Instr
  deriving DecidableEq, Repr

/-- The registers whose reset value is not 0 (Tables 03.10, 04.8, 05.7, 11.8, 12.12, 14.7, 15.3, 15.12), and the station
masks that the fuses give (R556). -/
def coldRegs (fuseEn : Tab Nat) : Tab Word :=
  [(0x048, 1), (0x082, 280), (0x089, 2), (0x093, 95), (0x0C7, 100), (0x0C8, 10), (0x140, 1), (0x147, 200), (0x180, 200),
   (0x201, 16), (0x241, 0x31FE), (0x243, 100), (0x245, 65536)] ++
  (fuseEn.filter (fun p => p.2 % 2 ^ 32 != 0)).map (fun p => (Reg.mapDieEn + p.1, BitVec.ofNat 32 p.2))

/-- A T4 of stepping B0 with every station (log entry 1). -/
def fullPart : Part := { fuseEn := [(0, 0xFFFFFFFF), (1, 0xFFFFFFFF), (2, 0xFFFFFFFF), (3, 0xFFFFFFFF)] }

/-- A BLANK part: the slots programmed at manufacture hold keys (Table 16.4) whose values are the model's (log entry 1). -/
def blankFuses : Fuses :=
  { slots := [(0, List.replicate 96 0), (5, List.replicate 96 0)], dus := List.replicate 32 0 }

/-- A part in the cycle after a cold reset (R22, R561): PWR_OK has risen, and stage ROM has not run. -/
def coldState (part : Part) (fuses : Fuses) : State :=
  { part := part, cyc := 0, free := 0, regs := coldRegs part.fuseEn, latch := [], stns := [], resident := [], heldSig := [],
    cist := [], cistErr := [], cistWb := [], cistBad := [], well := [], wellErr := [], reread := none, wellBad := [], rbLen := [],
    scrubCist := 0, scrubWell := 0, hops := [], arrivals := [], dieUp := 0, ext := [], credits := [], credTurn := [], gov := {}, time := {},
    floats := [], floatLatch := [], sump := {}, msix := {}, paired := false, held := false, roleNow := false,
    trainLinks := 0, orphans := [], peerEn := [], qps := [], sess := [], disp := {}, text := {}, ldr := {}, fuses := fuses,
    sec := {}, dbg := {}, tap := {}, wins := [], boot := {},
    pins := { pwrOk := true, vddIo := true }, telem := {}, out := [], pending := [] }

/-- The machine right after reset. -/
def State.reset : State := coldState fullPart blankFuses

end Sys2Proof.Machine
end

