-- ==== Sys2Proof/Machine/Flags.lean ====
section
/-! DEFINITION. Machine/Flags.lean: stored registers and their counters, the event bits, the sump's intake, and the
messages the part sends (chapters 00, 15, and R382). -/

namespace Sys2Proof.Machine

/-- The stored word of a register. -/
def reg (s : State) (a : Nat) : Nat := (tabGet 0 s.regs a).toNat

/-- Stores a register's word. -/
def setReg (s : State) (a v : Nat) : State := { s with regs := tabSet 0 s.regs a (BitVec.ofNat 32 v) }

/-- Adds to a counter register that sticks at 2^32 − 1. -/
def addReg (s : State) (a n : Nat) : State := setReg s a (stick32 (reg s a) n)

/-- The 64-bit value of a pair of registers, and adding to it, wrapping at 2^64 (log entry 27). -/
def reg64 (s : State) (lo : Nat) : Nat := reg s lo + 2 ^ 32 * reg s (lo + 1)
def addReg64 (s : State) (lo n : Nat) : State :=
  let v := (reg64 s lo + n) % 2 ^ 64
  setReg (setReg s lo (v % 2 ^ 32)) (lo + 1) (v / 2 ^ 32)

/-- Whether bit `n` of a stored register is set. -/
def regBit (s : State) (a n : Nat) : Bool := (reg s a).testBit n

/-- Sets or clears bits [hi:lo] of a stored register. -/
def setField (s : State) (a hi lo v : Nat) : State :=
  let x := reg s a
  let m := 2 ^ (hi + 1 - lo)
  setReg s a (x - (x >>> lo) % m * 2 ^ lo + v % m * 2 ^ lo)

/-- The MSI-X table entry of a vector. -/
def msixEntry (s : State) (v : Nat) : MsixEntry := tabGet {} s.msix.table v

/-- Sends the MSI-X message of a vector under the PCIe MSI-X rules (R382): nothing while MSI-X is disabled; a masked
vector or function sets the vector's pending bit; otherwise the message is written, if the part may master the bus
(R383). In the scan state of R511 the PCIe link has stopped and nothing is sent. -/
def sendMsix (s : State) (v : Nat) : State :=
  let e := msixEntry s v
  if !s.msix.en then s
  else if s.msix.fmask || e.masked || !s.msix.busMaster || s.tap.scan then
    { s with msix := { s.msix with pend := s.msix.pend ||| 2 ^ v } }
  else { s with out := s.out ++ [.msi (e.addrLo + 2 ^ 32 * e.addrHi) e.data] }

/-- R484: the message of a rise of EVT_STATUS & EVT_MASK. -/
def evtRise (s : State) (old : Nat) : State :=
  let now := reg s Reg.evtStatus &&& reg s Reg.evtMask
  if now &&& (old ^^^ 0xFFFFFFFF) ≠ 0 ∧ regBit s Reg.evtCtl 0 then sendMsix s (bits (reg s Reg.evtCtl) 13 8) else s

/-- Sets a bit of EVT_STATUS (Table 15.11). -/
def setEvt (s : State) (b : Nat) : State :=
  let old := reg s Reg.evtStatus &&& reg s Reg.evtMask
  evtRise (setReg s Reg.evtStatus (reg s Reg.evtStatus ||| 2 ^ b)) old

/-- CP_ALERT_N asserted (R484, R530): the value of EVT_STATUS & EVT_MASK is not zero. -/
def alertAsserted (s : State) : Bool := (reg s Reg.evtStatus &&& reg s Reg.evtMask) != 0

/-- A record arrives at the sump's intake (R476): dropped and counted when the queue holds 16. -/
def pushRec (s : State) (r : RecIn) : State :=
  if 16 ≤ s.sump.intake.length then addReg s Reg.sumpDrop 1
  else { s with sump := { s.sump with intake := s.sump.intake ++ [r] } }

/-- R409: a cause that faults a model step or a priming is reported. -/
def noteFault (s : State) : State := { s with disp := { s.disp with faultSeen := true } }

/-- Takes the next free value: the generation number and the state that has used it. -/
def takeFree (s : State) : Nat × State := (s.free, { s with free := s.free + 1 })

/-- The float `n`, and its update. -/
def getFloat (s : State) (n : Nat) : Float8 := tabGet {} s.floats n
def putFloat (s : State) (n : Nat) (f : Float8) : State := { s with floats := tabPut s.floats n f }

/-- R473 step 3: an operation ends, DONE (result 0) or FAILED with a result, and FLOAT_DONE is set. -/
def floatEnd (s : State) (n : Nat) (ok : Bool) (res : Nat) : State :=
  let f := getFloat s n
  if f.st ≠ 1 then s
  else
    let f' := if ok then { f with st := 2, result := res, pos := f.fin, pct := 10000 }
      else { f with st := 3, result := res }
    setEvt (putFloat s n f') 9

/-- R473 step 1: an operation starts; one still running first ends FAILED with SUPERSEDED. -/
def floatStart (s : State) (n op fin : Nat) : State :=
  let s := if (getFloat s n).st = 1 then floatEnd s n false 0xFE else s
  let f := getFloat s n
  putFloat s n { op := op, st := 1, result := 0, seq := (f.seq + 1) % 256, pos := 0, fin := fin, pct := 0 }

/-- R473 step 2: progress to `pos`, which never falls; PCT is held at 9,999 while RUNNING, and at 0 while END is 0. -/
def floatPos (s : State) (n pos : Nat) : State :=
  let f := getFloat s n
  if f.st ≠ 1 then s
  else
    let p := max f.pos pos
    let pct := if f.fin = 0 then 0 else min 9999 (max f.pct (10000 * p / f.fin))
    putFloat s n { f with pos := p, pct := pct }

/-- R473: END changes once, upward. -/
def floatFin (s : State) (n fin : Nat) : State :=
  let f := getFloat s n
  if f.st = 1 ∧ f.fin < fin then putFloat s n { f with fin := fin } else s

/-- R453, R471: bytes that pumps bring into the cisterns while an image is primed are counted by float 3. -/
def primeBytes (s : State) (n : Nat) : State :=
  match s.disp.prime with
  | .running _ => floatPos s 3 (min (getFloat s 3).fin ((getFloat s 3).pos + n))
  | _ => s

end Sys2Proof.Machine
end

