-- ==== Sys2Proof/Machine/Ops.lean ====
section
/-! DEFINITION. Machine/Ops.lean: the part's map of units and stations, and every access to its memories: cistern,
well, tile registers and sidecars, with their error correction (chapters 04, 08, 18, 19). -/

namespace Sys2Proof.Machine

/-- A step of the part whose condition holds answers `t`. One whose condition does not hold is a step the spec does not
give the part there: it does not come about, and the part stays as it is (log entry 6). -/
def guard (s : State) (c : Bool) (t : State) : Host.Outcome State Fault Refusal :=
  if c then .next t else .next s

/-- An operand that names nothing the part has is the fault badOperand. -/
def withOperand (c : Bool) (o : Host.Outcome State Fault Refusal) : Host.Outcome State Fault Refusal :=
  if c then o else .fault .badOperand

/-- A step that answers a state where its condition holds, and otherwise does not come about (log entry 6). -/
def enabled (s : State) (o : Option State) : Host.Outcome State Fault Refusal :=
  match o with
  | some t => .next t
  | none => .next s

-- the part (Table 00.1)

def isT2 (s : State) : Bool := s.part.variant == 2
/-- The Text Engine is present on T4 and T4N, Extium Links on T4 only. -/
def hasText (s : State) : Bool := !isT2 s
def hasExt (s : State) : Bool := s.part.variant == 0
/-- Compute dies, well stacks, stations, VLANES, session and row limits. -/
def dies (s : State) : Nat := if isT2 s then 2 else 4
def stackCount (s : State) : Nat := 2 * dies s
def stationsTotal (s : State) : Nat := 32 * dies s
def vlanes (s : State) : Nat := if isT2 s then 128 else 256
def sessLimit (s : State) : Nat := if isT2 s then 2048 else 4096
def rowLimit (s : State) : Nat := if isT2 s then 256 else 512
/-- The dies of the tensor-parallel group and this package's role (R313). -/
def groupDies (s : State) : Nat := if s.paired then 8 else dies s
def role (s : State) : Nat := b2n s.roleNow
def groupDie (s : State) (d : Nat) : Nat := if s.paired then 4 * role s + d else d

-- work units and logical stations (R557, R573, R574)

/-- The number of bits set among the low `n`. -/
def popc : Nat → Nat → Nat
  | 0, _ => 0
  | n + 1, x => x % 2 + popc n (x / 2)

/-- Enabled stations of die `d`: the mask, its count, and the first logical station. -/
def dieMask (s : State) (d : Nat) : Nat := reg s (Reg.mapDieEn + d)
def dieCount (s : State) (d : Nat) : Nat := popc 32 (dieMask s d)
def dieFirst (s : State) : Nat → Nat
  | 0 => 0
  | d + 1 => dieFirst s d + dieCount s d
def stationsEnabled (s : State) : Nat := dieFirst s (dies s)

/-- The logical station that hosts work unit `w` of this package (R574), if any. -/
def hostOf (s : State) (w : Nat) : Option Nat :=
  let d := w / 32
  if d < dies s ∧ dieCount s d ≠ 0 then some (dieFirst s d + w % 32 % dieCount s d) else none

/-- Whether work unit `w` of the paired package has a host there (R321, R575). -/
def peerHosts (s : State) (w : Nat) : Bool := decide (w / 32 < 4) && tabGet 0 s.peerEn (w / 32) != 0

/-- The logical station of a unit, for host-facing interfaces (R575). -/
def lstn (s : State) (w : Nat) : Nat := (hostOf s w).getD 0

/-- The compute die of a logical station. -/
def dieOf (s : State) (ls : Nat) : Nat :=
  if ls < dieFirst s 1 then 0 else if ls < dieFirst s 2 then 1 else if ls < dieFirst s 3 then 2 else 3

/-- The unit resident on a logical station (R576): the lower of its two units unless a switch put the other on. -/
def residentUnit (s : State) (ls : Nat) : Nat :=
  let d := dieOf s ls
  32 * d + (ls - dieFirst s d) + (if tabGet 0 s.resident ls = 1 then dieCount s d else 0)

/-- Whether a unit is resident on its host. -/
def isResident (s : State) (w : Nat) : Bool :=
  match hostOf s w with
  | some ls => residentUnit s ls == w
  | none => false

-- stations and threads

def stn (s : State) (u : Nat) : Station := tabGet {} s.stns u
def setStn (s : State) (u : Nat) (x : Station) : State := { s with stns := tabPut s.stns u x }
def modStn (s : State) (u : Nat) (f : Station → Station) : State := setStn s u (f (stn s u))
def thr (x : Station) (t : Nat) : Thread := tabGet {} x.thr t
def setThr (x : Station) (t : Nat) (h : Thread) : Station := { x with thr := tabPut x.thr t h }
def modThr (x : Station) (t : Nat) (f : Thread → Thread) : Station := setThr x t (f (thr x t))

/-- R165: s0 reads as zero and ignores writes. -/
def sread (h : Thread) (r : Nat) : Word := if r = 0 then 0 else tabGet 0 h.regs r
def swrite (h : Thread) (r : Nat) (v : Word) : Thread := if r = 0 then h else { h with regs := tabSet 0 h.regs r v }

/-- Event counters (R169): 32 bits, wrapping. -/
def evGet (x : Station) (e : Nat) : Word := tabGet 0 x.ev e
def evSet (x : Station) (e : Nat) (v : Word) : Station := { x with ev := tabSet 0 x.ev e v }
def evAdd (x : Station) (e n : Nat) : Station := evSet x e (evGet x e + BitVec.ofNat 32 n)

/-- Increments a counter of a unit by a completion; while the station is being reset no completion counts (R186). -/
def evBump (s : State) (u e : Nat) : State :=
  modStn s u (fun x => if x.inReset then x else evAdd x e 1)

/-- The four threads. -/
def threads : List Nat := [0, 1, 2, 3]

/-- A thread trapped with a fatal cause (Table 05.3: 1 and 2 are transient). -/
def fatal (h : Thread) : Bool := h.st == .trapped && decide (3 ≤ h.cause)

/-- R504: a STEP ends with OK once its thread has parked or trapped. -/
def stepEnd (s : State) (u t : Nat) : State :=
  if (stn s u).stepThread = some t then
    modStn (setReg { s with dbg := { s.dbg with run := none } } Reg.dbgCmdStatus 0) u
      (fun x => { x with stepThread := none, stepIssued := false })
  else s

/-- R507: the open challenge is void: a response to it will end with EXPIRED, and so DBG_STATUS reads (log entry 42). -/
def voidChal (s : State) : State :=
  match s.sec.chal with
  | some _ => setField { s with sec := { s.sec with chal := none } } Reg.dbgStatus 3 0 6
  | none => s

-- cistern (R110 to R115, R144, R145)

/-- General storage is below the trap spill area (Table 04.1). -/
def spillBase : Nat := 0x4FC000
def cistEnd : Nat := 0x500000
/-- Global address of a unit's local address (R111). -/
def gaddr (u a : Nat) : Nat := u * 2 ^ 23 + a
/-- Whether `[a, a+n)` lies in general storage. -/
def inGeneral (a n : Nat) : Bool := decide (a + n ≤ spillBase)

/-- R145: an uncorrectable cistern word is counted, and recorded at its first detection (or always, once the slice's
table is full). `acc` is the access code of Table 15.8. -/
def cistUeReport (s : State) (w acc : Nat) : State :=
  let s := addReg (if acc = 4 then s else noteFault s) Reg.cistUe 1
  if s.cistBad.contains w then s
  else
    let unit := w / 2 ^ 20
    let n := (s.cistBad.filter (fun x => x / 2 ^ 20 == unit)).length
    let s := if n < 16 then { s with cistBad := s.cistBad ++ [w] } else s
    pushRec s ⟨2, lstn s unit, 1, leBytes 4 (w % 2 ^ 20 * 8) ++ leBytes 1 acc⟩

/-- Checks the words of a read, oldest first, stopping at an uncorrectable one. A single-bit error is corrected in
flight, counted, and its write-back falls due (R114). -/
def cistCheck (s : State) (acc : Nat) : List Nat → State × Bool
  | [] => (s, true)
  | w :: t =>
    match s.cistErr.find? (fun p => p.1 == w) with
    | none => cistCheck s acc t
    | some (_, .single) =>
      let s := addReg s Reg.cistCe 1
      cistCheck { s with cistWb := if s.cistWb.contains w then s.cistWb else s.cistWb ++ [w] } acc t
    | some (_, .bad _) => (cistUeReport s w acc, false)

/-- The word numbers that `[a, a+n)` touches. -/
def wordsOf (size a n : Nat) : List Nat :=
  if n = 0 then [] else (List.range ((a + n - 1) / size + 1 - a / size)).map (· + a / size)

/-- The marked words among those of `[a, a+n)`. -/
def marked {α : Type} (t : Tab α) (size a n : Nat) : List Nat :=
  if t.isEmpty then [] else (wordsOf size a n).filter (fun w => t.any (fun p => p.1 == w))

/-- Reads `n` bytes of a unit's cistern slice: the bytes, or none where a word is uncorrectable (R114). -/
def cistRead (s : State) (u a n acc : Nat) : State × Option (List Byte) :=
  let g := gaddr u a
  let c := cistCheck s acc (marked s.cistErr 8 g n)
  (c.1, if c.2 then some (memRead s.cist g n) else none)

/-- Cuts a run of bytes at the boundaries of words of `size` bytes: addresses and pieces. -/
def pieces (size fuel a : Nat) (bs : List Byte) : List (Nat × List Byte) :=
  match fuel, bs with
  | 0, _ => []
  | _, [] => []
  | f + 1, bs =>
    let n := size - a % size
    (a, bs.take n) :: pieces size f (a + n) (bs.drop n)

/-- Writes one piece inside a 64-bit word (R115): a whole word clears any error; part of an uncorrectable word is
not written, is reported (access 6 of Table 15.8), and fails. -/
def cistWritePiece (s : State) (g : Nat) (bs : List Byte) : State × Bool :=
  let w := g / 8
  let put (s : State) : State := { s with cist := memWrite s.cist g bs }
  if s.cistErr.isEmpty then (put s, true)
  else if bs.length = 8 then
    (put { s with cistErr := tabDel s.cistErr w, cistWb := s.cistWb.filter (· != w),
                  cistBad := s.cistBad.filter (· != w) }, true)
  else
    match s.cistErr.find? (fun p => p.1 == w) with
    | none => (put s, true)
    | some (_, .single) =>
      let s := addReg s Reg.cistCe 1
      (put { s with cistErr := tabDel s.cistErr w, cistWb := s.cistWb.filter (· != w) }, true)
    | some (_, .bad _) => (cistUeReport s w 6, false)

/-- Writes a list of pieces; false where any failed. -/
def cistWritePieces (s : State) : List (Nat × List Byte) → State × Bool
  | [] => (s, true)
  | (g, bs) :: t =>
    let r := cistWritePiece s g bs
    let r2 := cistWritePieces r.1 t
    (r2.1, r.2 && r2.2)

/-- Where `rbLen` keeps a plane entry: the cistern by global address, the well above it. -/
def entryKey (well : Bool) (a : Nat) : Nat := if well then 2 ^ 31 + a else a

/-- Bytes written anew are entries of no known row-block length. -/
def rbForget (s : State) (k n : Nat) : State :=
  if s.rbLen.isEmpty then s else { s with rbLen := s.rbLen.filter (fun p => decide (p.1 + 4 ≤ k ∨ k + n ≤ p.1)) }

/-- Writes bytes to a unit's cistern slice (R113, R115). -/
def cistWrite (s : State) (u a : Nat) (bs : List Byte) : State × Bool :=
  let s := rbForget s (entryKey false (gaddr u a)) bs.length
  if s.cistErr.isEmpty then ({ s with cist := memWrite s.cist (gaddr u a) bs }, true)
  else cistWritePieces s (pieces 8 (bs.length / 8 + 2) (gaddr u a) bs)

-- well (R117 to R122, R145)

/-- Die, pair offset and stack of a well address (R117, R119). -/
def wellDie (a : Nat) : Nat := bits a 39 37
def wellOff (a : Nat) : Nat := a % 2 ^ 37
def wellStack (a : Nat) : Nat := 2 * wellDie a + b2n (a.testBit 12)
/-- Ends of the image and KV region and of the system area (Table 04.2). -/
def wellGeneral : Nat := 0x1660000000
def wellEnd : Nat := 0x1680000000
/-- Whether `[a, a+n)` lies in one die's image and KV region. -/
def wellIn (s : State) (a n : Nat) : Bool :=
  decide (wellDie a < dies s) && decide (wellOff a + n ≤ wellGeneral)

/-- Who reads the well, for a WELL_UE record (Table 15.8). -/
structure WellAcc where
  acc : Nat
  station : Nat := 0xFFFF
  chan : Nat := 0xFF
  tag : Nat := 0
  deriving DecidableEq, Repr

/-- R145: an uncorrectable beat is counted, and recorded at its first detection. -/
def wellUeReport (s : State) (b : Nat) (q : WellAcc) : State :=
  let s := addReg (if q.acc = 2 ∨ q.acc = 3 then s else noteFault s) Reg.wellUe 1
  if s.wellBad.contains b then s
  else
    let st := wellStack (b * 32)
    let n := (s.wellBad.filter (fun x => wellStack (x * 32) == st)).length
    let s := if n < 64 then { s with wellBad := s.wellBad ++ [b] } else s
    pushRec s ⟨3, st, 2, leBytes 5 (b * 32) ++ leBytes 1 3 ++ leBytes 1 q.acc ++ leBytes 1 0 ++
      leBytes 2 q.station ++ leBytes 1 q.chan ++ leBytes 1 0 ++ leBytes 2 q.tag⟩

/-- R121: up to two re-reads of an uncorrectable beat; whether one delivers it. -/
def rereadsRecover (rr : List ReRead) : Bool := (rr.take 2).any (· != .bad)

/-- Checks the beats of a read (R121), stopping at one that stays uncorrectable. -/
def wellCheck (s : State) (q : WellAcc) : List Nat → State × Bool
  | [] => (s, true)
  | b :: t =>
    match s.wellErr.find? (fun p => p.1 == b) with
    | none => wellCheck s q t
    | some (_, .stack) => wellCheck (addReg s Reg.stackEcc 1) q t
    | some (_, .single) => wellCheck (addReg { s with wellErr := tabDel s.wellErr b } Reg.wellCe 1) q t
    | some (_, .bad rr) =>
      if rereadsRecover rr then wellCheck (addReg { s with wellErr := tabDel s.wellErr b } Reg.wellRetry 1) q t
      else (wellUeReport s b q, false)

/-- Reads `n` bytes of the well: the bytes, or none where a beat fails with WELL_UE. -/
def wellRead (s : State) (a n : Nat) (q : WellAcc) : State × Option (List Byte) :=
  let c := wellCheck s q (marked s.wellErr 32 a n)
  (c.1, if c.2 then some (memRead s.well a n) else none)

/-- Writes one piece inside a beat (R122). -/
def wellWritePiece (s : State) (a : Nat) (bs : List Byte) (q : WellAcc) : State × Bool :=
  let b := a / 32
  let put (s : State) : State := { s with well := memWrite s.well a bs }
  if bs.length = 32 then
    (put { s with wellErr := tabDel s.wellErr b, wellBad := s.wellBad.filter (· != b) }, true)
  else
    let c := wellCheck s { q with acc := 4 } (marked s.wellErr 32 a 1)
    if c.2 then (put c.1, true) else (c.1, false)

def wellWritePieces (s : State) (q : WellAcc) : List (Nat × List Byte) → State × Bool
  | [] => (s, true)
  | (a, bs) :: t =>
    let r := wellWritePiece s a bs q
    let r2 := wellWritePieces r.1 q t
    (r2.1, r.2 && r2.2)

/-- Writes bytes to the well. -/
def wellWrite (s : State) (a : Nat) (bs : List Byte) (q : WellAcc) : State × Bool :=
  let s := rbForget s (entryKey true a) bs.length
  if s.wellErr.isEmpty then ({ s with well := memWrite s.well a bs }, true)
  else wellWritePieces s q (pieces 32 (bs.length / 32 + 2) a bs)

-- chain windows (R280, R282)

/-- Arrays and registers that a window claims (Table 09.1). -/
def halfArrays (h : Nat) : List Nat := if h = 0 then [0, 1, 2, 3] else if h = 1 then [4, 5, 6, 7] else List.range 8
def halfRegs (h : Nat) : List Nat := if h = 0 then List.range 16 else if h = 1 then (List.range 16).map (· + 16) else List.range 32

/-- The window of a chain command block. -/
def cHalf (r : Nat) : Nat := bits r 19 18

/-- The chains of a station that still hold R282's rule: in flight, or complete and not yet observed with EWAIT. -/
def watched (x : Station) : List ChainRec := x.chains ++ x.unseen

/-- The chain that claims a tile register, if any (R282). -/
def claimOf (x : Station) (r : Nat) : Option ChainRec := (watched x).find? (fun c => (halfRegs (cHalf c.raw)).contains r)

-- tile registers and sidecars (R250 to R263)

/-- What a byte of a sidecar can hold: the reserved bits of the TAG and everything beyond it are 0 (R251). -/
def sideMask (o : Nat) (b : Byte) : Byte :=
  if o < 0x510 ∨ o = 0x511 then b
  else if o = 0x510 then b &&& 0x7F
  else if o = 0x512 then b &&& 0x3F
  else 0

/-- A byte of a tile register (or of its sidecar): the cell, or a free value where the byte is unpredictable. -/
def tileByte (x : Station) (side : Bool) (r o : Nat) : Byte :=
  let row := if side then 2048 + r * 12 + o / 128 else r * 64 + o / 128
  let f := if x.trfFree.isEmpty then (0, 0) else tabGet (0, 0) x.trfFree row
  if f.2.testBit (o % 128) then
    (let b := Config.freeByte f.1 (row * 128 + o % 128)
     if side then sideMask o b else b)
  else if side then tabGet 0 x.side (r * 1536 + o) else tabGet 0 x.trf (r * 8192 + o)

/-- Number of a 64-bit word of a tile register or sidecar among the station's protected words (R263). -/
def tileWord (side : Bool) (r o : Nat) : Nat := if side then 32768 + r * 192 + o / 8 else r * 1024 + o / 8

/-- R263: what one marked word does to a read: corrections and uncorrectable reads are counted; the first
uncorrectable read since the word was written writes a TRF_UE record and signals TRF_UE. -/
def trfReadWord (s : State) (u w : Nat) : State :=
  match (stn s u).trfErr.find? (fun p => p.1 == w) with
  | none => s
  | some (_, .single) => addReg s Reg.trfCe 1
  | some (_, .bad rep) =>
    let s := addReg (noteFault s) Reg.trfUe 1
    if rep then s
    else
      let s := modStn s u (fun x => { x with trfErr := tabPut x.trfErr w (.bad true) })
      let side := decide (32768 ≤ w)
      let ctx := if side then
          leBytes 1 ((w - 32768) / 192) ++ leBytes 1 0 ++ leBytes 1 1 ++ leBytes 1 0 ++ leBytes 2 ((w - 32768) % 192)
        else leBytes 1 (w / 1024) ++ leBytes 1 (w % 1024 / 16) ++ leBytes 1 0 ++ leBytes 1 0 ++ leBytes 2 (w % 16)
      setEvt (pushRec s ⟨1, lstn s u, 3, ctx⟩) 4

/-- `n` bytes of a tile register or sidecar from offset `o`, an uncorrectable word delivered as zero (R263). -/
def tileBytes (x : Station) (side : Bool) (r o n : Nat) : List Byte :=
  (List.range n).map (fun i =>
    if x.trfErr.isEmpty then tileByte x side r (o + i)
    else match x.trfErr.find? (fun p => p.1 == tileWord side r (o + i)) with
      | some (_, .bad _) => 0
      | _ => tileByte x side r (o + i))

/-- Reads `n` bytes of a tile register or sidecar from offset `o`. -/
def tileRead (s : State) (u : Nat) (side : Bool) (r o n : Nat) : State × List Byte :=
  let x := stn s u
  let ws := if x.trfErr.isEmpty then [] else (wordsOf 8 o n).map (fun k => tileWord side r (k * 8))
  (ws.foldl (fun s w => trfReadWord s u w) s, tileBytes x side r o n)

/-- Reads several ranges of a register's sidecar, for what the reads count and report. -/
def sideReads (s : State) (u r : Nat) (rs : List (Nat × Nat)) : State :=
  rs.foldl (fun s p => (tileRead s u true r p.1 p.2).1) s

/-- Marks bytes of a tile register or sidecar free, of generation `g`, or (none) no longer free. -/
def setFree (x : Station) (g : Option Nat) (side : Bool) (r o n : Nat) : Station :=
  if g.isNone && x.trfFree.isEmpty then x
  else
    { x with trfFree := (List.range n).foldl (fun t i =>
        let row := if side then 2048 + r * 12 + (o + i) / 128 else r * 64 + (o + i) / 128
        let f := tabGet (0, 0) t row
        let b := 2 ^ ((o + i) % 128)
        match g with
        | some g => tabSet (0, 0) t row (g, if f.2.testBit ((o + i) % 128) then f.2 else f.2 + b)
        | none => if f.2.testBit ((o + i) % 128) then tabSet (0, 0) t row (f.1, f.2 - b) else t) x.trfFree }

/-- Writes bytes of a tile register or sidecar. A write that covers a whole word clears its error (R263). Bytes of a
register that a chain has claimed are open until they are written again after the chain (R261, R282). -/
def tileWriteX (x : Station) (side : Bool) (r o : Nat) (bs : List Byte) : Station :=
  let x := setFree x ((claimOf x r).map (·.gen)) side r o bs.length
  let x := if x.trfErr.isEmpty then x
    else
      let ws := (wordsOf 8 o bs.length).filter (fun k => decide (o ≤ k * 8) && decide (k * 8 + 8 ≤ o + bs.length))
      { x with trfErr := x.trfErr.filter (fun p => !(ws.any (fun k => tileWord side r (k * 8) == p.1))) }
  if side then { x with side := memWrite x.side (r * 1536 + o) (bs.mapIdx (fun k b => sideMask (o + k) b)) }
  else { x with trf := memWrite x.trf (r * 8192 + o) bs }

def tileWrite (s : State) (u : Nat) (side : Bool) (r o : Nat) (bs : List Byte) : State :=
  modStn s u (fun x => tileWriteX x side r o bs)

/-- Makes the elements of tile registers unpredictable: every byte is a free value of generation `g` until it is
written. -/
def elemHavoc (x : Station) (rs : List Nat) (g : Nat) : Station :=
  rs.foldl (fun x r => setFree { x with trf := memClear x.trf (r * 8192) 8192 } (some g) false r 0 8192) x

/-- Makes whole tile registers and their sidecars unpredictable (R281); the reserved bits and bytes of a sidecar read 0
(Tables 08.2, 08.3). -/
def tileHavoc (x : Station) (rs : List Nat) (g : Nat) : Station :=
  rs.foldl (fun x r => setFree { x with side := memClear x.side (r * 1536) 1536 } (some g) true r 0 0x514) (elemHavoc x rs g)

/-- The TAG word of a sidecar (Table 08.3) and its fields. -/
def tagOf (side : List Byte) : Nat := leNat ((side.drop 0x510).take 4)
def tagSkind (tag : Nat) : Nat := if 3 < tag % 8 ∨ (tag % 8 = 3 ∧ bits tag 4 3 = 3) then 0 else tag % 8
def tagWord (skind lsKind lsFmt lz zp rblk : Nat) : Nat :=
  skind + 8 * lsKind + 32 * lsFmt + 64 * lz + 256 * zp + 65536 * rblk

/-- Writes a TAG (R253). -/
def setTag (x : Station) (r tag : Nat) : Station := tileWriteX x true r 0x510 (leBytes 4 tag)

/-- The low 8 parameter sets are the ingress NCU's, the next 8 the egress NCU's (R86). -/
def psetOf (x : Station) (egress : Bool) (i : Nat) : PSet := tabGet {} x.psets (i + 8 * b2n egress)

end Sys2Proof.Machine
end

