-- ==== Sys2Proof/Machine/Operands.lean ====
section
/-! DEFINITION. Machine/Operands.lean: the encodings of the station instruction set (Tables 06.1 to 06.16), the
registers an instruction reads and writes, and the way an instruction leaves the pipe: retired, held or trapped. -/

namespace Sys2Proof.Machine

-- fields (Table 06.1)
def fOp (w : Nat) : Nat := bits w 31 26
def fRd (w : Nat) : Nat := bits w 25 21
def fRa (w : Nat) : Nat := bits w 20 16
def fRb (w : Nat) : Nat := bits w 15 11
def fImm (w : Nat) : Nat := bits w 15 0
def fCh (w : Nat) : Nat := bits w 15 14
def fSel (w : Nat) : Nat := bits w 13 11
/-- format N: idx[20] the NCU, idx[19:17] the parameter set, idx the history index, field, slot -/
def fNcu (w : Nat) : Bool := w.testBit 20
def fSet (w : Nat) : Nat := bits w 19 17
def fIdx (w : Nat) : Nat := bits w 20 17
def fField (w : Nat) : Nat := bits w 16 13
def fSlot (w : Nat) : Nat := bits w 12 7

/-- The operations of opcode 0x01 by fn (Table 06.3). -/
def aluOps : List SOp :=
  [.add, .sub, .and, .or, .xor, .shl, .shr, .sra, .slt, .sltu, .min, .max, .minu, .maxu, .mul, .mulh, .mulhu, .adds,
   .subs, .clz, .popc]

/-- The functions of VOP by fn (Table 06.13). -/
def vopOp (fn : Nat) : Option SOp :=
  if fn < 0x10 then
    ([.vadd, .vsub, .vmul, .vfma, .vmin, .vmax, .vabs, .vneg, .vsel, .vaddb, .vsubb, .vmulb] : List SOp)[fn]?
  else ([.vexp, .vlog, .vrcp, .vrsqrt, .vsqrt, .vtanh, .vsigmoid, .vsilu, .vgelu] : List SOp)[fn - 0x10]?

/-- The instruction a word encodes (R190 to R192, Table 06.2); none where the major opcode is reserved or the fn code
is not listed. -/
def sop (w : Nat) : Option SOp :=
  match fOp w with
  | 0x00 => ([.nop, .park, .brk, .rdsr, .setvl] : List SOp)[bits w 5 0]?
  | 0x01 => aluOps[bits w 5 0]?
  | 0x02 => some .addi | 0x03 => some .andi | 0x04 => some .ori | 0x05 => some .xori
  | 0x06 => some .slti | 0x07 => some .sltiu | 0x08 => some .lui
  | 0x09 => ([.shli, .shri, .srai] : List SOp)[bits w 6 5]?
  | 0x10 => some .beq | 0x11 => some .bne | 0x12 => some .blt | 0x13 => some .bge
  | 0x14 => some .bltu | 0x15 => some .bgeu | 0x16 => some .j | 0x17 => some .call
  | 0x18 => ([.jr, .callr, .ret] : List SOp)[bits w 5 0]?
  | 0x20 => some .lw | 0x21 => some .lh | 0x22 => some .lhu | 0x23 => some .lb | 0x24 => some .lbu
  | 0x25 => some .sw | 0x26 => some .sh | 0x27 => some .sb
  | 0x28 => ([.ewait, .esig, .eset, .erd, .rsig] : List SOp)[bits w 7 0]?
  | 0x29 => ([.pissue, .pstat, .pclr, .pcancel] : List SOp)[bits w 5 0]?
  | 0x2A => ([.chain, .cabort, .cpos, .cstat] : List SOp)[bits w 5 0]?
  | 0x2B => some .mshift | 0x2C => some .mpass
  | 0x30 => vopOp (bits w 4 0)
  | 0x31 => some .vcmp
  | 0x32 => ([.rsum, .rmax, .rmin, .rmaxabs] : List SOp)[bits w 9 8]?
  | 0x33 => ([.vmov, .splat, .compress, .expand, .zero, .mand, .mor, .mxor, .mnot, .mset, .vfence] : List SOp)[bits w 4 0]?
  | 0x34 => some .vcvt
  | 0x38 => ([.psetw, .slotw, .slotr, .ncucnt, .stepclose] : List SOp)[bits w 3 0]?
  | _ => none

/-- Control-flow instructions (R161, Table 06.5). -/
def isCtl : SOp → Bool
  | .beq | .bne | .blt | .bge | .bltu | .bgeu | .j | .call | .jr | .callr | .ret => true
  | _ => false

/-- Scalar registers an instruction reads. -/
def srcRegs (w : Nat) : List Nat :=
  match sop w with
  | some .setvl | some .clz | some .popc => [fRa w]
  | some .nop | some .park | some .brk | some .rdsr => []
  | some .lui => []
  | some .pissue | some .chain => [fRa w]
  | some .jr | some .callr => [fRa w]
  | some .ewait | some .eset | some .rsig => [fRa w]
  | some .splat => [bits w 15 11]
  | some .psetw | some .slotw => [fRd w]
  | some .beq | some .bne | some .blt | some .bge | some .bltu | some .bgeu => [fRd w, fRa w]
  | some .sw | some .sh | some .sb => [fRa w, fRd w]
  | some .lw | some .lh | some .lhu | some .lb | some .lbu => [fRa w]
  | _ => if fOp w = 1 then [fRa w, fRb w] else if 2 ≤ fOp w ∧ fOp w ≤ 9 then [fRa w] else []

/-- The scalar register an instruction writes, if any. -/
def dstReg (w : Nat) : Option Nat :=
  match sop w with
  | some .rdsr | some .setvl | some .lw | some .lh | some .lhu | some .lb | some .lbu | some .pstat | some .cpos
  | some .cstat | some .slotr | some .ncucnt => some (fRd w)
  | some .erd => some (fRa w)
  | _ => if 1 ≤ fOp w ∧ fOp w ≤ 9 then some (fRd w) else none

/-- The word at a program address (R166). -/
def pmWord (x : Station) (pc : Nat) : Nat := (tabGet 0 x.pm (pc % 2 ^ 14)).toNat

/-- The oldest unretired instruction of a thread. -/
def front (x : Station) (t : Nat) : Option InFlight := x.pipe.find? (fun i => i.thread == t)

/-- Whether a thread stands at an instruction that is held, waiting or being served by the trap context: its younger
instructions retire after it (R162). -/
def threadHeld (x : Station) (t : Nat) : Bool :=
  match front x t with
  | some i => i.held
  | none => false

/-- R160, R162: instructions retire in issue order, but past those of other threads that stand at a held one. -/
def atHead (x : Station) (t : Nat) : Bool :=
  match (x.pipe.dropWhile (fun i => i.thread != t && threadHeld x i.thread)).head? with
  | some i => i.thread == t
  | none => false

/-- Removes a thread's oldest instruction; removes all of a thread's instructions (R158, R163). -/
def popFront (x : Station) (t : Nat) : Station := { x with pipe := x.pipe.eraseP (fun i => i.thread == t) }
def flush (x : Station) (t : Nat) : Station := { x with pipe := x.pipe.filter (fun i => i.thread != t) }

/-- Marks a thread's oldest instruction held. -/
def markHeld (x : Station) (t : Nat) : Station :=
  match front x t with
  | none => x
  | some i =>
    let pre := x.pipe.takeWhile (fun j => j.thread != t)
    let post := x.pipe.drop (pre.length + 1)
    { x with pipe := pre ++ { i with held := true } :: post }

/-- Every thread parked, or trapped with a fatal cause (R179). -/
def allStopped (x : Station) : Bool := threads.all (fun t => (thr x t).st == .parked || fatal (thr x t))

/-- Applies program words written by the hub; a write stores new check bits (R166, R179). -/
def pmApply (x : Station) : List (Nat × Word) → Station
  | [] => x
  | (a, v) :: t => pmApply { x with pm := tabSet 0 x.pm (a % 2 ^ 14) v, pmErr := tabDel x.pmErr (a % 2 ^ 14) } t

/-- R179: held program writes are applied once every thread is stopped. -/
def pmFlush (x : Station) : Station :=
  if allStopped x then pmApply { x with pmHeld := [] } x.pmHeld else x

/-- R175, R177: a fatal trap. The thread is TRAPPED at the instruction, its younger instructions are discarded, and
one STATION_TRAP record is written unless the cause is CISTERN_UE (8). -/
def fatalTrap (s : State) (u t pc cause : Nat) : State :=
  let s := modStn (stepEnd s u t) u (fun x => pmFlush (flush (modThr x t (fun h =>
    { h with st := .trapped, cause := cause, pc := pc })) t))
  let s := addReg (noteFault s) Reg.trapCnt 1
  let s := if cause = 7 then addReg s Reg.pmUe 1 else s
  let s := if cause = 8 then s
    else pushRec s ⟨1, lstn s u, 0x20, leBytes 1 t ++ leBytes 1 cause ++ leBytes 2 pc⟩
  setEvt s 2

/-- How an instruction leaves its check: it retires with its effect, is held (its effect so far is the state given),
takes a fatal trap, or takes a transient one (R162, R163, R174). -/
inductive Ret
  | done (s : State)
  | hold (s : State)
  | trap (cause : Nat) (s : State)
  | transient (cause : Nat)

/-- Applies the outcome of a check to the pipe. -/
def finish (u t : Nat) (i : InFlight) (s : State) (r : Ret) : State :=
  match r with
  | .done s' => modStn s' u (fun x => popFront x t)
  | .hold s' => modStn s' u (fun x => markHeld x t)
  | .trap c s' => fatalTrap s' u t i.pc c
  | .transient c => modStn s u (fun x =>
      let x := markHeld (modThr x t (fun h => { h with st := .trapped, cause := c, pc := i.pc })) t
      { x with trapQ := x.trapQ ++ [t] })

/-- Table 11.6: the stations have their clock in P0 Run and P1 Eco only; in P2 Idle they are gated, with their state. -/
def clocked (s : State) : Bool := s.gov.ps == .p0 || s.gov.ps == .p1

/-- Whether unit `u` is one of this package's, resident and neither in reset nor frozen. -/
def unitRuns (s : State) (u : Nat) : Bool :=
  isResident s u && !(stn s u).inReset && !(stn s u).frozen && clocked s

/-- The engines of unit `u` can go on with what they have begun, also while a reset drains the station (R186). -/
def engineGoes (s : State) (u : Nat) : Bool := isResident s u && clocked s

/-- The engines of unit `u` can begin work. -/
def engineOn (s : State) (u : Nat) : Bool := engineGoes s u && !(stn s u).inReset

/-- Retires the instruction at the head of thread `t` if it is `op` (its own row of the table): `body` gives the
instruction's effect from its address and word. -/
def retire (op : SOp) (body : State → InFlight → Ret) (u t : Nat) (s : State) : Host.Outcome State Fault Refusal :=
  match front (stn s u) t with
  | none => .next s
  | some i =>
    if unitRuns s u && atHead (stn s u) t && !i.held && (thr (stn s u) t).st == .run && sop i.word == some op then
      .next (finish u t i s (body s i))
    else .next s

/-- The scalar operands of an instruction. -/
def opA (s : State) (u : Nat) (i : InFlight) : Word := sread (thr (stn s u) i.thread) (fRa i.word)
def opB (s : State) (u : Nat) (i : InFlight) : Word := sread (thr (stn s u) i.thread) (fRb i.word)
def opD (s : State) (u : Nat) (i : InFlight) : Word := sread (thr (stn s u) i.thread) (fRd i.word)

/-- Writes a scalar register of the instruction's thread. -/
def writeS (s : State) (u : Nat) (i : InFlight) (r : Nat) (v : Word) : State :=
  modStn s u (fun x => modThr x i.thread (fun h => swrite h r v))

end Sys2Proof.Machine
end

