-- ==== Sys2Proof/Machine/LeaveOps.lean ====
section
/-! DEFINITION. Machine/LeaveOps.lean: placing, joining and crediting back leave (R347 to R351, R356). The rows that
run the Governor are in Machine/Power.lean. -/

namespace Sys2Proof.Machine

/-- Table 11.2: the dynamic entries 0 to 7, in units of 2^−16 µJ, at P0 and P1. -/
def costEntry (e : Nat) (eco : Bool) : Nat :=
  (if eco then [192, 240, 288, 60, 10, 512, 24, 96] else [320, 400, 480, 100, 16, 512, 32, 96] : List Nat).getD e 0

/-- The cost of a request's units in a P-state's column (R369). -/
def costOf (units : Tab Nat) (eco : Bool) : Nat := (units.map (fun p => p.2 * costEntry p.1 eco)).foldl (· + ·) 0

/-- Requests outstanding of a requester (R350). -/
def outstanding (s : State) (r : Nat) : Nat := (s.gov.reqs.filter (fun q => q.requester == r)).length

/-- The hub's requester number. -/
def hubReq : Nat := 128

/-- R353: the place of a requester in the order that starts after the one last granted in a class. -/
def reqOrder (s : State) (cls r : Nat) : Nat := (r + 128 - tabGet hubReq s.gov.lastReq cls) % 129

/-- R353: a request enters its class queue behind the others, but ahead of those of the same cycle that come after it in
requester order. -/
def enqueue (s : State) (q : LReq) : List LReq → List LReq
  | [] => [q]
  | p :: t =>
    if p.cls = q.cls ∧ p.placed = q.placed ∧ reqOrder s q.cls q.requester < reqOrder s q.cls p.requester then q :: p :: t
    else p :: enqueue s q t

/-- Places a request in its class queue (R352, R353). -/
def placeReq (s : State) (cls requester unit : Nat) (what : Purpose) (units : Tab Nat) : State × Nat :=
  let q : LReq := { id := s.gov.nextId, cls := cls, requester := requester, unit := unit, what := what, units := units,
                    placed := s.cyc }
  ({ s with gov := { s.gov with reqs := enqueue s q s.gov.reqs, nextId := s.gov.nextId + 1 } }, s.gov.nextId)

/-- Adds units to a cost. -/
def addUnits (u v : Tab Nat) : Tab Nat := v.foldl (fun t p => tabPut t p.1 (tabGet 0 t p.1 + p.2)) u

/-- R351: a command joins its station's outstanding request of the class that holds fewer than `cap` commands, or
places a new one; none while the station has two requests outstanding. -/
def joinOrPlace (s : State) (u cls : Nat) (what : Purpose) (cap : Nat) (units : Tab Nat) : Option (State × Nat) :=
  let r := lstn s u
  match s.gov.reqs.find? (fun q => q.requester == r && q.what == what && q.unit == u && decide (q.joined < cap)) with
  | some q =>
    some ({ s with gov := { s.gov with reqs := s.gov.reqs.map (fun p =>
      if p.id = q.id then { p with units := addUnits p.units units, joined := p.joined + 1 } else p) } }, q.id)
  | none => if outstanding s r < 2 then some (placeReq s cls r u what units) else none

/-- Withdraws the requests of a unit that `f` selects. -/
def withdraw (s : State) (f : LReq → Bool) : State :=
  { s with gov := { s.gov with reqs := s.gov.reqs.filter (fun q => !f q) } }

/-- R356: unspent leave is credited back to the current window, whose debits do not fall below zero. -/
def creditBack (s : State) (n : Nat) : State := { s with gov := { s.gov with spent := s.gov.spent - n } }

-- the hub's WELL leave (R350; log entry 61)

/-- Whether the Governor makes grants in a P-state (Table 11.6). -/
def granting (p : PState) : Bool := p == .p0 || p == .p1

/-- R350: the hub may begin well traffic of `n` bytes: it has leave for the first span in hand. Where no leave is granted
in the power state, none is asked of it. -/
def hubReady (s : State) (n : Nat) : Bool := !granting s.gov.ps || decide (min n 65536 ≤ s.gov.hubLeave)

/-- The hub's well traffic of `n` bytes spends the leave in hand; what lies beyond is debited to the window as it goes. -/
def hubSpend (s : State) (n : Nat) : State :=
  if granting s.gov.ps then
    let rest := n - s.gov.hubLeave
    { s with gov := { s.gov with hubLeave := s.gov.hubLeave - n,
                                 spent := s.gov.spent + (rest + 1023) / 1024 * costEntry 5 (s.gov.ps == .p1) } }
  else s

/-- Work that never waits for leave (R358) is debited against the window's MAINT allowance, and beyond it becomes
debt. `n` is in units of 2^−16 µJ; the allowance is 5 µJ (Table 11.2; 1.0 times on T2). -/
def maintDebit (s : State) (n : Nat) : State :=
  let allow := 5 * 65536
  let overWin := (s.gov.maint + n - allow) - (s.gov.maint - allow)
  { s with gov := { s.gov with maint := s.gov.maint + n, debt := s.gov.debt + overWin } }

end Sys2Proof.Machine
end

