-- ==== Sys2Proof/Machine/ChainFields.lean ====
section
/-! DEFINITION. Machine/ChainFields.lean: the fields of a chain command block (Tables 09.3 to 09.5), the byte ranges a
chain reads and writes, and what a write that breaks R282 does. -/

namespace Sys2Proof.Machine

-- header (Table 09.4)
def cId (r : Nat) : Nat := bits r 3 0
def cEpi (r : Nat) : Nat := bits r 6 4
def cStaged (r : Nat) : Bool := r.testBit 7
def cAct (r : Nat) : Nat := bits r 10 8
def cCausal (r : Nat) : Bool := r.testBit 11
def cNorm (r : Nat) : Bool := r.testBit 12
def cEvt (r : Nat) : Nat := bits r 17 13
def cAfmt (r : Nat) : Nat := bits r 24 20
def cWfmt (r : Nat) : Nat := bits r 29 25
def cMfmt (r : Nat) : Nat := bits r 34 30
def cOfmt (r : Nat) : Nat := bits r 39 35
def cWpset (r : Nat) : Nat := bits r 42 40
def cOspace (r : Nat) : Nat := bits r 44 43
def cXpkg (r : Nat) : Bool := r.testBit 45
def cNevt (r : Nat) : Nat := bits r 50 46
def cGroup (r : Nat) : Nat := bits r 56 51 + 1
-- block (Table 09.3)
def cNcu (r : Nat) : Nat := bits r 127 64
def cA (r : Nat) : Nat := bits r 150 128
def cAspl (r : Nat) : Nat := bits r 182 160
def cB (r : Nat) : Nat := bits r 214 192
def cC (r : Nat) : Nat := bits r 246 224
def cD (r : Nat) : Nat := bits r 287 256
def cOut (r : Nat) : Nat := bits r 317 288
def cOspl (r : Nat) : Nat := bits r 342 320
def cM (r : Nat) : Nat := bits r 367 352 + 1
def cN (r : Nat) : Nat := bits r 383 368 + 1
def cK (r : Nat) : Nat := bits r 399 384
def cN2 (r : Nat) : Nat := bits r 415 400 + 1
def cStride (r : Nat) : Nat := bits r 447 416
def cX (r : Nat) : Nat := bits r 479 448
/-- REDUCE_GEMM (Table 09.5): REVT, ROOT and RMODE. GATHER_GEMM's AEVT stands where REVT does. -/
def cRevt (r : Nat) : Nat := bits r 260 256
def cRoot (r : Nat) : Nat := bits r 263 261
def cSoftmax (r : Nat) : Bool := r.testBit 264

/-- The formats a block names, once they are known not to be reserved. -/
def cF (code : Nat) : Fmt := (fmtOf code).getD .fp32

/-- Row groups, column tiles, and output tiles (R301). -/
def cGroups (r : Nat) : Nat := ceilDiv (cM r) 64
def cCols (r : Nat) : Nat := ceilDiv (cN r) 64
def cTiles (r : Nat) : Nat := cGroups r * cCols r

/-- The work unit of a CGLOBAL destination; a chain of unit `u` writes to another die (R292). -/
def cDstUnit (u r : Nat) : Nat := if cOspace r = 1 then bits (cOut r) 29 23 else u
def cRemote (u r : Nat) : Bool := cOspace r == 1 && (cXpkg r || cDstUnit u r / 32 != u / 32)

/-- Whether a unit is the root of a REDUCE_GEMM (R300). -/
def cIsRoot (s : State) (u r : Nat) : Bool := cId r == 8 && groupDie s (u / 32) == cRoot r

/-- Rows and row length of destination and initial value: R287. -/
def outStride (r : Nat) : Nat := if cStride r = 0 then rowBytes (cF (cOfmt r)) (cN r) else cStride r
def cStrideOf (r : Nat) : Nat := if cStride r = 0 then rowBytes (cF (cMfmt r)) (cN r) else cStride r

/-- Layout of a partial slot (R300): offset of the scale plane, offset of the statistics, and its size. -/
def align64 (n : Nat) : Nat := ceilDiv n 64 * 64
def slotPlane (f : Fmt) (m n : Nat) : Nat := align64 (m * rowBytes f n)
def slotStats (f : Fmt) (m n : Nat) : Nat :=
  if isMx f then align64 (slotPlane f m n + m * ceilDiv n 32) else slotPlane f m n
def slotEnd (f : Fmt) (m n : Nat) (stats : Bool) : Nat :=
  if stats then slotStats f m n + 8 * m
  else if isMx f then slotPlane f m n + m * ceilDiv n 32 else m * rowBytes f n

/-- Whether a chain writes row statistics (R297, R301). -/
def hasStats (r : Nat) : Bool := (cId r == 5 || cId r == 6) && !cNorm r && cOspace r != 2

/-- The local byte ranges a chain reads: start and length (R287, R298, R300). -/
def readRanges (s : State) (u r : Nat) : List (Nat × Nat) :=
  let af := cF (cAfmt r)
  let wf := cF (cWfmt r)
  let rows (f : Fmt) (a n d0 : Nat) : Nat × Nat := (a, n * rowBytes f d0)
  let aR := rows af (cA r) (cM r) (cK r) :: (if isMx af then [(cAspl r, cM r * ceilDiv (cK r) 32)] else [])
  let slots := (List.range (groupDies s)).map (fun d =>
    (cC r + d * cX r, slotEnd (cF (cMfmt r)) (cM r) (cN r) (cSoftmax r)))
  match cId r with
  | 2 => aR ++ [rows wf (cB r) (cN r) (cK r), (cC r, (cM r - 1) * cStrideOf r + rowBytes (cF (cMfmt r)) (cN r))]
  | 3 => aR ++ [rows wf (cB r) (cN2 r) (cK r), rows wf (cC r) (cN r) (cN2 r)]
  | 4 => aR ++ [rows wf (cB r) (cN2 r) (cK r), rows wf (cC r) (cN2 r) (cK r), rows wf (cD r % 2 ^ 23) (cN r) (cN2 r)]
  | 5 => aR ++ [rows wf (cB r) (cN2 r) (cK r), rows wf (cC r) (cN2 r) (cK r)]
  | 6 => aR ++ [(cB r, 16 * cN2 r)]
  | 8 => (if cK r = 0 then [] else aR ++ [rows wf (cB r) (cN r) (cK r)]) ++ (if cIsRoot s u r then slots else [])
  | _ => aR ++ [rows wf (cB r) (cN r) (cK r)]

/-- Scale-plane entries of an output row, their size, and a row block's length. -/
def outBlk (r : Nat) : Nat := if cF (cOfmt r) == .rb8 then (bits (cNcu r) 23 18 + 1) * 32 else 32
def outEnts (r : Nat) : Nat := if isMx (cF (cOfmt r)) || cF (cOfmt r) == .rb8 then ceilDiv (cN r) (outBlk r) else 0
def outEntSize (r : Nat) : Nat := if cF (cOfmt r) == .rb8 then 4 else 1

/-- The local byte ranges a chain writes in its destination station. -/
def writeRanges (r : Nat) : List (Nat × Nat) :=
  if cOspace r = 2 then []
  else
    let a := cOut r % 2 ^ 23
    let f := cF (cOfmt r)
    (a, (cM r - 1) * outStride r + rowBytes f (cN r)) ::
    ((if outEnts r = 0 then [] else [(cOspl r, cM r * outEnts r * outEntSize r)]) ++
     (if hasStats r then [(a + slotStats f (cM r) (cN r), 8 * cM r)] else []))

/-- The registers of a TRF destination: an FP32 or INT32 output takes a pair (Table 09.6). -/
def outRegs (r : Nat) : List Nat :=
  let g := cOut r % 32
  if ebits (cF (cOfmt r)) = 32 then [g / 2 * 2, g / 2 * 2 + 1] else [g]

/-- Whether two byte ranges meet. -/
def meets (a n b m : Nat) : Bool := decide (a < b + m) && decide (b < a + n) && decide (0 < n) && decide (0 < m)


-- what a program does to a chain that still holds its window (R282, R261)

/-- The operand bytes of a chain that nothing but its own loads may touch: not the shares and partials that arrive while
it runs (R299, R300). -/
def ownRanges (s : State) (u r : Nat) : List (Nat × Nat) :=
  if cId r = 7 then (readRanges s u r).drop (if isMx (cF (cAfmt r)) then 2 else 1)
  else if cIsRoot s u r then (readRanges s u r).take (if cK r = 0 then 0 else if isMx (cF (cAfmt r)) then 3 else 2)
  else readRanges s u r

/-- Whether local address `a` is a byte of a chain's destination: its rows, its scale plane or its statistics. -/
def inOut (r a : Nat) : Bool :=
  match writeRanges r with
  | [] => false
  | (b, n) :: rest =>
    (decide (b ≤ a) && decide (a < b + n) && decide ((a - b) % max 1 (outStride r) < rowBytes (cF (cOfmt r)) (cN r))) ||
    rest.any (fun p => decide (p.1 ≤ a) && decide (a < p.1 + p.2))

/-- Writes free values of generation `g` to those of the bytes `[a, a + n)` of unit `v`'s slice that `f` selects. -/
def spoilBytes (s : State) (v a n g : Nat) (f : Nat → Bool) : State :=
  { s with cist := (List.range n).foldl (fun m k =>
      if f (a + k) then memWrite m (gaddr v (a + k)) [Config.freeByte g (a + k)] else m) s.cist }

/-- Whether bytes `[a, a + n)` of unit `v`'s slice are operands or destination of a chain of unit `u`. -/
def touches (s : State) (u v a n : Nat) (c : ChainRec) : Bool :=
  (u == v && (ownRanges s u c.raw).any (fun p => meets p.1 p.2 a n)) ||
  (cDstUnit u c.raw == v && !cXpkg c.raw && cOspace c.raw != 2 && (List.range n).any (fun k => inOut c.raw (a + k)))

/-- R282, R261: what becomes of unit `u`'s chains once its program has written bytes `[a, a + n)` of unit `v`'s slice: the
output of a chain whose operands or destination these are is open, and so are the bytes of its destination. -/
def chainTouch (s : State) (u v a n : Nat) : State :=
  let hit := (watched (stn s u)).filter (touches s u v a n)
  if hit.isEmpty then s
  else
    let g := takeFree s
    let bad (c : ChainRec) : ChainRec := if touches s u v a n c then { c with broken := some g.1 } else c
    let s := modStn g.2 u (fun x => { x with chains := x.chains.map bad })
    hit.foldl (fun s c => if cDstUnit u c.raw = v ∧ !cXpkg c.raw ∧ cOspace c.raw ≠ 2
      then spoilBytes s v a n g.1 (inOut c.raw) else s) s

/-- A thread has observed counter `e` with EWAIT, and so the completion of the chains that signal it (R282). -/
def chainSeen (x : Station) (e : Nat) : Station := { x with unseen := x.unseen.filter (fun c => cEvt c.raw != e) }

end Sys2Proof.Machine
end

