-- ==== Sys2Proof/Machine/Scalar.lean ====
section
/-! DEFINITION. Machine/Scalar.lean: issue, and the scalar, control-flow, load and store, event, pump-status and
system instructions (chapters 05 and 06). -/

namespace Sys2Proof.Machine

-- issue (R159 to R161, R166, R192)

/-- Whether a thread has a chain in flight (R279: waiting to start counts). -/
def chainOf (x : Station) (t : Nat) : Option ChainRec := x.chains.find? (fun c => c.thread == t)

/-- R178: the next instruction of a thread is a park point. -/
def parkPoint (w : Nat) : Bool :=
  match sop w with
  | some .chain | some .ewait | some .stepclose | some .park => true
  | _ => false

/-- The stepped thread has issued its one instruction (R504). -/
def stepUsed (x : Station) (t : Nat) : Bool := x.stepThread == some t && x.stepIssued

/-- The error mark of the word at a program address. -/
def pmMark (x : Station) (pc : Nat) : Option Mark := (x.pmErr.find? (fun p => p.1 == pc)).map (·.2)

/-- Whether the word at a program address is uncorrectable. -/
def pmBad (x : Station) (pc : Nat) : Bool := match pmMark x pc with | some (.bad _) => true | _ => false

/-- What a fetch delivers (R166): for an uncorrectable word, one that is no instruction. -/
def pmFetch (x : Station) (pc : Nat) : Nat := if pmBad x pc then 2 ^ 32 - 1 else pmWord x pc

/-- The thread is to stop before its next instruction: a park request stands and the instruction is a park point
(R178, R503), or it has made its step (R504); and it has no chain in flight. -/
def parkWanted (x : Station) (t : Nat) : Bool :=
  ((x.parkReq && parkPoint (pmFetch x (thr x t).pc)) || stepUsed x t) && (chainOf x t).isNone

/-- Instructions of a thread that have issued and not retired. -/
def inFlight (x : Station) (t : Nat) : List InFlight := x.pipe.filter (fun i => i.thread == t)

/-- R159: a thread is eligible to issue: it is in RUN, the registers that the instruction reads are ready, no branch of it
is unresolved and no instruction of it is held. The three places of the pipe are those of R160: an instruction retires two
cycles after it issues. A thread that is to park or has made its step does not issue (R178, R504). -/
def eligible (x : Station) (t : Nat) : Bool :=
  let h := thr x t
  let mine := inFlight x t
  let w := pmFetch x h.pc
  h.st == .run && !parkWanted x t && !stepUsed x t &&
  !mine.any (fun i => i.held) &&
  !mine.any (fun i => ((sop i.word).map isCtl).getD false) &&
  decide ((x.pipe.filter (fun i => !threadHeld x i.thread)).length < 3) &&
  mine.all (fun i => match dstReg i.word with
     | some r => r == 0 || !(srcRegs w).contains r
     | none => true)

/-- The threads in the order in which they are considered (R159). -/
def issueOrder (last : Nat) : List Nat := [1, 2, 3, 4].map (fun k => (last + k) % 4)

/-- Issues one instruction from thread `t` (R160, R166). -/
def issueFrom (s : State) (u t : Nat) : State :=
  let s := modStn s u (fun x => { x with lastIssue := t, stepIssued := x.stepIssued || x.stepThread == some t })
  let pc := (thr (stn s u) t).pc
  let s := match pmMark (stn s u) pc with
    | some .single => addReg (modStn s u (fun x => { x with pmErr := tabDel x.pmErr pc })) Reg.pmCe 1
    | _ => s
  modStn s u (fun x =>
    let x := modThr x t (fun h => { h with pc := (pc + 1) % 2 ^ 14 })
    { x with pipe := x.pipe ++ [⟨t, pc, pmFetch x pc, false⟩] })

/-- The thread whose oldest instruction stands at retirement and is none (R166, R192). -/
def badHead (x : Station) : Option Nat :=
  threads.find? (fun t => match front x t with
    | some i => atHead x t && !i.held && (thr x t).st == .run && (sop i.word).isNone
    | none => false)

/-- R175: where it would retire, an uncorrectable word takes PM_UE, and a word that is no instruction ILLEGAL_INSTR. -/
def trapBad (s : State) (u : Nat) : State :=
  match badHead (stn s u) with
  | some t =>
    match front (stn s u) t with
    | some i => fatalTrap s u t i.pc (if pmBad (stn s u) i.pc then 7 else 3)
    | none => s
  | none => s

/-- R159, R175: a cycle of the controller: an instruction at retirement that has no row of its own, being none, traps, and
one instruction issues from the first eligible thread. -/
def execInstrIssue (u : Nat) (s : State) : Host.Outcome State Fault Refusal :=
  let s' := trapBad s u
  guard s (unitRuns s u) (match (issueOrder (stn s' u).lastIssue).find? (eligible (stn s' u)) with
    | some t => issueFrom s' u t
    | none => s')

-- scalar ALU (R194, R195)

/-- Leading zero bits of a word, 0 to 32. -/
def clz32 (a : Word) : Word := BitVec.ofNat 32 (if a.toNat = 0 then 32 else 31 - Nat.log2 a.toNat)

/-- Table 06.3: a register operation writes `f` of its two operands. -/
def aluBody (u : Nat) (f : Word → Word → Word) (s : State) (i : InFlight) : Ret :=
  .done (writeS s u i (fRd i.word) (f (opA s u i) (opB s u i)))

/-- Table 06.3, ADD: a + b. -/
def execAdd (u t : Nat) (s : State) : Host.Outcome State Fault Refusal :=
  retire .add (aluBody u (fun a b => a + b)) u t s

/-- Table 06.3, SUB: a - b. -/
def execSub (u t : Nat) (s : State) : Host.Outcome State Fault Refusal :=
  retire .sub (aluBody u (fun a b => a - b)) u t s

/-- Table 06.3, AND: a &&& b. -/
def execAnd (u t : Nat) (s : State) : Host.Outcome State Fault Refusal :=
  retire .and (aluBody u (fun a b => a &&& b)) u t s

/-- Table 06.3, OR: a ||| b. -/
def execOr (u t : Nat) (s : State) : Host.Outcome State Fault Refusal :=
  retire .or (aluBody u (fun a b => a ||| b)) u t s

/-- Table 06.3, XOR: a ^^^ b. -/
def execXor (u t : Nat) (s : State) : Host.Outcome State Fault Refusal :=
  retire .xor (aluBody u (fun a b => a ^^^ b)) u t s

/-- Table 06.3, SHL: a <<< (b.toNat % 32). -/
def execShl (u t : Nat) (s : State) : Host.Outcome State Fault Refusal :=
  retire .shl (aluBody u (fun a b => a <<< (b.toNat % 32))) u t s

/-- Table 06.3, SHR: a >>> (b.toNat % 32). -/
def execShr (u t : Nat) (s : State) : Host.Outcome State Fault Refusal :=
  retire .shr (aluBody u (fun a b => a >>> (b.toNat % 32))) u t s

/-- Table 06.3, SRA: a.sshiftRight (b.toNat % 32). -/
def execSra (u t : Nat) (s : State) : Host.Outcome State Fault Refusal :=
  retire .sra (aluBody u (fun a b => a.sshiftRight (b.toNat % 32))) u t s

/-- Table 06.3, SLT: if a.slt b then 1 else 0. -/
def execSlt (u t : Nat) (s : State) : Host.Outcome State Fault Refusal :=
  retire .slt (aluBody u (fun a b => if a.slt b then 1 else 0)) u t s

/-- Table 06.3, SLTU: if a.ult b then 1 else 0. -/
def execSltu (u t : Nat) (s : State) : Host.Outcome State Fault Refusal :=
  retire .sltu (aluBody u (fun a b => if a.ult b then 1 else 0)) u t s

/-- Table 06.3, MIN: if a.slt b then a else b. -/
def execMin (u t : Nat) (s : State) : Host.Outcome State Fault Refusal :=
  retire .min (aluBody u (fun a b => if a.slt b then a else b)) u t s

/-- Table 06.3, MAX: if a.slt b then b else a. -/
def execMax (u t : Nat) (s : State) : Host.Outcome State Fault Refusal :=
  retire .max (aluBody u (fun a b => if a.slt b then b else a)) u t s

/-- Table 06.3, MINU: if a.ult b then a else b. -/
def execMinu (u t : Nat) (s : State) : Host.Outcome State Fault Refusal :=
  retire .minu (aluBody u (fun a b => if a.ult b then a else b)) u t s

/-- Table 06.3, MAXU: if a.ult b then b else a. -/
def execMaxu (u t : Nat) (s : State) : Host.Outcome State Fault Refusal :=
  retire .maxu (aluBody u (fun a b => if a.ult b then b else a)) u t s

/-- Table 06.3, MUL: a * b. -/
def execMul (u t : Nat) (s : State) : Host.Outcome State Fault Refusal :=
  retire .mul (aluBody u (fun a b => a * b)) u t s

/-- Table 06.3, MULH: BitVec.ofInt 32 (a.toInt * b.toInt / 2 ^ 32). -/
def execMulh (u t : Nat) (s : State) : Host.Outcome State Fault Refusal :=
  retire .mulh (aluBody u (fun a b => BitVec.ofInt 32 (a.toInt * b.toInt / 2 ^ 32))) u t s

/-- Table 06.3, MULHU: BitVec.ofNat 32 (a.toNat * b.toNat / 2 ^ 32). -/
def execMulhu (u t : Nat) (s : State) : Host.Outcome State Fault Refusal :=
  retire .mulhu (aluBody u (fun a b => BitVec.ofNat 32 (a.toNat * b.toNat / 2 ^ 32))) u t s

/-- Table 06.3, ADDS: BitVec.ofInt 32 (satI (a.toInt + b.toInt) (-2147483648) 2147483647). -/
def execAdds (u t : Nat) (s : State) : Host.Outcome State Fault Refusal :=
  retire .adds (aluBody u (fun a b => BitVec.ofInt 32 (satI (a.toInt + b.toInt) (-2147483648) 2147483647))) u t s

/-- Table 06.3, SUBS: BitVec.ofInt 32 (satI (a.toInt - b.toInt) (-2147483648) 2147483647). -/
def execSubs (u t : Nat) (s : State) : Host.Outcome State Fault Refusal :=
  retire .subs (aluBody u (fun a b => BitVec.ofInt 32 (satI (a.toInt - b.toInt) (-2147483648) 2147483647))) u t s

/-- Table 06.3, CLZ: clz32 a. -/
def execClz (u t : Nat) (s : State) : Host.Outcome State Fault Refusal :=
  retire .clz (aluBody u (fun a _b => clz32 a)) u t s

/-- Table 06.3, POPC: BitVec.ofNat 32 (popc 32 a.toNat). -/
def execPopc (u t : Nat) (s : State) : Host.Outcome State Fault Refusal :=
  retire .popc (aluBody u (fun a _b => BitVec.ofNat 32 (popc 32 a.toNat))) u t s

/-- Table 06.4: an immediate operation writes `f` of the first operand, the sign-extended and the zero-extended
immediate. -/
def immBody (u : Nat) (f : Word → Word → Word → Word) (s : State) (i : InFlight) : Ret :=
  .done (writeS s u i (fRd i.word) (f (opA s u i) (BitVec.ofInt 32 (sext 16 i.word)) (BitVec.ofNat 32 (fImm i.word))))

/-- Table 06.4, ADDI. -/
def execAddi (u t : Nat) (s : State) : Host.Outcome State Fault Refusal :=
  retire .addi (immBody u (fun a x _z => a + x)) u t s

/-- Table 06.4, ANDI. -/
def execAndi (u t : Nat) (s : State) : Host.Outcome State Fault Refusal :=
  retire .andi (immBody u (fun a _x z => a &&& z)) u t s

/-- Table 06.4, ORI. -/
def execOri (u t : Nat) (s : State) : Host.Outcome State Fault Refusal :=
  retire .ori (immBody u (fun a _x z => a ||| z)) u t s

/-- Table 06.4, XORI. -/
def execXori (u t : Nat) (s : State) : Host.Outcome State Fault Refusal :=
  retire .xori (immBody u (fun a _x z => a ^^^ z)) u t s

/-- Table 06.4, SLTI. -/
def execSlti (u t : Nat) (s : State) : Host.Outcome State Fault Refusal :=
  retire .slti (immBody u (fun a x _z => if a.slt x then 1 else 0)) u t s

/-- Table 06.4, SLTIU. -/
def execSltiu (u t : Nat) (s : State) : Host.Outcome State Fault Refusal :=
  retire .sltiu (immBody u (fun a x _z => if a.ult x then 1 else 0)) u t s

/-- Table 06.4, LUI. -/
def execLui (u t : Nat) (s : State) : Host.Outcome State Fault Refusal :=
  retire .lui (immBody u (fun _a _x z => z <<< 16)) u t s

/-- Table 06.4, SHLI. -/
def execShli (u t : Nat) (s : State) : Host.Outcome State Fault Refusal :=
  retire .shli (immBody u (fun a _x z => a <<< (z.toNat % 32))) u t s

/-- Table 06.4, SHRI. -/
def execShri (u t : Nat) (s : State) : Host.Outcome State Fault Refusal :=
  retire .shri (immBody u (fun a _x z => a >>> (z.toNat % 32))) u t s

/-- Table 06.4, SRAI. -/
def execSrai (u t : Nat) (s : State) : Host.Outcome State Fault Refusal :=
  retire .srai (immBody u (fun a _x z => a.sshiftRight (z.toNat % 32))) u t s

/-- Continues the thread at a program address (R166, R196). -/
def jumpTo (s : State) (u t pc : Nat) : State := modStn s u (fun x => modThr x t (fun h => { h with pc := pc % 2 ^ 14 }))

/-- Table 06.5: a conditional branch; the operands of format B stand in bits [25:21] and [20:16]. -/
def branchBody (u : Nat) (c : Word → Word → Bool) (s : State) (i : InFlight) : Ret :=
  if c (opD s u i) (opA s u i) then
    .done (jumpTo s u i.thread (((i.pc : Int) + sext 16 i.word) % 2 ^ 14).toNat)
  else .done (jumpTo s u i.thread (i.pc + 1))

/-- Table 06.5, BEQ. -/
def execBeq (u t : Nat) (s : State) : Host.Outcome State Fault Refusal :=
  retire .beq (branchBody u (fun a b => a == b)) u t s

/-- Table 06.5, BNE. -/
def execBne (u t : Nat) (s : State) : Host.Outcome State Fault Refusal :=
  retire .bne (branchBody u (fun a b => a != b)) u t s

/-- Table 06.5, BLT. -/
def execBlt (u t : Nat) (s : State) : Host.Outcome State Fault Refusal :=
  retire .blt (branchBody u (fun a b => a.slt b)) u t s

/-- Table 06.5, BGE. -/
def execBge (u t : Nat) (s : State) : Host.Outcome State Fault Refusal :=
  retire .bge (branchBody u (fun a b => !a.slt b)) u t s

/-- Table 06.5, BLTU. -/
def execBltu (u t : Nat) (s : State) : Host.Outcome State Fault Refusal :=
  retire .bltu (branchBody u (fun a b => a.ult b)) u t s

/-- Table 06.5, BGEU. -/
def execBgeu (u t : Nat) (s : State) : Host.Outcome State Fault Refusal :=
  retire .bgeu (branchBody u (fun a b => !a.ult b)) u t s

/-- Table 06.5, J. -/
def execJ (u t : Nat) (s : State) : Host.Outcome State Fault Refusal :=
  retire .j (fun s i => .done (jumpTo s u i.thread (bits i.word 13 0))) u t s

/-- Table 06.5, JR: bits [31:14] of the register are ignored. -/
def execJr (u t : Nat) (s : State) : Host.Outcome State Fault Refusal :=
  retire .jr (fun s i => .done (jumpTo s u i.thread (opA s u i).toNat)) u t s

/-- Pushes the return address and continues at a target (R172). -/
def pushCall (s : State) (u : Nat) (i : InFlight) (target : Nat) : State :=
  modStn s u (fun x => modThr x i.thread (fun h =>
    { h with stack := (i.pc + 1) % 2 ^ 14 :: h.stack, pc := target % 2 ^ 14 }))

/-- R174: a call with a full stack spills or takes STACK_LIMIT. -/
def callBody (u : Nat) (target : State → InFlight → Nat) (s : State) (i : InFlight) : Ret :=
  let h := thr (stn s u) i.thread
  if h.stack.length < 16 then .done (pushCall s u i (target s i))
  else if h.spill < 128 then .transient 1
  else .trap 4 s

/-- Targets of CALL and CALLR. -/
def callTarget (u : Nat) (s : State) (i : InFlight) : Nat :=
  if sop i.word = some .callr then (opA s u i).toNat else bits i.word 13 0

/-- Table 06.5, CALL. -/
def execCall (u t : Nat) (s : State) : Host.Outcome State Fault Refusal :=
  retire .call (callBody u (callTarget u)) u t s

/-- Table 06.5, CALLR. -/
def execCallr (u t : Nat) (s : State) : Host.Outcome State Fault Refusal :=
  retire .callr (callBody u (callTarget u)) u t s

/-- Pops the newest entry and continues at it (R172, R174). -/
def retBody (u : Nat) (s : State) (i : InFlight) : Ret :=
  let h := thr (stn s u) i.thread
  match h.stack with
  | e :: rest => .done (modStn s u (fun x => modThr x i.thread (fun h => { h with stack := rest, pc := e })))
  | [] => if 0 < h.spill then .transient 2 else .trap 5 s

/-- Table 06.5, RET. -/
def execRet (u t : Nat) (s : State) : Host.Outcome State Fault Refusal := retire .ret (retBody u) u t s

-- the trap context (R173 to R176)

/-- Where group `g` of a thread's spill region stands (R173). -/
def spillAddr (t g : Nat) : Nat := spillBase + t * 0x1000 + 32 * g

/-- The thread runs again and its trapped instruction retires. -/
def endTransient (s : State) (u t : Nat) (f : Thread → Thread) : State :=
  modStn s u (fun x => popFront (modThr x t (fun h => { f h with st := .run })) t)

/-- The words of a spill group, oldest first. -/
def groupWords (bs : List Byte) : List Nat := (List.range 8).map (fun k => leNat ((bs.drop (4 * k)).take 4) % 2 ^ 14)

/-- R174, CALL_SPILL: the 8 oldest entries become group SPILL_CNT, and the call retires. -/
def serveSpill (s : State) (u t : Nat) (i : InFlight) : State :=
  let h := thr (stn s u) t
  let old := (h.stack.drop 8).reverse
  let s := (cistWrite s u (spillAddr t h.spill) (old.flatMap (leBytes 4))).1
  let target := callTarget u s i
  endTransient s u t (fun h =>
    { h with stack := (i.pc + 1) % 2 ^ 14 :: h.stack.take 8, spill := h.spill + 1, pc := target % 2 ^ 14 })

/-- R174, RET_FILL: group SPILL_CNT − 1 returns, and the return retires; an uncorrectable word ends it with the fatal
trap CISTERN_UE, SPILL_CNT and the stack kept. -/
def serveFill (s : State) (u t : Nat) (i : InFlight) : State :=
  let h := thr (stn s u) t
  let r := cistRead s u (spillAddr t (h.spill - 1)) 32 5
  match r.2 with
  | none => fatalTrap r.1 u t i.pc 8
  | some bs =>
    let es := (groupWords bs).reverse
    endTransient r.1 u t (fun h => { h with stack := es.drop 1, spill := h.spill - 1, pc := es.headD 0 })

/-- R176: the trap context serves the oldest transient trap. -/
def execTrapService (u : Nat) (s : State) : Host.Outcome State Fault Refusal :=
  match (stn s u).trapQ with
  | [] => .next s
  | t :: rest =>
    match front (stn s u) t with
    | none => .next s
    | some i =>
      let s' := modStn s u (fun x => { x with trapQ := rest })
      guard s (isResident s u && !(stn s u).inReset && (thr (stn s u) t).st == .trapped)
        (if (thr (stn s u) t).cause = 1 then serveSpill s' u t i else serveFill s' u t i)

-- cistern loads and stores (R167, R197, R198)

/-- The address of a load or store (R197). -/
def memAddr (s : State) (u : Nat) (i : InFlight) : Nat := (opA s u i + BitVec.ofInt 32 (sext 16 i.word)).toNat

/-- A load: `f` extends the bytes read. -/
def loadBody (u n : Nat) (f : Nat → Word) (s : State) (i : InFlight) : Ret :=
  let a := memAddr s u i
  if !inGeneral a n || a % n != 0 then .trap 6 s
  else
    let r := cistRead s u a n 2
    match r.2 with
    | none => .trap 8 r.1
    | some bs => .done (writeS r.1 u i (fRd i.word) (f (leNat bs)))

/-- A store of the low `n` bytes of the source register. -/
def storeBody (u n : Nat) (s : State) (i : InFlight) : Ret :=
  let a := memAddr s u i
  if !inGeneral a n || a % n != 0 then .trap 6 s
  else
    let r := cistWrite s u a (leBytes n (opD s u i).toNat)
    if r.2 then .done (chainTouch r.1 u u a n) else .trap 8 r.1

/-- Table 06.6, LW. -/
def execLw (u t : Nat) (s : State) : Host.Outcome State Fault Refusal :=
  retire .lw (loadBody u 4 (BitVec.ofNat 32)) u t s
/-- Table 06.6, LH. -/
def execLh (u t : Nat) (s : State) : Host.Outcome State Fault Refusal :=
  retire .lh (loadBody u 2 (fun x => BitVec.ofInt 32 (sext 16 x))) u t s
/-- Table 06.6, LHU. -/
def execLhu (u t : Nat) (s : State) : Host.Outcome State Fault Refusal :=
  retire .lhu (loadBody u 2 (BitVec.ofNat 32)) u t s
/-- Table 06.6, LB. -/
def execLb (u t : Nat) (s : State) : Host.Outcome State Fault Refusal :=
  retire .lb (loadBody u 1 (fun x => BitVec.ofInt 32 (sext 8 x))) u t s
/-- Table 06.6, LBU. -/
def execLbu (u t : Nat) (s : State) : Host.Outcome State Fault Refusal :=
  retire .lbu (loadBody u 1 (BitVec.ofNat 32)) u t s
/-- Table 06.6, SW. -/
def execSw (u t : Nat) (s : State) : Host.Outcome State Fault Refusal := retire .sw (storeBody u 4) u t s
/-- Table 06.6, SH. -/
def execSh (u t : Nat) (s : State) : Host.Outcome State Fault Refusal := retire .sh (storeBody u 2) u t s
/-- Table 06.6, SB. -/
def execSb (u t : Nat) (s : State) : Host.Outcome State Fault Refusal := retire .sb (storeBody u 1) u t s

-- events (R169 to R171, R199, R200)

/-- The condition of an event wait (R171). -/
def waitTrue (x : Station) (e : Nat) (target : Word) : Bool := decide (0 ≤ (evGet x e - target).toInt)

/-- EWAIT: retires when its condition holds, else the thread waits at it (R171). -/
def ewaitBody (u : Nat) (s : State) (i : InFlight) : Ret :=
  let e := fRd i.word
  let v := opA s u i
  if waitTrue (stn s u) e v then .done (modStn s u (fun x => chainSeen x e))
  else .hold (modStn s u (fun x => modThr x i.thread (fun h =>
    { h with st := .wait, waitEv := e, waitTarget := v.toNat })))

/-- Table 06.7, EWAIT. -/
def execEwait (u t : Nat) (s : State) : Host.Outcome State Fault Refusal := retire .ewait (ewaitBody u) u t s

/-- R183: the stuck condition does not hold, and its count restarts. -/
def notStuck (x : Station) : Station := { x with deadCnt := 0, deadLim := 0 }

/-- R171: a waiting thread whose condition holds returns to RUN, and its EWAIT retires. -/
def execWaitWake (u t : Nat) (s : State) : Host.Outcome State Fault Refusal :=
  let x := stn s u
  let h := thr x t
  guard s (unitRuns s u && h.st == .wait && waitTrue x h.waitEv (BitVec.ofNat 32 h.waitTarget))
    (modStn s u (fun x => popFront (modThr (notStuck (chainSeen x h.waitEv)) t (fun h => { h with st := .run })) t))

/-- Table 06.7, ESIG: adds 1 to 255; 0 is illegal. -/
def execEsig (u t : Nat) (s : State) : Host.Outcome State Fault Refusal :=
  retire .esig (fun s i =>
    let n := bits i.word 15 8
    if n = 0 then .trap 3 s else .done (modStn s u (fun x => evAdd x (fRd i.word) n))) u t s

/-- Table 06.7, ESET. -/
def execEset (u t : Nat) (s : State) : Host.Outcome State Fault Refusal :=
  retire .eset (fun s i => .done (modStn s u (fun x => evSet x (fRd i.word) (opA s u i)))) u t s

/-- Table 06.7, ERD. -/
def execErd (u t : Nat) (s : State) : Host.Outcome State Fault Refusal :=
  retire .erd (fun s i => .done (writeS s u i (fRa i.word) (evGet (stn s u) (fRd i.word)))) u t s

/-- Whether RSIG's operand names a work unit with a host (R199). -/
def rsigTarget (s : State) (v : Nat) : Bool :=
  v < 256 && (if v.testBit 7 then s.paired && peerHosts s (v % 128) else (hostOf s (v % 128)).isSome)

/-- RSIG (R170, R199): the signal enters the outbound queue, or is held while that holds 8. -/
def rsigBody (u : Nat) (s : State) (i : InFlight) : Ret :=
  let v := (opA s u i).toNat
  if fRd i.word < 16 then .trap 3 s
  else if !rsigTarget s v then .trap 9 s
  else if 8 ≤ (stn s u).outq.length then .hold s
  else .done (modStn s u (fun x => { x with outq := x.outq ++ [⟨u, v % 128, v.testBit 7, fRd i.word⟩] }))

/-- Table 06.7, RSIG. -/
def execRsig (u t : Nat) (s : State) : Host.Outcome State Fault Refusal := retire .rsig (rsigBody u) u t s

-- system instructions (R158, R210, R224, R225)

/-- Parks a thread with a saved PC; its younger instructions are discarded, and held program writes are applied once
every thread is stopped (R158, R179). -/
def parkAt (s : State) (u t pc : Nat) : State :=
  modStn (stepEnd s u t) u (fun x => pmFlush (flush (modThr x t (fun h => { h with st := .parked, pc := pc % 2 ^ 14 })) t))

/-- Table 06.18, NOP. -/
def execNop (u t : Nat) (s : State) : Host.Outcome State Fault Refusal := retire .nop (fun s _ => .done s) u t s

/-- Table 06.18, PARK. -/
def execPark (u t : Nat) (s : State) : Host.Outcome State Fault Refusal :=
  retire .park (fun s i => .done (parkAt s u i.thread (i.pc + 1))) u t s

/-- Table 06.18, BRK: PARK when breakpoints are armed, reporting the thread; NOP otherwise (R224). -/
def execBrk (u t : Nat) (s : State) : Host.Outcome State Fault Refusal :=
  retire .brk (fun s i =>
    if (stn s u).brkArmed then
      .done (modStn (parkAt s u i.thread (i.pc + 1)) u (fun x => { x with brkHit := x.brkHit ++ [i.thread] }))
    else .done s) u t s

/-- Table 06.19: the special registers; none for an illegal number. -/
def specialReg (s : State) (u t n : Nat) : Option Nat :=
  let h := thr (stn s u) t
  match n with
  | 0 => some t
  | 1 => some u
  | 2 => some h.vl
  | 3 => some (vlanes s)
  | 4 => some (s.cyc % 2 ^ 32)
  | 5 => some (h.latchCycle / 2 ^ 32 % 2 ^ 32)
  | 6 => some h.spill
  | _ => none

/-- RDSR (R225); CYCLE_LO latches the whole count. -/
def rdsrBody (u : Nat) (s : State) (i : InFlight) : Ret :=
  match specialReg s u i.thread (fRb i.word) with
  | none => .trap 3 s
  | some v =>
    let s := if fRb i.word = 4 then
        modStn s u (fun x => modThr x i.thread (fun h => { h with latchCycle := s.cyc }))
      else s
    .done (writeS s u i (fRd i.word) (BitVec.ofNat 32 v))

/-- Table 06.18, RDSR. -/
def execRdsr (u t : Nat) (s : State) : Host.Outcome State Fault Refusal := retire .rdsr (rdsrBody u) u t s

/-- Table 06.18, SETVL: VL and s[rd] become min(s[ra], 64) (R210). -/
def execSetvl (u t : Nat) (s : State) : Host.Outcome State Fault Refusal :=
  retire .setvl (fun s i =>
    let v := min (opA s u i).toNat 64
    let s := modStn s u (fun x => modThr x i.thread (fun h => { h with vl := v }))
    .done (writeS s u i (fRd i.word) (BitVec.ofNat 32 v))) u t s

-- chain status (R204, R305)

/-- Table 06.10, CPOS. -/
def execCpos (u t : Nat) (s : State) : Host.Outcome State Fault Refusal :=
  retire .cpos (fun s i =>
    let x := stn s u
    let p := match chainOf x i.thread with | some c => c.pos | none => (thr x i.thread).chainPos
    .done (writeS s u i (fRd i.word) (BitVec.ofNat 32 p))) u t s

/-- Table 06.10, CSTAT: RUNNING while a chain is in flight (Table 09.12). -/
def execCstat (u t : Nat) (s : State) : Host.Outcome State Fault Refusal :=
  retire .cstat (fun s i =>
    let x := stn s u
    let c := match chainOf x i.thread with | some _ => 0x7F | none => (thr x i.thread).chainStat
    .done (writeS s u i (fRd i.word) (BitVec.ofNat 32 c))) u t s

end Sys2Proof.Machine
end

