-- ==== Sys2Proof/Machine/Ncu.lean ====
section
/-! DEFINITION. Machine/Ncu.lean: the conversion unit of chapter 03: the control word and its refusals, learned
tables, the conversion of a run of elements, statistics and slots, the step boundary, and the rows PSETW, SLOTW,
SLOTR, NCUCNT, STEPCLOSE and STEP_BOUNDARY. -/

namespace Sys2Proof.Machine

-- the control word (Table 03.4)
def cwGin (c : Nat) : Nat := bits c 2 0
def cwGout (c : Nat) : Nat := bits c 5 3
def cwSlotIn (c : Nat) : Nat := bits c 11 6
def cwSlotOut (c : Nat) : Nat := bits c 17 12
/-- Row-block length in elements. -/
def cwBlk (c : Nat) : Nat := (bits c 23 18 + 1) * 32
def cwStat (c : Nat) : Bool := c.testBit 24
def cwClipEn (c : Nat) : Bool := c.testBit 25
def cwPset (c : Nat) : Nat := bits c 28 26
def cwReq (c : Nat) : Bool := c.testBit 29
def cwCarry (c : Nat) : Bool := c.testBit 30
def cwPrev (c : Nat) : Bool := c.testBit 31
def cwClip (c : Nat) : Val := bf16 (bits c 47 32)
def cwZpOut (c : Nat) : Nat := bits c 55 48
def cwZpIn (c : Nat) : Nat := bits c 63 56

/-- A conversion: its formats, control word and parameter set as latched (R87), and whether the egress NCU makes it. -/
structure Conv where
  sf : Fmt
  df : Fmt
  cw : Nat
  ps : PSet
  egress : Bool
  deriving DecidableEq, Repr

/-- R66, R81: an identity copy: equal formats, and a control word that requests no scale, zero-point change, clip,
statistic or requantisation (log entry 25: also where fields that request nothing are not zero). -/
def Conv.identity (c : Conv) : Bool :=
  c.sf == c.df && cwGin c.cw == 0 && cwGout c.cw == 0 && !cwStat c.cw && !cwClipEn c.cw && !cwReq c.cw && !cwCarry c.cw &&
  (!hasZp c.sf || zpOf c.sf (cwZpIn c.cw) == zpOf c.df (cwZpOut c.cw))
/-- Conversions whose element data is copied: identity copies and CARRY (R81, R94). -/
def Conv.copies (c : Conv) : Bool := c.identity || cwCarry c.cw

/-- Formats a GTENSOR grain may accompany (Table 03.5). -/
def tensorFmt : Fmt → Bool
  | .e4m3 | .e5m2 | .int16 | .int8 | .int4 | .uint8 | .u4 | .n4 => true
  | _ => false

/-- Table 03.5: whether a grain accompanies a format. -/
def grainFmt (g : Nat) (f : Fmt) : Bool :=
  match g with
  | 0 => !isMx f && f != .rb8
  | 1 => isMx f
  | 2 => f == .rb8
  | 3 => tensorFmt f
  | 4 => !isMx f && f != .rb8
  | _ => false

/-- Formats an integer requantisation may target (Table 03.7). -/
def reqFmt : Fmt → Bool
  | .int16 | .int8 | .int4 | .uint8 | .u4 => true
  | _ => false

-- tables in the cistern (R92, R107, R220, R254)

/-- Size of a learned-scale entry; LS_BASE read with its low bits cleared to it (R220). -/
def lsSize (p : PSet) : Nat := if p.lsFmt = 1 then 4 else 2
def lsBase (p : PSet) : Nat := p.lsBase / lsSize p * lsSize p
/-- Entries per row of length `d0` (R92). -/
def lsPerRow (p : PSet) (d0 : Nat) : Nat := if p.lsKind = 0 then 1 else ceilDiv d0 (64 * p.lsKind)
/-- Index of the entry of element `j` of row `r`. -/
def lsIndex (p : PSet) (d0 r j : Nat) : Nat := if p.lsKind = 0 then r else r * lsPerRow p d0 + j / (64 * p.lsKind)
/-- The per-row requantisation table, of 8-byte entries. -/
def reqBase (p : PSet) : Nat := p.lsBase / 8 * 8

/-- Whether a conversion reads the learned table. -/
def Conv.learned (c : Conv) : Bool := cwGin c.cw == 4 || cwGout c.cw == 4

/-- The last condition of Table 03.7: a table over `rows` rows of `d0` elements reaches outside general storage. -/
def tableOut (c : Conv) (rows d0 : Nat) : Bool :=
  let n := rows * lsPerRow c.ps d0
  (c.learned && (!inGeneral (lsBase c.ps) (n * lsSize c.ps) ||
    (c.ps.lzEn == 1 && !inGeneral c.ps.lzBase n) ||
    (((cwGin c.cw == 4 && c.sf == .n4) || (cwGout c.cw == 4 && c.df == .n4)) &&
      (decide (lsBase c.ps < 16) || !inGeneral (lsBase c.ps - 16) 16)))) ||
  (cwReq c.cw && c.ps.reqTab == 1 && !inGeneral (reqBase c.ps) (rows * 8))

/-- Table 03.7, but for the table ranges: whether a control word is refused. `x` holds the slots; `toTrf` names the
cistern-to-TRF edge. -/
def Conv.refused (c : Conv) (x : Station) (toTrf : Bool) : Bool :=
  let w := c.cw
  (decide (4 < cwGin w) || decide (4 < cwGout w)) ||
  (!c.identity && (!grainFmt (cwGin w) c.sf || !grainFmt (cwGout w) c.df)) ||
  (cwGout w == 3 && (tabGet {} x.slots (cwSlotOut w)).fmt != fmtCode c.df) ||
  (cwGin w == 3 && (tabGet {} x.slots (cwSlotIn w)).fmt != fmtCode c.sf) ||
  (cwClipEn w && (match cwClip w with | .fin false n _ => n == 0 | _ => true)) ||
  (cwReq w && (c.sf != .int32 || cwGin w != 0 || cwGout w != 0 || !reqFmt c.df || cwClipEn w)) ||
  (c.ps.lsKind == 3 && (c.learned || (c.ps.reqTab == 1 && cwReq w))) ||
  (cwCarry w && (!toTrf || cwGin w != 4 || c.sf != c.df))

/-- The learned entries, zero points and level table that a run of one row needs: the index of the first entry, the
entries' codes, their zero points, and the level table. -/
structure Tables where
  first : Nat := 0
  ents : List Nat := []
  zps : List Nat := []
  level : List Nat := n4Default
  reqM : Nat := 0
  reqS : Nat := 0
  deriving DecidableEq, Repr

/-- Cuts bytes into little-endian entries of `k` bytes. -/
def entries (k : Nat) (bs : List Byte) : List Nat :=
  (List.range (bs.length / k)).map (fun i => leNat ((bs.drop (k * i)).take k))

/-- Reads a table's bytes, or none where a word is uncorrectable. -/
def tableRead (s : State) (u a n acc : Nat) (need : Bool) : State × Option (List Byte) :=
  if need then cistRead s u a n acc else (s, some [])

/-- Reads the tables for elements `[j, j+n)` of row `r` of length `d0`; none where a word is uncorrectable. -/
def readTables (s : State) (u : Nat) (c : Conv) (d0 r j n acc : Nat) : State × Option Tables :=
  let p := c.ps
  let i0 := lsIndex p d0 r j
  let k := lsIndex p d0 r (j + n - 1) + 1 - i0
  let ls := tableRead s u (lsBase p + i0 * lsSize p) (k * lsSize p) acc c.learned
  let lz := tableRead ls.1 u (p.lzBase + i0) k acc (c.learned && p.lzEn == 1)
  let n4 := (cwGin c.cw == 4 && c.sf == .n4) || (cwGout c.cw == 4 && c.df == .n4)
  let lv := tableRead lz.1 u (lsBase p - 16) 16 acc n4
  let rq := tableRead lv.1 u (reqBase p + r * 8) 8 acc (cwReq c.cw && p.reqTab == 1)
  match ls.2, lz.2, lv.2, rq.2 with
  | some a, some b, some l, some q =>
    let e := leNat q
    (rq.1, some {
      first := i0, ents := entries (lsSize p) a, zps := b.map (·.toNat),
      level := if n4 then l.map (·.toNat) else n4Default,
      reqM := if p.reqTab = 1 then bits e 30 0 else p.reqM,
      reqS := if p.reqTab = 1 then min (bits e 37 32) 62 else p.reqS })
  | _, _, _, _ => (rq.1, none)

/-- The learned scale of element `j`, and its zero point. -/
def Tables.scale (t : Tables) (p : PSet) (d0 r j : Nat) : Val :=
  let e := t.ents.getD (lsIndex p d0 r j - t.first) 0
  if p.lsFmt = 1 then f32 e else bf16 e
def Tables.zp (t : Tables) (p : PSet) (d0 r j : Nat) : Nat := t.zps.getD (lsIndex p d0 r j - t.first) 0

-- converting a run of elements (R80)

/-- What one element adds to the counters (R98, R100, R108): whether it was non-finite, whether it saturated, and its
decoded value. -/
structure Tally where
  nf : Bool
  sat : Bool
  val : Val
  deriving DecidableEq, Repr

/-- The result of a run: target codes, scale-plane entries, and what was gathered, element by element. -/
structure ConvOut where
  codes : List Nat := []
  scales : List Nat := []
  els : List Tally := []
  deriving DecidableEq, Repr

def ConvOut.nf (o : ConvOut) : Nat := (o.els.filter (·.nf)).length
def ConvOut.sat (o : ConvOut) : Nat := (o.els.filter (fun e => !e.nf && e.sat)).length
def ConvOut.mag (o : ConvOut) : Nat × Nat := maxFinite (o.els.map (·.val))
def ConvOut.anyFin (o : ConvOut) : Bool := o.els.any (fun e => e.val.isFin)

/-- Cuts a list into pieces of `n`. -/
def chunks {α : Type} (n : Nat) : Nat → List α → List (List α)
  | 0, _ => []
  | _, [] => []
  | f + 1, l => l.take n :: chunks n f (l.drop n)

/-- R90: the FP32 scale code of a row block whose largest finite magnitude is `m`. -/
def growScale (m : Nat × Nat) : Nat :=
  let big := (f32 0x7F7FFFFF).mag
  let m := if big.1 * m.2 < m.1 * big.2 then big else m
  if m.1 = 0 then 0x3F800000 else max 1 (toF32 (.fin false m.1 (m.2 * 127)))

/-- R107: integer requantisation of `a`. Where lo is above hi every output is hi; a hi that the target cannot hold has no
code, and the manual states none: it is a free value (log entry 18). -/
def requant (f : Fmt) (p : PSet) (m sh : Nat) (a : Int) : Enc :=
  let zp : Int := if hasZp f then zpOf f p.reqZp else 0
  let r := intRange f
  let lo := max (sext 16 p.reqLo) r.1
  let hi := min (sext 16 p.reqHi) r.2
  let y := rnaShift (a * m) sh + zp
  let z := if hi < lo then hi else satI y lo hi
  ⟨if hi < r.1 then Config.reqUnfit p.reqLo p.reqHi y % 2 ^ ebits f else unsigned (ebits f) z, z != y⟩

/-- Encodes one scale block of decoded values: target scale `t` (none: the NaN result of R93). -/
def encOne (c : Conv) (clip : Option Val) (zp : Nat) (level : List Nat) (v : Val) (t : Option Val) : Enc × Bool :=
  match t with
  | none => (⟨nanOf c.df zp, false⟩, true)
  | some sc => (encElem c.df zp level clip (vDiv v sc), !v.isFin)

/-- R80: converts decoded values, given per element the target scale and zero point of grains NONE, GTENSOR and
GLEARNED. The run starts at a block boundary for G32 and GROW targets (R149). -/
def encRun (c : Conv) (level : List Nat) (vs : List Val) (tgt : List (Option Val × Nat)) : List (Enc × Bool) × List Nat :=
  let clip := if cwClipEn c.cw then some (cwClip c.cw) else none
  match cwGout c.cw with
  | 1 =>
    let bs := chunks 32 (vs.length + 1) vs
    let es := bs.map (fun b => mxExp c.df (maxFinite b))
    ((bs.zip es).flatMap (fun p => p.1.map (fun v => encOne c clip 0 level v (some (vPow2 p.2)))),
     es.map (fun e => (e + 127).toNat))
  | 2 =>
    let bs := chunks (cwBlk c.cw) (vs.length + 1) vs
    let es := bs.map (fun b => growScale (maxFinite b))
    ((bs.zip es).flatMap (fun p => p.1.map (fun v => encOne c clip 0 level v (some (f32 p.2)))), es)
  | _ => ((vs.zip tgt).map (fun p => encOne c clip p.2.2 level p.1 p.2.1), [])

/-- The exponent of a slot as a value (R95). -/
def slotScale (x : Slot) (prev : Bool) : Val := vPow2 (((if prev then x.ePrev else x.e) : Int) - 127)

/-- The target scale and zero point of element `j` (R84, R92, R93, R95, R106). -/
def tgtOf (c : Conv) (x : Station) (t : Tables) (d0 r j : Nat) : Option Val × Nat :=
  match cwGout c.cw with
  | 3 => let sl := tabGet {} x.slots (cwSlotOut c.cw); (some (slotScale sl false), sl.zp)
  | 4 =>
    let sc := t.scale c.ps d0 r j
    ((match sc with | .fin false n _ => if n = 0 then none else some sc | _ => none),
      if c.ps.lzEn = 1 then t.zp c.ps d0 r j else 0)
  | _ => (some vOne, cwZpOut c.cw)

/-- The source scale and zero point of element `j` for the grains that do not travel in a scale plane. -/
def srcOf (c : Conv) (x : Station) (t : Tables) (d0 r j : Nat) : Val × Nat :=
  match cwGin c.cw with
  | 3 => let sl := tabGet {} x.slots (cwSlotIn c.cw); (slotScale sl (cwPrev c.cw), sl.zp)
  | 4 => (t.scale c.ps d0 r j, if c.ps.lzEn = 1 then t.zp c.ps d0 r j else 0)
  | _ => (vOne, cwZpIn c.cw)

/-- Level table of a side: the tensor's own for grain GLEARNED, the default otherwise (R254). -/
def levelOf (g : Nat) (t : Tables) : List Nat := if g = 4 then t.level else n4Default

/-- Converts the elements `[j, j + codes.length)` of row `r`. `plane` gives the scale of an element of an MX or RB8
source; the first `skip` elements belong to an earlier block and are neither counted nor measured. With `undef`, the
decoded values are undefined (R91): they are free, by that generation and their place. -/
def convRun (c : Conv) (x : Station) (t : Tables) (d0 r j skip : Nat) (codes : List Nat) (plane : Nat → Val)
    (undef : Option Nat := none) : ConvOut :=
  let js := (List.range codes.length).map (· + j)
  let vs := (codes.zip js).map (fun p =>
    match undef with
    | some g => f32 (Config.freeNat g p.2 % 2 ^ 32)
    | none =>
      let sz := srcOf c x t d0 r p.2
      let sc := if isMx c.sf || c.sf == .rb8 then plane p.2 else sz.1
      applyScale (decElem c.sf sz.2 (levelOf (cwGin c.cw) t) p.1) sc)
  let es : List (Enc × Bool) × List Nat :=
    if cwReq c.cw then ((codes.map (fun a => (requant c.df c.ps t.reqM t.reqS (sext 32 a), false))), [])
    else encRun c (levelOf (cwGout c.cw) t) vs (js.map (fun k => tgtOf c x t d0 r k))
  { codes := es.1.map (fun e => e.1.code), scales := es.2,
    els := ((es.1.zip vs).drop skip).map (fun p => ⟨p.1.2, p.1.1.sat, p.2⟩) }

-- counters and slots (R98, R100, R108)

/-- RNA to FP32 of a magnitude, as a code; beyond FP32 the largest finite. -/
def magCode (m : Nat × Nat) : Nat := min (encMag fp32Spec m.1 m.2) 0x7F7FFFFF

/-- Adds a run's gatherings to a slot (R100). -/
def slotGather (sl : Slot) (o : ConvOut) : Slot :=
  { sl with stepMax := max sl.stepMax (magCode o.mag), stepValid := sl.stepValid || o.anyFin, used := true,
            stepSat := stick 0xFFFFFF (sl.stepSat + o.sat), nfCnt := stick32 sl.nfCnt o.nf }

/-- Whether a conversion names a slot with its target, and with its source (R100). CARRY and identity copies name
none. -/
def Conv.slotOut (c : Conv) : Bool := !c.copies && (cwGout c.cw == 3 || cwStat c.cw)
def Conv.slotIn (c : Conv) : Bool := !c.copies && cwGin c.cw == 3
def Conv.namesSlot (c : Conv) : Bool := c.slotOut || c.slotIn

/-- Adds a run to the NCU's counters and the slots it names (R98, R100, R108). The counters stand with the work unit, as
its sets and slots do (log entry 26). -/
def gather (x : Station) (c : Conv) (o : ConvOut) : Station :=
  if c.copies then x
  else
    let n := b2n c.egress
    let x := { x with nf := tabSet 0 x.nf n (stick32 (tabGet 0 x.nf n) o.nf),
                      sat := tabSet 0 x.sat n (stick32 (tabGet 0 x.sat n) o.sat),
                      nfDue := x.nfDue + o.nf, satDue := x.satDue + o.sat }
    let x := if c.slotIn then
        { x with slots := tabMod {} x.slots (cwSlotIn c.cw) (fun sl => { sl with used := true }) } else x
    if c.slotOut then { x with slots := tabMod {} x.slots (cwSlotOut c.cw) (fun sl => slotGather sl o) } else x

-- the step boundary (R101 to R103)

/-- Table 03.8, as a value. -/
def qmax (f z : Nat) : Nat :=
  match f with
  | 0x03 => 448
  | 0x04 => 57344
  | 0x06 => 32767
  | 0x07 => 127
  | 0x09 => 7
  | 0x08 => let z := z % 256; if z = 0 ∨ z = 255 then 255 else min z (255 - z)
  | 0x0A => let z := z % 16; if z = 0 ∨ z = 15 then 15 else min z (15 - z)
  | _ => 63

/-- Smallest E with h ≤ q × 2^E, for h an FP32 code of a positive value. -/
def ceilLog2Ratio (h q : Nat) : Int :=
  let m := (f32 h).mag
  let e := floorLog2 m.1 (m.2 * q)
  let p := scale2 q 1 e
  if m.1 * p.2 ≤ p.1 * m.2 then e else e + 1

/-- `slot_close_step` of R101, for one slot; also whether CAL_MISFIT is raised (R102). -/
def slotClose (thresh under : Nat) (sl : Slot) : Slot × Bool :=
  if !sl.used then (sl, false)
  else
    let e : Int := (sl.e : Int) - 127
    let q := qmax sl.fmt sl.zp
    let hist := if sl.stepValid then (sl.stepMax :: sl.hist).take sl.hlen else sl.hist
    let misfit := decide (thresh < sl.stepSat)
    let hmax := hist.foldl max 0
    let eUp := if 0 < hmax then max e (ceilLog2Ratio hmax q + sl.hr) else e
    let low := vLt (f32 sl.stepMax) (vMul (vInt q) (vPow2 (e - 1)))
    let uc := stick 0xFFFF (sl.underCnt + 1)
    let r : Int × Nat :=
      if misfit then (eUp, 0)
      else if sl.stepValid then
        (if low then (if under ≤ uc then (e - 1, 0) else (e, uc)) else (e, 0))
      else (e, sl.underCnt)
    ({ sl with ePrev := sl.e, hist := hist, satCnt := stick32 sl.satCnt sl.stepSat, underCnt := r.2,
               e := (satI r.1 (-127) 127 + 127).toNat, stepMax := 0, stepValid := false, used := false, stepSat := 0,
               misfitCnt := if misfit then stick 0xFFFF (sl.misfitCnt + 1) else sl.misfitCnt }, misfit)

/-- R102: what raising CAL_MISFIT does beyond the slot. -/
def raiseMisfit (s : State) (u k : Nat) : State :=
  let s := addReg s Reg.misfitCnt 1
  setEvt (setReg s Reg.misfitLast (lstn s u * 65536 + k)) 1

/-- Closes the listed slots in order (R101 step 2). -/
def closeSlots (s : State) (u : Nat) : List (Nat × Slot) → State
  | [] => s
  | (k, sl) :: t =>
    let r := slotClose (reg s Reg.satThresh) (reg s Reg.underSteps) sl
    let s := modStn s u (fun x => { x with slots := tabPut x.slots k r.1 })
    closeSlots (if r.2 then raiseMisfit s u k else s) u t

/-- R103, R221: one pending configuration write, its value already clamped. -/
def slotWrite (sl : Slot) (field v : Nat) : Slot :=
  match field with
  | 0 => { sl with fmt := v, hist := [], underCnt := 0 }
  | 1 => { sl with zp := v, hist := [], underCnt := 0 }
  | 2 => { sl with hlen := v, hist := sl.hist.take v }
  | 3 => { sl with hr := v }
  | _ => { sl with e := v }

/-- Table 03.9 and R221: the value a slot field stores. -/
def slotClamp (field v : Nat) : Nat :=
  match field with
  | 0 => match fmtOf v with
    | some f => if tensorFmt f then v else 7
    | none => 7
  | 1 => v % 256
  | 2 => if v = 0 then 1 else min v 16
  | 3 => min v 3
  | _ => min (v % 256) 0xFE

/-- Applies pending writes in order; of several to one field of a slot only the last (R103, R221). -/
def applyPend (x : Station) : List (Nat × Nat × Nat) → Station
  | [] => x
  | (k, f, v) :: t =>
    if t.any (fun p => p.1 == k && p.2.1 == f) then applyPend x t
    else applyPend { x with slots := tabMod {} x.slots k (fun sl => slotWrite sl f v) } t

/-- R108: the hub adds an NCU's increments since the last boundary. -/
def sumNcu (s : State) (u : Nat) : State :=
  let x := stn s u
  let s := addReg64 (addReg64 s Reg.calNfLo x.nfDue) Reg.calSatLo x.satDue
  modStn s u (fun x => { x with nfDue := 0, satDue := 0 })

/-- R101: the step boundary of a work unit. -/
def boundary (s : State) (u : Nat) : State :=
  let s := closeSlots s u (stn s u).slots
  let s := modStn s u (fun x =>
    let x := applyPend { x with slotPend := [] } x.slotPend
    { x with slotSnap := x.slots })
  sumNcu s u

/-- Formats of a descriptor, and its control word (Table 04.4). -/
def dSrcFmt (d : Nat) : Nat := bits d 12 8
def dDstFmt (d : Nat) : Nat := bits d 17 13
def dNcu (d : Nat) : Nat := d / 2 ^ 448

/-- Whether a latched conversion of a channel names a slot. -/
def chanSlot (c : Chan) : Bool :=
  match c.active with
  | some a => (match a.latched with
    | some (w, p) => match fmtOf (dSrcFmt a.raw), fmtOf (dDstFmt a.raw) with
      | some sf, some df => Conv.namesSlot ⟨sf, df, w, p, false⟩
      | _, _ => false
    | none => false)
  | none => false

/-- Whether a chain's epilogue has begun, names a slot, and has a tile still to begin (R223: one conversion from its first
output tile to its last; R306: a chain that is to abort begins no further tile). -/
def chainSlot (c : ChainRec) : Bool :=
  (match c.latched with
   | some (w, _) => cwGout w == 3 || cwStat w
   | none => false) &&
  c.ended.isNone && !c.abort && decide (c.pos + b2n (!c.sip.tiles.isEmpty) < cTiles c.raw)

/-- R101 step 1: a conversion that names a slot is in flight in the station. -/
def slotInFlight (x : Station) : Bool := x.chans.any (fun p => chanSlot p.2) || x.chains.any chainSlot

/-- The thread of the oldest held STEPCLOSE other than `t` (R223: closes of different threads follow one another). -/
def nextClose (x : Station) (t : Nat) : Option (Nat × Bool) :=
  ((x.pipe.find? (fun i => i.held && i.thread != t && sop i.word == some .stepclose)).map (·.thread)).map (·, false)

/-- STEPCLOSE (R223): handed off at retirement, and held until its boundary is made. -/
def stepcloseBody (u : Nat) (s : State) (i : InFlight) : Ret :=
  match (stn s u).closing with
  | some (t, true) =>
    if t = i.thread then .done (modStn s u (fun x => { x with closing := nextClose x t })) else .hold s
  | some (_, false) => .hold s
  | none => .hold (modStn s u (fun x => { x with closing := some (i.thread, false) }))

/-- Table 06.16, STEPCLOSE. -/
def execStepclose (u t : Nat) (s : State) : Host.Outcome State Fault Refusal := retire .stepclose (stepcloseBody u) u t s

/-- R101, R223: the boundary is made once no conversion that names a slot is in flight. -/
def execStepBoundary (u : Nat) (s : State) : Host.Outcome State Fault Refusal :=
  match (stn s u).closing with
  | some (t, false) =>
    guard s (engineOn s u && !slotInFlight (stn s u))
      (modStn (boundary s u) u (fun x => { x with closing := some (t, true) }))
  | _ => .next s

-- parameter sets, slots and counters by instruction (R219 to R222)

/-- R220: writes one field of a parameter set; none for an illegal code. -/
def psetField (p : PSet) (field v : Nat) : Option PSet :=
  match field with
  | 0 => some { p with lsBase := v % 2 ^ 23 }
  | 1 => some { p with lsKind := v % 4 }
  | 2 => some { p with lsFmt := v % 2 }
  | 3 => some { p with lzEn := v % 2 }
  | 4 => some { p with lzBase := v % 2 ^ 23 }
  | 5 => some { p with reqTab := v % 2 }
  | 6 => some { p with reqM := v % 2 ^ 31 }
  | 7 => some { p with reqS := min (v % 64) 62 }
  | 8 => some { p with reqZp := v % 256 }
  | 9 => some { p with reqLo := v % 2 ^ 16 }
  | 10 => some { p with reqHi := v % 2 ^ 16 }
  | _ => none

/-- PSETW (R220). -/
def psetwBody (u : Nat) (s : State) (i : InFlight) : Ret :=
  let k := fSet i.word + 8 * b2n (fNcu i.word)
  match psetField (tabGet {} (stn s u).psets k) (fField i.word) (opD s u i).toNat with
  | none => .trap 3 s
  | some p => .done (modStn s u (fun x => { x with psets := tabSet {} x.psets k p }))

/-- Table 06.16, PSETW. -/
def execPsetw (u t : Nat) (s : State) : Host.Outcome State Fault Refusal := retire .psetw (psetwBody u) u t s

/-- SLOTW (R221): pending until the next boundary. -/
def slotwBody (u : Nat) (s : State) (i : InFlight) : Ret :=
  let f := fField i.word
  if 5 ≤ f then .trap 3 s
  else .done (modStn s u (fun x =>
    { x with slotPend := x.slotPend ++ [(fSlot i.word, f, slotClamp f (opD s u i).toNat)] }))

/-- Table 06.16, SLOTW. -/
def execSlotw (u t : Nat) (s : State) : Host.Outcome State Fault Refusal := retire .slotw (slotwBody u) u t s

/-- Table 06.17: a slot's field as of the last boundary; none for an illegal code. -/
def slotField (sl : Slot) (field idx : Nat) : Option Nat :=
  match field with
  | 0 => some sl.fmt
  | 1 => some sl.zp
  | 2 => some sl.hlen
  | 3 => some sl.hr
  | 4 => some sl.e
  | 5 => some sl.ePrev
  | 6 => some sl.hist.length
  | 7 => some sl.underCnt
  | 8 => some sl.satCnt
  | 9 => some sl.nfCnt
  | 10 => some sl.misfitCnt
  | 11 => some (sl.hist.getD idx 0)
  | _ => none

/-- SLOTR (R222). -/
def slotrBody (u : Nat) (s : State) (i : InFlight) : Ret :=
  match slotField (tabGet {} (stn s u).slotSnap (fSlot i.word)) (fField i.word) (fIdx i.word) with
  | none => .trap 3 s
  | some v => .done (writeS s u i (fRd i.word) (BitVec.ofNat 32 v))

/-- Table 06.16, SLOTR. -/
def execSlotr (u t : Nat) (s : State) : Host.Outcome State Fault Refusal := retire .slotr (slotrBody u) u t s

/-- NCUCNT (R219, R222). -/
def ncucntBody (u : Nat) (s : State) (i : InFlight) : Ret :=
  let n := b2n (fNcu i.word)
  match fField i.word with
  | 0 => .done (writeS s u i (fRd i.word) (BitVec.ofNat 32 (tabGet 0 (stn s u).nf n)))
  | 1 => .done (writeS s u i (fRd i.word) (BitVec.ofNat 32 (tabGet 0 (stn s u).sat n)))
  | _ => .trap 3 s

/-- Table 06.16, NCUCNT. -/
def execNcucnt (u t : Nat) (s : State) : Host.Outcome State Fault Refusal := retire .ncucnt (ncucntBody u) u t s

end Sys2Proof.Machine
end

