-- ==== Sys2Proof/Machine/ChainOps.lean ====
section
/-! DEFINITION. Machine/ChainOps.lean: when a chain's next output tile can be made, and when the chain takes the
NCUs (R279, R291, R298, R302). -/

namespace Sys2Proof.Machine

/-- A REDUCE_GEMM root still converts tiles of its own partial (R300). -/
def partialPhase (s : State) (u : Nat) (c : ChainRec) : Bool :=
  cIsRoot s u c.raw && cK c.raw != 0 && decide (c.partTiles < cTiles c.raw)

/-- Bursts that the next output tile needs, ARRAY and VECTOR (R302): the first tile of a row group needs those of the
group's first-stage tiles (PAIR, GLU), key tiles (ATTN) or last page (ATTN_PAGED) too. Normalising a row of attention is
vector work of each output tile. -/
def tileNeeds (s : State) (u : Nat) (c : ChainRec) : Nat × Nat :=
  let r := c.raw
  let first := decide (c.pos % cCols r = 0)
  let n := ceilDiv (cN2 r) 64
  if partialPhase s u c then (1, 0)
  else match cId r with
    | 1 => (1, 0)
    | 3 | 4 => if first then (1 + n, n) else (1, 0)
    | 5 => if first then (n, n + b2n (cNorm r)) else (0, b2n (cNorm r))
    | 6 => if first then (1, 1 + b2n (cNorm r)) else (0, b2n (cNorm r))
    | 8 => if cIsRoot s u r then (0, 1) else (1, 0)
    | _ => (1, 1)

/-- Granted bursts of a class in hand. -/
def burstsHeld (c : ChainRec) (cls : Nat) : Nat := (c.leave.filter (fun p => p.1 == cls)).length

/-- Whether the operands of the next output tile are in place: the shares of R299, the combined group of R300, the
pages of R298. -/
def operandsHere (s : State) (u : Nat) (c : ChainRec) : Bool :=
  let r := c.raw
  let g := c.pos / cCols r
  if cId r = 7 then (List.range (groupDies s)).all (fun d => c.shares.contains (d * 65536 + g))
  else if cIsRoot s u r then partialPhase s u c || c.combined.contains g
  else if cId r = 6 then decide (c.page = cN2 r)
  else true

/-- Whether a chain's epilogue waits for a step boundary (R223). -/
def waitsClose (x : Station) (c : ChainRec) : Bool :=
  c.latched.isNone && (cwGout (cNcu c.raw) == 3 || cwStat (cNcu c.raw)) &&
    (match x.closing with | some (_, false) => true | _ => false)

/-- A chain is started, and neither ended, aborted, finished nor waiting for a tile on its way. -/
def chainRuns (s : State) (u : Nat) (c : ChainRec) : Bool :=
  c.started && c.ended.isNone && !c.abort && c.sip.tiles.isEmpty &&
    (partialPhase s u c || decide (c.pos < cTiles c.raw))

/-- R279, R303: a chain's commands follow those that stand in the array queues of its window and, where it has vector
work, in the vector engine's order; a tile is handed off once they are done (log entry 60). -/
def windowIdle (x : Station) (c : ChainRec) (vector : Bool) : Bool :=
  (halfArrays (cHalf c.raw)).all (fun ma => (tabGet {} x.arrs ma).q.isEmpty) && (!vector || (x.vexec.isNone && x.vq.isEmpty))

/-- R291, R302: a chain's next output tile can take the egress NCU. -/
def chainTileReady (s : State) (u : Nat) (c : ChainRec) : Bool :=
  let n := tileNeeds s u c
  chainRuns s u c && operandsHere s u c && (partialPhase s u c || !waitsClose (stn s u) c) &&
    decide (n.1 ≤ burstsHeld c 0) && decide (n.2 ≤ burstsHeld c 1) && windowIdle (stn s u) c (decide (0 < n.2))

/-- Whether the operands of a chain's next output tile are loaded for it, through the ingress NCU (R279). -/
def tileLoads (s : State) (u : Nat) (c : ChainRec) : Bool :=
  match cId c.raw with
  | 5 => decide (c.pos % cCols c.raw = 0)
  | 6 => false
  | 8 => partialPhase s u c || !cIsRoot s u c.raw
  | _ => true

/-- The staging register of ATTN_PAGED is free for the next page: there is none before it, or the leave to work on that
one is in hand (R298, R302). -/
def stagingFree (c : ChainRec) : Bool :=
  c.page == 0 || (decide (1 ≤ burstsHeld c 0) && decide (1 ≤ burstsHeld c 1))

/-- R298: ATTN_PAGED has a page to read before its next output tile. -/
def pageDue (c : ChainRec) : Bool := cId c.raw == 6 && c.pos % cCols c.raw == 0 && decide (c.page < cN2 c.raw)

/-- R298: the next page can be read, with the leave granted for it. -/
def pageReadReady (s : State) (u : Nat) (c : ChainRec) : Bool :=
  chainRuns s u c && pageDue c && stagingFree c && decide (1 ≤ burstsHeld c 2) &&
    windowIdle (stn s u) c (c.page != 0)

/-- R150, R279: a chain is ready to take an NCU. -/
def chainWants (s : State) (u : Nat) (egress : Bool) (c : ChainRec) : Bool :=
  if egress then chainTileReady s u c else (chainTileReady s u c && tileLoads s u c) || pageReadReady s u c

end Sys2Proof.Machine
end

