-- ==== Sys2Proof/Machine/TextFun.lean ====
section
/-! DEFINITION. Machine/TextFun.lean: the Text Engine's functions of bytes: UTF-8 units, the trie and detokenizer of
Text SRAM, longest matches, truncation, and the standpipe (R415 to R432). -/

namespace Sys2Proof.Machine

-- units (R422)

/-- The length of the well-formed sequence that a byte begins, and the range of its second byte (Unicode Table 3-7);
length 0 where it begins none. -/
def utf8Lead (b : Nat) : Nat × Nat × Nat :=
  if b < 0x80 then (1, 0, 0)
  else if b < 0xC2 then (0, 0, 0)
  else if b < 0xE0 then (2, 0x80, 0xBF)
  else if b = 0xE0 then (3, 0xA0, 0xBF)
  else if b = 0xED then (3, 0x80, 0x9F)
  else if b < 0xF0 then (3, 0x80, 0xBF)
  else if b = 0xF0 then (4, 0x90, 0xBF)
  else if b < 0xF4 then (4, 0x80, 0xBF)
  else if b = 0xF4 then (4, 0x80, 0x8F)
  else (0, 0, 0)

/-- Whether the bytes after a lead continue its sequence, as far as they go. -/
def utf8Cont (lo hi : Nat) : List Byte → Bool
  | [] => true
  | b :: t => decide (lo ≤ b.toNat) && decide (b.toNat ≤ hi) && t.all (fun c => decide (0x80 ≤ c.toNat) && decide (c.toNat ≤ 0xBF))

/-- The length of the unit at the front of a stream that ends with these bytes; 0 where they are an incomplete tail. -/
def unitLen : List Byte → Nat
  | [] => 0
  | b :: t =>
    let l := utf8Lead b.toNat
    let rest := t.take (l.1 - 1)
    if l.1 = 0 ∨ !utf8Cont l.2.1 l.2.2 rest then 1 else if rest.length = l.1 - 1 then l.1 else 0

/-- Divides a stream into its units and its incomplete tail (R422). -/
def units : Nat → List Byte → List (List Byte) × List Byte
  | 0, bs => ([], bs)
  | f + 1, bs =>
    let n := unitLen bs
    if n = 0 then ([], bs)
    else
      let r := units f (bs.drop n)
      (bs.take n :: r.1, r.2)
def unitsOf8 (bs : List Byte) : List (List Byte) × List Byte := units (bs.length + 1) bs

/-- Packs units into chunks of up to 48 bytes, never splitting a unit (R408). -/
def packUnits (cur : List Byte) : List (List Byte) → List (List Byte)
  | [] => if cur.isEmpty then [] else [cur]
  | u :: t => if cur.length + u.length ≤ 48 then packUnits (cur ++ u) t else cur :: packUnits u t

/-- The TEXT_CHUNK pieces of released bytes; an incomplete tail goes out as one-byte units (R432). -/
def textChunks (bs : List Byte) : List (List Byte) :=
  let u := unitsOf8 bs
  packUnits [] (u.1 ++ u.2.map (fun b => [b]))

-- Text SRAM (R415 to R418)

def textSize : Nat := 24 * 2 ^ 20
/-- A 32-bit word of Text SRAM by word index. -/
def textWord (m : List (Nat × BitVec 8)) (n : Nat) : Nat := leNat (memRead m (4 * n) 4)
def textRoot (m : List (Nat × BitVec 8)) : Nat := textWord m 1
def textVocab (m : List (Nat × BitVec 8)) : Nat := textWord m 2
def textDetok (m : List (Nat × BitVec 8)) : Nat := textWord m 3
/-- The fields of a node header (Table 13.2). -/
def nodeToken (h : Nat) : Nat := bits h 17 0
def nodeTerm (h : Nat) : Bool := h.testBit 18
def nodeSpecial (h : Nat) : Bool := h.testBit 19
def nodeKids (h : Nat) : Nat := bits h 28 20
/-- The word index of the child word with a label, and the child it names. -/
def childOf (m : List (Nat × BitVec 8)) (node label : Nat) : Option (Nat × Nat) :=
  ((List.range (nodeKids (textWord m node))).map (fun i => node + 1 + i)).findSome? (fun n =>
    let w := textWord m n
    if w % 256 = label then some (n, bits w 30 8) else none)
/-- A detokenizer entry: address and length (Table 13.3). -/
def detokEnt (m : List (Nat × BitVec 8)) (t : Nat) : Nat × Nat :=
  let a := textDetok m + 8 * t
  (bits (leNat (memRead m a 4)) 24 0, bits (leNat (memRead m (a + 4) 4)) 6 0)

/-- A node of the trie met by a walk: its index, depth and string. -/
structure TrieNode where
  at_ : Nat
  depth : Nat
  str : List Byte
  deriving DecidableEq, Repr

/-- Lists the nodes reached from a work list, each once per path to it. -/
def trieNodes (m : List (Nat × BitVec 8)) : Nat → List TrieNode → List TrieNode
  | 0, _ => []
  | _, [] => []
  | f + 1, n :: t =>
    let kids := (List.range (nodeKids (textWord m n.at_))).map (fun i =>
      let w := textWord m (n.at_ + 1 + i)
      (⟨bits w 30 8, n.depth + 1, n.str ++ [BitVec.ofNat 8 w]⟩ : TrieNode))
    n :: trieNodes m f (kids ++ t)

/-- Whether the child words of a node have strictly rising labels (R416). -/
def labelsRise (m : List (Nat × BitVec 8)) (n : Nat) : Bool :=
  let k := nodeKids (textWord m n)
  (List.range (k - 1)).all (fun i => decide (textWord m (n + 1 + i) % 256 < textWord m (n + 2 + i) % 256))

/-- Whether two byte ranges meet. -/
def rangesMeet (a b : Nat × Nat) : Bool := decide (a.1 < b.1 + b.2) && decide (b.1 < a.1 + a.2)
/-- No two ranges of a list meet. -/
def apart : List (Nat × Nat) → Bool
  | [] => true
  | a :: t => t.all (fun b => !rangesMeet a b) && apart t

/-- R418: the conditions on a tokenizer section, written from address 0, for an image of vocabulary `v`. -/
def textTablesOk (sec : List Byte) (v : Nat) : Bool :=
  let m := memWrite [] 0 sec
  let detok := textDetok m
  let nodes := trieNodes m (sec.length / 4 + 2) [⟨textRoot m, 0, []⟩]
  let ents := (List.range v).map (detokEnt m)
  let fixed := (0, 0x200) :: (detok, 8 * v) :: nodes.map (fun n => (4 * n.at_, 4 + 4 * nodeKids (textWord m n.at_)))
  let strs := (ents.filter (fun e => e.2 != 0))
  let terms := nodes.filter (fun n => nodeTerm (textWord m n.at_))
  let toks := terms.map (fun n => nodeToken (textWord m n.at_))
  decide (sec.length ≤ textSize) && decide (0x200 ≤ sec.length) &&
  textWord m 0 == 0x54524945 && textVocab m == v && decide (1 ≤ v) && decide (v ≤ 262144) && detok % 8 == 0 &&
  decide (nodes.length ≤ sec.length / 4) &&
  (fixed ++ strs).all (fun r => decide (r.1 + r.2 ≤ textSize)) &&
  apart fixed && strs.all (fun r => fixed.all (fun q => !rangesMeet r q)) &&
  ents.all (fun e => decide (e.2 ≤ 64)) &&
  nodes.all (fun n => decide (0x80 ≤ n.at_) && decide (n.depth ≤ 64) && decide (nodeKids (textWord m n.at_) ≤ 256) && labelsRise m n.at_) &&
  !nodeTerm (textWord m (textRoot m)) &&
  toks.all (fun t => decide (t < v)) && decide toks.Nodup &&
  (List.range 256).all (fun b => match childOf m (textRoot m) b with
    | some (_, c) => nodeTerm (textWord m c) && !nodeSpecial (textWord m c)
    | none => false) &&
  terms.all (fun n =>
    let h := textWord m n.at_
    nodeSpecial h || (let e := detokEnt m (nodeToken h); memRead m e.1 e.2 == n.str))

-- tokenizing (R421 to R425)

/-- A byte of text: its value, whether a forced break lies before it, and whether it lies in a control span. -/
structure TChar where
  b : Byte
  brk : Bool
  span : Bool
  deriving DecidableEq, Repr

/-- The byte-class entry of a byte (Table 13.4). -/
def classOf (m : List (Nat × BitVec 8)) (b : Byte) : Nat := (tabGet 0 m (0x100 + b.toNat)).toNat

/-- R421: a forced break between two bytes by their classes. -/
def classBreak (m : List (Nat × BitVec 8)) (x y : Byte) : Bool :=
  let cx := classOf m x
  let cy := classOf m y
  cx.testBit 4 || cy.testBit 4 || (cx % 16 != 0 && cy % 16 != 0 && cx % 16 != cy % 16)

/-- Whether a control span holds a byte position, and whether one begins or ends before it (R421), one of no length
included. -/
def inSpan (spans : List (Nat × Nat)) (i : Nat) : Bool := spans.any (fun p => decide (p.1 ≤ i) && decide (i < p.1 + p.2))
def spanEdge (spans : List (Nat × Nat)) (i : Nat) : Bool := spans.any (fun p => p.1 == i || p.1 + p.2 == i)

/-- The text with its breaks and spans. -/
def tchars (m : List (Nat × BitVec 8)) (spans : List (Nat × Nat)) (prev : Option Byte) (i : Nat) : List Byte → List TChar
  | [] => []
  | b :: t =>
    ⟨b, (match prev with | some x => classBreak m x b | none => false) || spanEdge spans i, inSpan spans i⟩ ::
      tchars m spans (some b) (i + 1) t

/-- What a match finds: the length and token of the longest candidate, and the 64-bit words of Text SRAM read, in
order. -/
structure MatchR where
  len : Nat := 0
  tok : Nat := 0
  reads : List Nat := []
  deriving DecidableEq, Repr

/-- R424: the walk of one match, `j` bytes in, at a node. The words read are the class entry of each byte, the child
word taken, and the child's header (log entry 32). -/
def walkMatch (m : List (Nat × BitVec 8)) (inSp : Bool) : Nat → Nat → Nat → MatchR → List TChar → MatchR
  | 0, _, _, r, _ => r
  | _, _, _, r, [] => r
  | f + 1, j, node, r, c :: t =>
    let r := { r with reads := r.reads ++ [(0x100 + c.b.toNat) / 8] }
    if 0 < j ∧ c.brk then r
    else
      match childOf m node c.b.toNat with
      | none => r
      | some (w, n) =>
        let h := textWord m n
        let r := { r with reads := r.reads ++ [w / 2, n / 2] }
        let r := if nodeTerm h && (inSp || !nodeSpecial h) then { r with len := j + 1, tok := nodeToken h } else r
        walkMatch m inSp f (j + 1) n r t

/-- R424: the tokens of a text, and the words read. -/
def tokenize (m : List (Nat × BitVec 8)) : Nat → List TChar → List Nat × List Nat
  | 0, _ => ([], [])
  | _, [] => ([], [])
  | f + 1, c :: t =>
    let r := walkMatch m c.span 64 0 (textRoot m) { reads := [textRoot m / 2] } (c :: t)
    let rest := tokenize m f ((c :: t).drop (max 1 r.len))
    (r.tok :: rest.1, r.reads ++ rest.2)

/-- The tokens of an append's text (R424). -/
def tokensOf (m : List (Nat × BitVec 8)) (spans : List (Nat × Nat)) (text : List Byte) : List Nat × List Nat :=
  tokenize m (text.length + 1) (tchars m spans none 0 text)

/-- R394: spans are sorted, apart, and within the text. -/
def spansOk (len : Nat) (lo : Nat) : List (Nat × Nat) → Bool
  | [] => true
  | p :: t => decide (lo ≤ p.1) && decide (p.1 + p.2 ≤ len) && spansOk len (p.1 + p.2) t

/-- R423: the spans clipped to `n` bytes of text; one left empty is dropped. -/
def clipSpans (n : Nat) (spans : List (Nat × Nat)) : List (Nat × Nat) :=
  (spans.map (fun p => (p.1, min (p.1 + p.2) n - p.1))).filter (fun p => p.2 != 0)

/-- R427: the tokens kept, and the number dropped. -/
def truncateTokens (head limit : Nat) (ts : List Nat) : List Nat × Nat :=
  if ts.length ≤ limit then (ts, 0)
  else (ts.take head ++ ts.drop (ts.length - (limit - head)), ts.length - limit)

-- the standpipe (R430)

/-- The first start at which a stop string occurs wholly, and the lowest-numbered one that occurs there. -/
def findStop (stops : List (List Byte)) (sp : List Byte) : Option (Nat × Nat) :=
  (List.range (sp.length + 1)).findSome? (fun i =>
    ((List.range stops.length).find? (fun k =>
      let st := stops.getD k []
      !st.isEmpty && decide ((sp.drop i).take st.length = st))).map (fun k => (i, k)))

/-- The longest suffix of the held bytes that is a proper prefix of a stop string. -/
def suffixLen (stops : List (List Byte)) (sp : List Byte) : Nat :=
  ((List.range (sp.length + 1)).filter (fun l =>
    stops.any (fun st => decide (l < st.length) && decide (sp.drop (sp.length - l) = st.take l)))).foldl max 0

/-- The start of the unit that holds position `r`: the last unit start at or before it. -/
def unitStart (r : Nat) (at_ : Nat) : List (List Byte) → Nat
  | [] => at_
  | u :: t => if at_ + u.length ≤ r then unitStart r (at_ + u.length) t else at_

/-- How many bytes R430 step 2 releases. -/
def releaseLen (stops : List (List Byte)) (sp : List Byte) : Nat :=
  let p := sp.length - suffixLen stops sp
  let u := unitsOf8 sp
  let q := sp.length - u.2.length
  unitStart (min p q) 0 u.1

end Sys2Proof.Machine
end

