-- ==== Sys2Proof/Machine/HostOps.lean ====
section
/-! DEFINITION. Machine/HostOps.lean: completion entries and their messages, the end of frames, generations and
sessions, and the KV page pool (R379 to R383, R387 to R404, R410). -/

namespace Sys2Proof.Machine

def getQp (s : State) (n : Nat) : QPair := tabGet {} s.qps n
def setQp (s : State) (n : Nat) (q : QPair) : State := { s with qps := tabSet {} s.qps n q }
def modQp (s : State) (n : Nat) (f : QPair → QPair) : State := setQp s n (f (getQp s n))
def getSess (s : State) (i : Nat) : Sess := tabGet {} s.sess i
def setSess (s : State) (i : Nat) (x : Sess) : State := { s with sess := tabSet {} s.sess i x }
def modSess (s : State) (i : Nat) (f : Sess → Sess) : State := setSess s i (f (getSess s i))

/-- The SIDs that hold anything. -/
def sids (s : State) : List Nat := s.sess.map (·.1)
/-- Open sessions, and those of a queue pair (Table 12.3). -/
def openCount (s : State) : Nat := (s.sess.filter (fun p => p.2.isOpen)).length
def qpSessions (s : State) (n : Nat) : Nat := (s.sess.filter (fun p => p.2.isOpen && p.2.qp == n)).length

/-- A queue pair that may access its rings. -/
def qpLive (q : QPair) : Bool := q.enable && q.st == 1 && !q.ending
/-- Entries written and not consumed, and free entries (R381). -/
def cqUsed (q : QPair) : Nat := (q.cqTail + 2 ^ q.cqL - q.cqHead) % 2 ^ q.cqL
def cqFree (q : QPair) : Nat := if q.badHead then 0 else 2 ^ q.cqL - 1 - cqUsed q - q.reserved

/-- R383: a queue pair enters ERROR, with one record and its bit in HOST_QP_ERR. -/
def qpError (s : State) (n cause addr : Nat) : State :=
  let s := modQp s n (fun q => { q with st := 2, errCause := cause })
  let s := pushRec s ⟨0xA, n, 0x31, leBytes 1 cause ++ leBytes 7 0 ++ leBytes 8 addr⟩
  let r := if n < 32 then Reg.qpErrLo else Reg.qpErrHi
  setEvt (setReg s r (reg s r ||| 2 ^ (n % 32))) 8

/-- R382: the queue pair's message. -/
def qpMessage (s : State) (n : Nat) : State :=
  let q := getQp s n
  modQp (sendMsix s q.vector) n (fun q => { q with since := 0 })

/-- R382: whether the entries that wait meet a condition for the message. -/
def qpDue (s : State) (q : QPair) : Bool :=
  q.since != 0 && (decide (q.coalCount ≤ q.since) || decide (q.coalUs * 1000 ≤ s.time.time / 65536 - q.oldest))

/-- The 64 bytes of an entry (Table 12.6). -/
def cqBytes (s : State) (q : QPair) (i : CqItem) : List Byte :=
  leBytes 2 (i.sid + 2 ^ 15 * b2n q.phase) ++ leBytes 1 i.type ++ leBytes 1 (if i.type = 3 then 48 else i.data.length) ++
  leBytes 2 q.sqHead ++ leBytes 2 (s.time.time % 65536) ++ leBytes 8 (s.time.time / 65536) ++
  (i.data ++ List.replicate 48 0).take 48

/-- R381, R383: writes one entry at CQ_TAIL, if the part may master the bus, and sends the message where it is due. -/
def cqWrite (s : State) (i : CqItem) : State :=
  let q := getQp s i.qp
  let a := q.cqB + 64 * q.cqTail
  if !s.msix.busMaster then qpError s i.qp 2 a
  else
    let tail := (q.cqTail + 1) % 2 ^ q.cqL
    let q' := { q with cqTail := tail, phase := if tail = 0 then !q.phase else q.phase,
                       reserved := if i.type = 3 then q.reserved - 1 else q.reserved,
                       since := q.since + 1, oldest := if q.since = 0 then s.time.time / 65536 else q.oldest }
    let s := setQp { s with out := s.out ++ [.write a (cqBytes s q i)] } i.qp q'
    if qpDue s q' then qpMessage s i.qp else s

/-- Whether an entry can be written now (R381): a reserved DONE always has its entry. -/
def canWrite (s : State) (i : CqItem) : Bool :=
  let q := getQp s i.qp
  qpLive q && !q.badHead && (i.type == 3 || decide (0 < cqFree q))

/-- Writes entries in order, as far as they can be written. -/
def writeItems (s : State) : List CqItem → State × List CqItem
  | [] => (s, [])
  | i :: t => if canWrite s i then writeItems (cqWrite s i) t else (s, i :: t)

/-- Writes what a session has waiting; a closed session whose last entry is written frees its SID (R397). -/
def flushSess (s : State) (sid : Nat) : State :=
  let x := getSess s sid
  let r := writeItems s x.outq
  setSess r.1 sid (if x.closing && r.2.isEmpty then { pend := x.pend, urgent := x.urgent } else { x with outq := r.2 })

/-- Queues an entry behind the session's earlier ones. -/
def pushOut (s : State) (sid : Nat) (i : CqItem) : State :=
  flushSess (modSess s sid (fun x => { x with outq := x.outq ++ [i] })) sid

/-- Writes the DONE entries a queue pair has waiting. -/
def flushQp (s : State) (n : Nat) : State :=
  let r := writeItems s (getQp s n).waiting
  modQp r.1 n (fun q => { q with waiting := r.2 })

/-- Writes everything that waits for a queue pair, the sessions in SID order. -/
def flushAll (s : State) (n : Nat) : State :=
  (sids s).foldl (fun s i => if (getSess s i).qp = n then flushSess s i else s) (flushQp s n)

/-- The DATA of a DONE (Table 12.7). -/
def doneData (f : Frame) (reason : Nat) (data : List Byte) : List Byte :=
  leBytes 4 f.tag ++ leBytes 1 reason ++ leBytes 1 f.type ++ leBytes 2 0 ++ data

/-- The stored values that a CONFIG reports (Table 12.7). -/
def configData (x : Sess) : List Byte :=
  leBytes 4 x.temp ++ leBytes 4 x.topP ++ leBytes 4 x.topK ++ leBytes 4 x.maxNew ++ leBytes 4 x.truncHead ++
    leBytes 4 x.truncLimit ++ leBytes 4 x.maskEn

/-- Table 12.7 for a frame that completes without having done anything: its counts are 0, no stop string matched, and
what it reports of its session stands as it is. -/
def idleData (s : State) (f : Frame) : List Byte :=
  let x := getSess s f.sid
  let own := x.isOpen && x.qp == f.qp
  let len := if own then x.tokens.length else 0
  match f.type with
  | 2 => if own then configData x else []
  | 3 | 4 => leBytes 4 0 ++ leBytes 4 0 ++ leBytes 4 len ++ leBytes 4 0
  | 5 => leBytes 4 0 ++ leBytes 4 len ++ leBytes 4 0xFFFFFFFF ++ leBytes 4 0
  | _ => []

/-- R388: a frame completes with its DONE; with no data of its own where it has done nothing. -/
def done (s : State) (f : Frame) (reason : Nat) (data : List Byte) : State :=
  let data := if data.isEmpty then idleData s f else data
  let s := if reason = 7 ∨ reason = 8 ∨ reason = 0x10 then addReg s Reg.frameErrCnt 1 else s
  let i : CqItem := ⟨f.qp, f.sid, 3, doneData f reason data⟩
  let x := getSess s f.sid
  if (x.isOpen || x.closing) && x.qp == f.qp then pushOut s f.sid i
  else flushQp (modQp s f.qp (fun q => { q with waiting := q.waiting ++ [i] })) f.qp

/-- R390: the frame in progress of a session completes. -/
def doneHead (s : State) (sid reason : Nat) (data : List Byte) : State :=
  match (getSess s sid).pend with
  | f :: t => done (modSess s sid (fun x => { x with pend := t })) f reason data
  | [] => s

/-- Frames complete with one reason, in order. -/
def doneList (s : State) (reason : Nat) : List Frame → State
  | [] => s
  | f :: t => doneList (done s f reason []) reason t

-- the end of a generation (R395, R430, R432)

/-- Reason codes whose held bytes are released (R432). -/
def releasesHeld (reason : Nat) : Bool := reason == 2 || reason == 3 || reason == 4 || reason == 0x12 || reason == 0x0C

/-- Released bytes go out as TEXT_CHUNK entries (R408). -/
def textOut (s : State) (sid : Nat) (bs : List Byte) : State :=
  let q := (getSess s sid).qp
  (textChunks bs).foldl (fun s c => pushOut s sid ⟨q, sid, 1, c⟩) s

/-- A generation ends with a reason and stop index: final chunks, then the DONE. -/
def endGen (s : State) (sid reason stop : Nat) : State :=
  match (getSess s sid).gen with
  | none => s
  | some g =>
    let rel := releasesHeld reason
    let s := if rel then textOut s sid g.pipe else s
    let disc := if rel then g.disc else g.disc + g.pipe.length
    let s := modSess s sid (fun x => { x with gen := none, row := none, ready := none })
    doneHead s sid reason (leBytes 4 g.count ++ leBytes 4 (getSess s sid).tokens.length ++ leBytes 4 stop ++ leBytes 4 disc)

-- appends in the Text Engine

/-- Removes a session's append from the pipes and the wait, and lets a waiting one take a freed pipe (R414). -/
def fillPipe (t : TextE) (k : Nat) : TextE :=
  match t.wait with
  | j :: w => if (t.pipes.find? (fun p => p.1 == k)).isNone then { t with pipes := tabPut t.pipes k j, wait := w } else t
  | [] => t
def dropJob (s : State) (sid qp : Nat) : State :=
  let t := s.text
  let mine (j : TextJob) : Bool := j.frame.sid == sid && j.frame.qp == qp
  let t := { t with pipes := t.pipes.filter (fun p => !mine p.2), wait := t.wait.filter (fun j => !mine j) }
  { s with text := fillPipe (fillPipe t 0) 1 }

-- pages (R403)

/-- Frees the pages of a session. -/
def freePages (s : State) (x : Sess) : State :=
  let held := x.pages.flatMap id
  { s with ldr := { s.ldr with used := s.ldr.used.map (fun p => (p.1, p.2.filter (fun i => !held.contains (p.1, i)))) } }

-- the end of a session

/-- R410 step 2: a session enters FAULTED; its frame in progress and its queued frames complete with FAULT. -/
def faultSess (s : State) (sid : Nat) : State :=
  let x := getSess s sid
  if !x.isOpen || x.faulted then s
  else
    let s := endGen s sid 0xD 0xFFFFFFFF
    let s := if x.busy then dropJob s sid x.qp else s
    let x := getSess s sid
    let s := modSess s sid (fun x => { x with faulted := true, busy := false, pend := [], armed := [], row := none, ready := none })
    doneList s 0xD (x.pend ++ x.armed)

/-- R411: every open session enters FAULTED. -/
def faultAll (s : State) : State := (sids s).foldl faultSess s

/-- A session ends without a completion (R377, R379). -/
def dropSess (s : State) (sid : Nat) : State :=
  let x := getSess s sid
  setSess (dropJob (freePages s x) sid x.qp) sid {}

/-- R306, R410: the hub aborts every chain of every station. -/
def abortChains (s : State) : State :=
  { s with stns := s.stns.map (fun p => (p.1, { p.2 with chains := p.2.chains.map (fun c => { c with abort := true }) })) }

end Sys2Proof.Machine
end

