-- ==== Sys2Proof/Machine/LinkOps.lean ====
section
/-! DEFINITION. Machine/LinkOps.lean: die links and Extium Links (chapter 10): routes, credits, flits, the sending
side of a hop, and what a link fault does. The rows are in Machine/Links.lean.

Hops: 2d from CDd to the hub and 2d + 1 back; 8 + 2k from CDk to CD(k+1 mod 4) and 9 + 2k back; 16 + 2l out on
Extium Link l and 17 + 2l in. Hop h belongs to link h / 2: 0 to 7 as LINK_DIE_STATE numbers them, 8 and 9 the Extium
Links. -/

namespace Sys2Proof.Machine

/-- The other direction of a hop. -/
def opp (h : Nat) : Nat := if h % 2 = 0 then h + 1 else h - 1
/-- The hop's link. -/
def linkOf (h : Nat) : Nat := h / 2

def hop (s : State) (h : Nat) : Hop := tabGet {} s.hops h
def setHop (s : State) (h : Nat) (x : Hop) : State := { s with hops := tabPut s.hops h x }

/-- Whether a link is UP. -/
def linkUp (s : State) (l : Nat) : Bool :=
  if l < 8 then s.dieUp.testBit l else (tabGet {} s.ext (l - 8)).st == .up

/-- The ring hop from die `a` to die `b`, if they are neighbours (R310). On T2 a single ring link joins CD0 and CD1. -/
def ringHop (s : State) (a b : Nat) : Option Nat :=
  if a = b then none
  else if isT2 s then some (if a = 0 then 8 else 9)
  else if b = (a + 1) % 4 then some (8 + 2 * a)
  else if a = (b + 1) % 4 then some (9 + 2 * b)
  else none

/-- The hops a siphon or signal takes from die `a` of this package to die `b` of this (`x = false`) or the paired
package (R310, R331). -/
def route (s : State) (a b : Nat) (x : Bool) : List Nat :=
  if x then [2 * a, 16 + 2 * (a % 2)]
  else match ringHop s a b with
    | some h => [h]
    | none => if a = b then [] else [2 * a, 2 * b + 1]

/-- Whether every link of a route is UP. -/
def routeUp (s : State) (r : List Nat) : Bool := r.all (fun h => linkUp s (linkOf h))

/-- The group die index of a die of this or the paired package (R313). -/
def gOf (s : State) (d : Nat) (x : Bool) : Nat := if s.paired then 4 * (if x then 1 - role s else role s) + d else d

/-- Table 10.1, in group die indices: credits that source die `g` holds of destination die `h`. The source ranks the other
dies in ascending index, and the highest allotments go to the lowest ranks (R319; log entry 12). -/
def allotment (s : State) (g h : Nat) : Nat :=
  let rank := if h < g then h else h - 1
  match groupDies s with
  | 2 => 256
  | 4 => if rank = 0 then 86 else 85
  | _ => if rank < 4 then 37 else 36

/-- A destination die as State keys it: 4 + its number in the paired package. -/
def farDie (d : Nat) (x : Bool) : Nat := d + 4 * b2n x
/-- Credits that die `d` of this package has in use of destination `e` (R319), and taking or returning one. -/
def creditKey (d e : Nat) : Nat := 8 * d + e
def creditsUsed (s : State) (d e : Nat) : Nat := tabGet 0 s.credits (creditKey d e)
def takeCredit (s : State) (d e : Nat) : State :=
  { s with credits := tabSet 0 s.credits (creditKey d e) (creditsUsed s d e + 1) }
def returnCredit (s : State) (d e : Nat) : State :=
  { s with credits := tabSet 0 s.credits (creditKey d e) (creditsUsed s d e - 1) }
/-- Whether die `d` has a credit left for destination `e`. -/
def creditLeft (s : State) (d e : Nat) : Bool :=
  decide (creditsUsed s d e < allotment s (gOf s d false) (gOf s (e % 4) (decide (4 ≤ e))))

/-- Round robin (R312, R319): of the candidates, the first after the last one served, going round `n`. -/
def roundRobin (n last : Nat) (ready : Nat → Bool) : Option Nat :=
  ((List.range n).map (fun k => (last + 1 + k) % n)).find? ready

-- flits (R324 to R327)

/-- Sequenced types (Table 10.3). -/
def sequenced (ty : Nat) : Bool := (1 ≤ ty && ty ≤ 4) || ty == 6

/-- Bytes `0..n` of a list, padded with zeros. -/
def padTo (n : Nat) (bs : List Byte) : List Byte := bs.take n ++ List.replicate (n - bs.length) 0

/-- One byte of the reflected CRC-32 (R327). -/
def crcByte (c : Nat) (b : Byte) : Nat :=
  (List.range 8).foldl (fun c _ => if c % 2 = 1 then (c / 2) ^^^ 0xEDB88320 else c / 2) (c ^^^ b.toNat)

/-- CRC-32 of IEEE 802.3 (R327). -/
def crc32 (bs : List Byte) : Nat := (bs.foldl crcByte 0xFFFFFFFF) ^^^ 0xFFFFFFFF

/-- The 256 bytes of a flit (Table 10.2). -/
def flitBytes (f : Flit) : List Byte :=
  let hd := f.type + 2 ^ 4 * (f.seq % 4096) + 2 ^ 16 * (f.ack % 4096) + 2 ^ 28 * b2n f.ackV + 2 ^ 32 * (f.srcDie % 8) +
    2 ^ 35 * (f.dstDie % 8) + 2 ^ 38 * b2n f.hub
  let body := leBytes 8 hd ++ padTo 244 f.payload
  body ++ leBytes 4 (crc32 body)

/-- Drops trailing zero bytes. -/
def trimZeros (bs : List Byte) : List Byte := (bs.reverse.dropWhile (· == 0)).reverse

/-- A flit from its 256 bytes. -/
def parseFlit (bs : List Byte) : Flit :=
  let hd := leNat (bs.take 8)
  { type := bits hd 3 0, seq := bits hd 15 4, ack := bits hd 27 16, ackV := hd.testBit 28, srcDie := bits hd 34 32,
    dstDie := bits hd 37 35, hub := hd.testBit 38, payload := trimZeros ((bs.drop 8).take 244) }

/-- Whether 256 bytes carry a good CRC. -/
def crcGood (bs : List Byte) : Bool := leNat ((bs.drop 252).take 4) == crc32 (bs.take 252)

/-- Flits of a tile of `n` body bytes (R325). -/
def tileFlits (n : Nat) : Nat := ceilDiv (32 + n) 244

/-- The tile header (Table 10.4). -/
def tileHeader (t : Tile) : List Byte :=
  leBytes 4 (t.dst % 128 * 2 ^ 23 + t.addr) ++ leBytes 4 t.spl ++ leBytes 2 t.rowBytes ++ leBytes 2 t.rows ++
  leBytes 4 (unsigned 32 t.stride) ++ leBytes 2 t.scale.length ++ leBytes 2 (t.src % 128 + 128 * t.req) ++
  List.replicate 12 0

/-- The payloads of a tile's flits: the header and the body in runs of 244 bytes (Table 10.3). -/
def tilePayloads (t : Tile) : List (List Byte) :=
  let all := tileHeader t ++ t.data ++ t.scale
  (List.range (tileFlits (t.data.length + t.scale.length))).map (fun k => (all.drop (244 * k)).take 244)

/-- The flits of a tile from group die `g` to group die `h`. -/
def tileToFlits (t : Tile) (g h : Nat) : List Flit :=
  (tilePayloads t).mapIdx (fun k p =>
    { way := b2n t.xpkg, type := if k = 0 then 1 else 2, srcDie := g, dstDie := h, payload := p,
      runs := if k = 0 then t.runs else [] })

/-- The tile of a header and body, and whether the header is malformed (R326). -/
def headTile (p : List Byte) : Tile × Nat × Bool :=
  let b (a n : Nat) : Nat := leNat ((p.drop a).take n)
  let rb := b 8 2
  let rows := b 10 2
  let sl := b 16 2
  ({ dst := bits (b 0 4) 29 23, addr := bits (b 0 4) 22 0, spl := bits (b 4 4) 22 0, rowBytes := rb, rows := rows,
     stride := sext 32 (b 12 4), src := bits (b 18 2) 6 0, req := bits (b 18 2) 9 7 },
   sl, decide (8192 < rows * rb) || decide (1024 < sl))

/-- Puts a complete run of flits together (R317); the body follows the header, and its last flit is padded. -/
def joinTile (fs : List Flit) : Tile :=
  let bs := fs.flatMap (fun f => padTo 244 f.payload)
  let h := headTile (bs.take 32)
  let n := h.1.rows * h.1.rowBytes
  { h.1 with runs := (fs.headD {}).runs, data := (bs.drop 32).take n, scale := (bs.drop (32 + n)).take h.2.1 }

-- landing (R317)

/-- Writes the rows of a tile, each at its stride from the one before (R317). -/
def landRows (s : State) (t : Tile) (a : Int) : List (List Byte) → State × Bool
  | [] => (s, true)
  | b :: rest =>
    let w := cistWrite s t.dst (unsigned 23 a) b
    let q := landRows w.1 t (a + t.stride) rest
    (q.1, w.2 && q.2)

/-- Writes the scale bytes of a tile to their runs. -/
def landScales (s : State) (v : Nat) : List (Nat × Nat) → List Byte → State × Bool
  | [], _ => (s, true)
  | (a, n) :: rest, bs =>
    let w := if n = 0 then (s, true) else cistWrite s v a (bs.take n)
    let q := landScales w.1 v rest (bs.drop n)
    (q.1, w.2 && q.2)

/-- R317: the tile is written whole; false where a read-modify-write met an uncorrectable word. A unit that is not
resident has its saved copy written (R578). -/
def landTile (s : State) (t : Tile) : State × Bool :=
  let rows := (List.range t.rows).map (fun i => (t.data.drop (i * t.rowBytes)).take t.rowBytes)
  let w := landRows s t t.addr rows
  let p := landScales w.1 t.dst (if t.runs.isEmpty then [(t.spl, t.scale.length)] else t.runs) t.scale
  (p.1, w.2 && p.2)

-- the sending side of a hop (R328 to R330)

/-- Puts a flit on a hop's wire with the current ACK; on an Extium Link it leaves the package. -/
def onWire (s : State) (h : Nat) (f : Flit) : State :=
  let o := hop s (opp h)
  let f := match o.lastAcc with
    | some a => { f with ack := a, ackV := true }
    | none => { f with ack := 0, ackV := false }
  let s := setHop s (opp h) { o with ackDue := false }
  if 16 ≤ h then { s with out := s.out ++ [.flit ((h - 16) / 2) (flitBytes f)] }
  else let x := hop s h; setHop s h { x with wire := x.wire ++ [f] }

/-- Sends waiting flits while fewer than 64 are unacknowledged (R328). -/
def hopFlush : Nat → State → Nat → State
  | 0, s, _ => s
  | n + 1, s, h =>
    let x := hop s h
    match x.sendq with
    | [] => s
    | f :: rest =>
      if 64 ≤ x.unacked.length then s
      else
        let f := { f with seq := x.nextSeq }
        let s := setHop s h { x with sendq := rest, nextSeq := (x.nextSeq + 1) % 4096, unacked := x.unacked ++ [(f, 0)] }
        hopFlush n (onWire s h f) h

/-- Queues sequenced flits on a hop. A run of one tile's flits is queued whole (R312). -/
def hopSend (s : State) (h : Nat) (fs : List Flit) : State :=
  let x := hop s h
  hopFlush (fs.length + 64) (setHop s h { x with sendq := x.sendq ++ fs }) h

/-- R329: a cumulative ACK for a hop's sequenced flits. -/
def hopAck (s : State) (h a : Nat) : State :=
  let x := hop s h
  if x.unacked.any (fun p => p.1.seq == a) then
    let rest := (x.unacked.dropWhile (fun p => p.1.seq != a)).drop 1
    hopFlush 64 (setHop s h { x with unacked := rest }) h
  else s

-- link faults (R338 to R341)

/-- Whether a siphon tile's route passes link `l`. -/
def tileUses (s : State) (t : Tile) (l : Nat) : Bool :=
  (route s (t.src / 32) (t.dst / 32) t.xpkg).any (fun h => linkOf h == l)

/-- R340: a pump channel or chain whose tile needs the link ends with LINK_DOWN. -/
def sipFails (s : State) (l : Nat) (q : Sip) : Bool := match q.tiles with | [] => false | t :: _ => tileUses s t l
/-- The destination of a tile, as credits are keyed. -/
def tileDie (t : Tile) : Nat := farDie (t.dst / 32) t.xpkg
/-- Gives back the credit of a tile that has not left (R319), and the leave it was granted (R187, R356). -/
def sipCredit (s : State) (q : Sip) : State :=
  match q.tiles with
  | [] => s
  | t :: _ =>
    if q.phase = 1 ∨ q.phase = 2 then
      (let s := returnCredit s (t.src / 32) (tileDie t)
       if q.phase = 2 then creditBack s q.paid else s)
    else s

/-- Whether the tiles of die `d` for destination `e` pass link `l`. -/
def pairUses (s : State) (l d e : Nat) : Bool := (route s d (e % 4) (decide (4 ≤ e))).any (fun k => linkOf k == l)

/-- R336, R340: no tile of a pair of dies is on its way any more once a link of its route is down. -/
def clearCredits (s : State) (l : Nat) : State :=
  { s with credits := s.credits.filter (fun p => !pairUses s l (p.1 / 8) (p.1 % 8)),
           orphans := s.orphans.filter (fun o => !pairUses s l (o.1 / 32) o.2.2) }

/-- A tile that is outstanding when its requester goes away keeps its credit until its LANDED flit (R316, R319). -/
def sipOrphan (s : State) (q : Sip) : State :=
  match q.tiles with
  | [] => s
  | t :: _ => if q.phase = 3 then { s with orphans := s.orphans ++ [(t.src, t.req, tileDie t)] } else s

/-- Ends the requesters of unit `u` that `f` selects by the siphon work in hand, with a status. -/
def endSips (u st : Nat) (f : Sip → Bool) (s : State) : State :=
  let x := stn s u
  setStn s u { x with
    chans := x.chans.map (fun p => (p.1, match p.2.active with
      | some a => if f a.sip && a.ended.isNone then { p.2 with active := some { a with ended := some st, sip := {} } } else p.2
      | none => p.2)),
    chains := x.chains.map (fun c => if f c.sip then { c with ended := some (c.ended.getD st), sip := {} } else c) }

/-- Ends the requesters of one unit on link `l` (R340). -/
def failUnit (s : State) (l u : Nat) : State := endSips u 0x12 (sipFails s l) s

/-- The sending direction of the end that R339 has write the record when both ends of a link detect an event at once: the
hub end of a spoke, the lower-numbered die of a ring link, this package of an Extium Link. -/
def recHop (l : Nat) : Nat := if l < 4 then 2 * l + 1 else if l = 7 then 15 else 2 * l

/-- R339: the link event: one record, LINK_DOWN_CNT, and LINK_DOWN. `h` is the direction that the detecting end sends on.
Where no flit is unacknowledged the record's SEQ is a free value. -/
def linkRecord (s : State) (l h reason : Nat) : State :=
  let x := hop s h
  let fr := takeFree s
  let sq := match x.unacked with | [] => Config.freeNat fr.1 0 % 4096 | p :: _ => p.1.seq
  let s := if x.unacked.isEmpty then fr.2 else s
  let kind := if l < 8 then 4 else 5
  let s := pushRec s ⟨kind, if l < 8 then l else l - 8, 0x11,
    leBytes 1 reason ++ leBytes 1 0 ++ leBytes 2 sq ++ leBytes 4 x.replays⟩
  setEvt (addReg s Reg.linkDown 1) 7

/-- Clears a link's hops: sequence numbers, buffers, and tiles partly received (R336, R340). -/
def clearLink (s : State) (l : Nat) : State := setHop (setHop s (2 * l) {}) (2 * l + 1) {}

/-- R336: PAIRED falls. Siphons to the paired package end with BAD_ADDR, and their credits with them; what they had in
flight is not landed here. Every open session of the pair enters FAULTED (R411), and what the peer said of its image is
void. -/
def unpair (s : State) : State :=
  let s := if s.paired then faultAll (noteFault s) else s
  let s := (s.stns.map (·.1)).foldl (fun s u => endSips u 5 (fun q => (q.tiles.head?.map (·.xpkg)).getD false) s) s
  { s with paired := false, held := false, credits := s.credits.filter (fun p => decide (p.1 % 8 < 4)),
           orphans := s.orphans.filter (fun o => decide (o.2.2 < 4)), ldr := { s.ldr with peer := none, peerPages := [] } }

/-- R475: the LINK_TRAIN operation ends FAILED when a link in the training goes down first. -/
def trainFail (s : State) (l res : Nat) : State :=
  if (getFloat s 5).st = 1 ∧ (getFloat s 5).op = 7 ∧ s.trainLinks.testBit l then
    floatEnd { s with trainLinks := 0 } 5 false res
  else s

def getExt (s : State) (l : Nat) : ExtLink := tabGet {} s.ext l
def putExt (s : State) (l : Nat) (e : ExtLink) : State := { s with ext := tabPut s.ext l e }

/-- R454: a package of a pair tells the other, over Extium link 0, whether its image is READY, its IMAGE_ID, and the
pages of its dies, which the primary's figures need (R456, R458). -/
def tellPeer (s : State) : State :=
  let im := s.ldr.image.getD {}
  if s.paired then
    { s with out := s.out ++ [.peer "IMAGE" (b2n (reg s Reg.imgStatus % 8 == 3) :: im.id.map (·.toNat) ++ im.pages)] }
  else s

/-- A CTRL flit (type 6 of Table 10.3): code 0 PAIR_INFO, 1 DOWN or 2 STANDBY, and the values it carries. It goes from hub
to hub, so HUB is set and the dies are the packages' roles (Table 10.2). The manual gives neither the numbers of the
codes nor the layout of the rest: the payload is an opaque function of both (log entry 17). -/
def ctrlFlit (s : State) (code : Nat) (body : List Nat) : Flit :=
  { way := 1, type := 6, hub := true, srcDie := role s, dstDie := 1 - role s, payload := Config.ctrlPayload code body }

/-- R325, R328: a CTRL flit is sequenced: it is numbered, kept for replay and held back as any other. -/
def sendCtrl (s : State) (l code : Nat) (body : List Nat) : State := hopSend s (16 + 2 * l) [ctrlFlit s code body]

/-- R339: the side that detects an event on an Extium Link that carries flits sends CTRL DOWN first; an event that the
peer has told of (PEER_DOWN) needs none. -/
def ctrlDown (s : State) (l reason : Nat) : State :=
  if ((getExt s l).st = .up ∨ (getExt s l).st = .pair) ∧ reason ≠ 4 then sendCtrl s l 1 [reason] else s

/-- A link that is UP goes down (R338 to R340), detected at the end that sends on hop `h`; `tell` says that the other end
is not yet told. A link that is already down is part of the same event. -/
def linkDownAt (s : State) (h reason : Nat) (tell : Bool := true) : State :=
  let l := linkOf h
  if !linkUp s l then s
  else
    let s := linkRecord s l h reason
    let s := if l < 8 || !tell then s else ctrlDown s (l - 8) reason
    let s := (s.stns.map (·.1)).foldl (fun s u => failUnit s l u) s
    let s := clearLink (clearCredits s l) l
    if l < 8 then { noteFault s with dieUp := s.dieUp - 2 ^ l }
    else
      let s := putExt s (l - 8) { getExt s (l - 8) with st := .down, reason := reason, event := true }
      let s := trainFail s (l - 8) reason
      if reason = 8 then s else unpair s

/-- Whether an Extium Link is in training. -/
def training (e : ExtLink) : Bool := e.st == .detect || e.st == .equalize || e.st == .align || e.st == .pair

/-- Extium Link `l` goes down: from UP, or from its training, where a link event in progress writes nothing more
(R338, R339). -/
def extDown (s : State) (l reason : Nat) (tell : Bool := true) : State :=
  let e := getExt s l
  if e.st = .up then linkDownAt s (16 + 2 * l) reason tell
  else if training e then
    let s := if e.event then s else linkRecord s (8 + l) (16 + 2 * l) reason
    let s := if tell then ctrlDown s l reason else s
    trainFail (putExt (clearLink s (8 + l)) l { e with st := .down, reason := reason, event := true }) l reason
  else s

/-- The link of a hop carries flits: it is UP, or an Extium Link in state PAIR, which exchanges CTRL flits (R334). -/
def carries (s : State) (h : Nat) : Bool :=
  linkUp s (linkOf h) || (decide (16 ≤ h) && (getExt s ((h - 16) / 2)).st == .pair)

/-- The link of hop `h` goes down, whatever its kind, detected at the end that sends on `h`. -/
def hopDown (s : State) (h reason : Nat) : State :=
  if h < 16 then linkDownAt s h reason else extDown s ((h - 16) / 2) reason

/-- The payload of a SIGNAL flit (Table 10.3). -/
def signalPayload (v ev : Nat) (xp : Bool) : List Byte := trimZeros [BitVec.ofNat 8 v, BitVec.ofNat 8 ev, BitVec.ofNat 8 (b2n xp)]

/-- R170, R311, R322: the Session Dispatcher's signal to a work unit leaves the hub on the spoke of the unit's die, as a
SIGNAL flit that a hub originates. It is dropped where the spoke is down (R340). -/
def hubSignal (s : State) (u ev : Nat) : State :=
  let d := u / 32
  if linkUp s d then
    hopSend s (2 * d + 1) [{ way := 2, type := 3, hub := true, srcDie := role s, dstDie := groupDie s d,
                             payload := signalPayload u ev false }]
  else s

end Sys2Proof.Machine
end

