-- ==== Sys2Proof/Machine/Pump.lean ====
section
/-! DEFINITION. Machine/Pump.lean: pump descriptors, their validation, blocks, completion, cancel and timeout, and
the rows of the pump family (chapter 04, R201 to R203). -/

namespace Sys2Proof.Machine

-- descriptor fields (Table 04.4); a descriptor is one 512-bit little-endian number
def dOp (d : Nat) : Nat := bits d 3 0
def dSrc (d : Nat) : Nat := bits d 5 4
def dDst (d : Nat) : Nat := bits d 7 6
def dEvt (d : Nat) : Nat := bits d 22 18
def dXpkg (d : Nat) : Bool := d.testBit 23
def dTimeout (d : Nat) : Nat := bits d 39 24
def dTag (d : Nat) : Nat := bits d 55 40
def dSrcAddr (d : Nat) : Nat := bits d 103 64
def dDstAddr (d : Nat) : Nat := bits d 143 104
def dSrcSpl (d : Nat) : Nat := bits d 183 144
def dDstSpl (d : Nat) : Nat := bits d 223 184
def dD0 (d : Nat) : Nat := bits d 239 224 + 1
def dD1 (d : Nat) : Nat := bits d 255 240 + 1
def dD2 (d : Nat) : Nat := bits d 271 256 + 1
def dSrcS1 (d : Nat) : Int := sext 32 (bits d 303 272)
def dSrcS2 (d : Nat) : Int := sext 32 (bits d 335 304)
def dDstS1 (d : Nat) : Int := sext 32 (bits d 367 336)
def dDstS2 (d : Nat) : Int := sext 32 (bits d 399 368)

/-- Rows and elements of a descriptor. -/
def dRows (d : Nat) : Nat := dD1 d * dD2 d
def dTotal (d : Nat) : Nat := dD0 d * dRows d
def dFill (d : Nat) : Bool := dOp d == 2

/-- The work unit a CGLOBAL destination names, and whether it is the issuing unit's own cistern, another station of
the same die, or further (R111, R131). -/
def dDstUnit (d : Nat) : Nat := bits (dDstAddr d) 29 23
def dOwn (u d : Nat) : Bool := dDst d == 1 || (dDst d == 2 && !dXpkg d && dDstUnit d == u)
def dRemote (u d : Nat) : Bool := dDst d == 2 && (dXpkg d || dDstUnit d / 32 != u / 32)

/-- The space pairs of Table 04.5. A FILL takes the pairs of a CLOCAL source. -/
def pairLegal (u d : Nat) : Bool :=
  let src := if dFill d then 1 else dSrc d
  match src, dDst d with
  | 0, 0 => false
  | 0, 2 => dOwn u d
  | 3, 3 => false
  | _, _ => true

/-- Whether the egress NCU makes a descriptor's conversion (Table 03.1, Table 04.5). -/
def dEgress (u d : Nat) : Bool :=
  let src := if dFill d then 1 else dSrc d
  src == 3 || dDst d == 0 || (dDst d == 2 && !dOwn u d)

/-- The limits of R134 on a TRF side, with the row width where the format is not reserved. -/
def trfBad (addr f d0 d1 d2 : Nat) : Bool :=
  (match fmtOf f with | some g => decide (1024 / ebits g < d0) | none => false) ||
  decide (64 < bits addr 10 5 + d1) || decide (31 < addr % 32 + d2 - 1)

/-- BAD_DESC (Table 04.6, R131, R134, R135, R315). -/
def badDesc (u d : Nat) : Bool :=
  (dOp d != 1 && dOp d != 2) || !pairLegal u d ||
  (dFill d && (dSrc d != 0 || (match fmtOf (dSrcFmt d) with | some f => isMx f || f == .rb8 | none => false))) ||
  (!dFill d && dSrc d == 3 && trfBad (dSrcAddr d) (dSrcFmt d) (dD0 d) (dD1 d) (dD2 d)) ||
  (dDst d == 3 && trfBad (dDstAddr d) (dDstFmt d) (dD0 d) (dD1 d) (dD2 d)) ||
  (dRemote u d && (match fmtOf (dDstFmt d) with | some f => ebits f == 32 | none => false))

/-- The conversion of a descriptor under a given control word and parameter set. -/
def dConv (u d w : Nat) (p : PSet) : Conv :=
  ⟨(fmtOf (dSrcFmt d)).getD .fp32, (fmtOf (dDstFmt d)).getD .fp32, w, p, dEgress u d⟩

/-- The parameter set a descriptor names, as it stands. -/
def dPset (x : Station) (u d : Nat) : PSet := psetOf x (dEgress u d) (cwPset (dNcu d))

/-- BAD_NCU (R88): judged at validation against the set as it stands then. A FILL into the TRF is not the edge from the
cistern that CARRY needs (R94, log entry 63). -/
def badNcu (x : Station) (u d : Nat) : Bool :=
  let c := dConv u d (dNcu d) (dPset x u d)
  c.refused x (!dFill d && (dSrc d == 1 || dSrc d == 2) && dDst d == 3) || tableOut c (dRows d) (dD0 d)

/-- The lowest and highest row start of a side in bytes from its base: rows are linear in both indices. -/
def spanLo (s1 s2 : Int) (d1 d2 : Nat) : Int := min 0 (s1 * (d1 - 1 : Nat)) + min 0 (s2 * (d2 - 1 : Nat))
def spanHi (s1 s2 : Int) (d1 d2 : Nat) : Int := max 0 (s1 * (d1 - 1 : Nat)) + max 0 (s2 * (d2 - 1 : Nat))

/-- Scale-plane entries per row, and the plane's bytes over all rows (R133). -/
def planeEntries (f : Fmt) (w d0 : Nat) : Nat :=
  if isMx f then ceilDiv d0 32 else if f == .rb8 then ceilDiv d0 (cwBlk w) else 0
def planeBytes (f : Fmt) (w d0 rows : Nat) : Nat := rows * planeEntries f w d0 * (if f == .rb8 then 4 else 1)

/-- Whether the byte range `[lo, lo + n)` (an integer start) lies in a space's legal range for unit `u`: WELL the
unit's own die's image and KV region, else general storage (R130, R132). -/
def rangeOk (u : Nat) (well : Bool) (lo : Int) (n : Nat) : Bool :=
  let base : Int := if well then (u / 32 * 2 ^ 37 : Nat) else 0
  decide (base ≤ lo) && decide (lo - base + n ≤ (if well then wellGeneral else spillBase : Nat))

/-- One memory side of a descriptor: its row starts are aligned, and every byte of rows and plane is in range. -/
def sideOk (u : Nat) (f : Fmt) (w space addr spl d0 d1 d2 : Nat) (s1 s2 : Int) : Bool :=
  let well := space == 0
  let a := if well then addr else addr % 2 ^ 23
  let p := if well then spl else spl % 2 ^ 23
  let al : Nat := if ebits f = 32 then 4 else if ebits f = 16 then 2 else 1
  let lo := (a : Int) + spanLo s1 s2 d1 d2
  let hi := (a : Int) + spanHi s1 s2 d1 d2
  decide (a % al = 0) && (d1 == 1 || s1 % al == 0) && (d2 == 1 || s2 % al == 0) &&
  rangeOk u well lo ((hi - lo).toNat + rowBytes f d0) &&
  (planeEntries f w d0 == 0 ||
    (rangeOk u well p (planeBytes f w d0 (d1 * d2)) && (f != .rb8 || p % 4 == 0)))

/-- BAD_ADDR (R130, R132, R133). -/
def badAddr (s : State) (u d : Nat) : Bool :=
  let sf := (fmtOf (dSrcFmt d)).getD .fp32
  let df := (fmtOf (dDstFmt d)).getD .fp32
  let w := dNcu d
  (dXpkg d && !s.paired) ||
  (!dFill d && dSrc d == 2 && bits (dSrcAddr d) 29 23 != u) ||
  (dDst d == 2 && !(if dXpkg d then peerHosts s (dDstUnit d) else (hostOf s (dDstUnit d)).isSome)) ||
  (!dFill d && dSrc d != 3 &&
    !sideOk u sf w (dSrc d) (dSrcAddr d) (dSrcSpl d) (dD0 d) (dD1 d) (dD2 d) (dSrcS1 d) (dSrcS2 d)) ||
  (dDst d != 3 && !sideOk u df w (dDst d) (dDstAddr d) (dDstSpl d) (dD0 d) (dD1 d) (dD2 d) (dDstS1 d) (dDstS2 d))

/-- R128: the status a descriptor is refused with, in order; 0 where it passes. A route that is down then gives
LINK_DOWN (R340). -/
def dValidate (s : State) (u d : Nat) : Nat :=
  if badDesc u d then 2
  else if (fmtOf (dSrcFmt d)).isNone || (fmtOf (dDstFmt d)).isNone then 3
  else if badNcu (stn s u) u d then 4
  else if badAddr s u d then 5
  else if dRemote u d && !routeUp s (route s (u / 32) (dDstUnit d / 32) (dXpkg d)) then 0x12
  else 0

def getChan (x : Station) (ch : Nat) : Chan := tabGet {} x.chans ch
def setChan (x : Station) (ch : Nat) (c : Chan) : Station := { x with chans := tabPut x.chans ch c }
def modActive (s : State) (u ch : Nat) (f : Active → Active) : State :=
  modStn s u (fun x => let c := getChan x ch; setChan x ch { c with active := c.active.map f })

/-- R143: the timeout in force for a descriptor. -/
def dTimeoutUs (s : State) (d : Nat) : Nat := if dTimeout d = 0 then reg s Reg.pumpTimeout else max 50 (dTimeout d)

/-- R127, R128: the head of a channel starts: it is validated before any access; a descriptor a cancel caught
completes ABORTED (R146). -/
def execDescStart (u ch : Nat) (s : State) : Host.Outcome State Fault Refusal :=
  let x := stn s u
  let c := getChan x ch
  withOperand (decide (ch < 4)) (match c.queue, c.active with
    | (d, cancelled) :: rest, none =>
      let st := dValidate s u d
      let a : Active := { raw := d, timeoutUs := dTimeoutUs s d,
                          ended := if cancelled then some 1 else if st = 0 then none else some st }
      guard s (engineOn s u)
        (setStn s u (setChan x ch { c with queue := rest, active := some a }))
    | _, _ => .next s)

-- pump blocks (R149)

/-- Data bytes of one row of the source, without padding beyond whole bytes. -/
def srcRowBytes (f : Fmt) (d0 : Nat) : Nat := ceilDiv (d0 * ebits f) 8

/-- The data byte at which element `p` in traversal order starts, and the element a data byte belongs to. -/
def byteOfElem (f : Fmt) (d0 p : Nat) : Nat := p / d0 * srcRowBytes f d0 + p % d0 * ebits f / 8
def elemOfByte (f : Fmt) (d0 b : Nat) : Nat :=
  b / srcRowBytes f d0 * d0 + min d0 (b % srcRowBytes f d0 * 8 / ebits f)

/-- The end of the pump block that starts at element `p`: 4,096 data bytes on, extended to the end of the target's
scale block that holds its last element. -/
def blockEnd (c : Conv) (d0 total p : Nat) : Nat :=
  let e := min total (elemOfByte c.sf d0 (byteOfElem c.sf d0 p + 4096))
  let l := if c.identity then 1 else match cwGout c.cw with | 1 => 32 | 2 => cwBlk c.cw | _ => 1
  let r := e / d0
  let j := e % d0
  min total (r * d0 + min d0 (ceilDiv j l * l))

/-- The row segments `(row, first, end)` of the elements `[p, e)`. -/
def segments (d0 : Nat) : Nat → Nat → Nat → List (Nat × Nat × Nat)
  | 0, _, _ => []
  | f + 1, p, e =>
    if e ≤ p then []
    else
      let r := p / d0
      let stop := min e ((r + 1) * d0)
      (r, p % d0, stop - r * d0) :: segments d0 f stop e

/-- Where a row starts on a memory side. -/
def rowStart (addr : Nat) (s1 s2 : Int) (d1 r : Nat) : Nat := ((addr : Int) + s2 * (r / d1 : Nat) + s1 * (r % d1 : Nat)).toNat

/-- Reads `n` bytes at an address of a source side: the well, or the unit's cistern slice. -/
def memSideRead (s : State) (u ch d a n : Nat) : State × Option (List Byte) :=
  if dSrc d = 0 then wellRead s a n { acc := 0, station := lstn s u, chan := ch, tag := dTag d }
  else cistRead s u a n 0

/-- The status a failed read of a side gives (Table 04.6). -/
def ueStatus (space : Nat) : Nat := if space = 0 then 0x11 else 0x10

/-- The element codes `[j0, j1)` of a row from the bytes that hold them. -/
def codesOf (f : Fmt) (bs : List Byte) (j0 j1 : Nat) : List Nat :=
  (unpackElems f bs (j1 - j0 + j0 * ebits f % 8 / 4)).drop (j0 * ebits f % 8 / 4)
def firstByte (f : Fmt) (j : Nat) : Nat := j * ebits f / 8
def endByte (f : Fmt) (j : Nat) : Nat := ceilDiv (j * ebits f) 8

/-- The E8M0 or FP32 entries of a segment's scale blocks: index of the first block, the entries, and for RB8 the ROWBLK
that encoded each, plus 1 (0 where that is not known). -/
structure Plane where
  blk : Nat := 32
  first : Nat := 0
  ents : List Nat := []
  lens : List Nat := []
  deriving DecidableEq, Repr

/-- The scale of an element of an MX or RB8 source. -/
def Plane.scale (p : Plane) (f : Fmt) (j : Nat) : Val :=
  let e := p.ents.getD (j / p.blk - p.first) 0
  if f == .rb8 then f32 e else e8m0 e

/-- Offset in a sidecar of the scale entry of row `r`, block `b` (R252). -/
def sideOff (f : Fmt) (r b : Nat) : Nat :=
  if f == .rb8 then 16 * r + 4 * b else r * (if ebits f = 4 then 8 else 4) + b

/-- R91: the carrier names another ROWBLK than the one that encoded an entry the segment reads. -/
def Plane.wrongBlk (p : Plane) (w : Nat) : Bool := p.lens.any (fun l => l != 0 && l != bits w 23 18 + 1)

/-- The key of the plane entry at address `a` of a space, for unit `u`. -/
def planeKey (space u a : Nat) : Nat := if space = 0 then entryKey true a else entryKey false (gaddr u a)

/-- Reads one segment of the source: its codes and its plane. -/
def readSeg (s : State) (u ch d : Nat) (c : Conv) (r j0 j1 : Nat) : State × Option (List Nat × Plane) :=
  let f := c.sf
  let w := c.cw
  if dFill d then (s, some (List.replicate (j1 - j0) (dSrcAddr d % 2 ^ ebits f), {}))
  else if dSrc d = 3 then
    let rg := dSrcAddr d % 32 + r / dD1 d
    let row := bits (dSrcAddr d) 10 5 + r % dD1 d
    let b := tileRead s u false rg (128 * row + firstByte f j0) (endByte f j1 - firstByte f j0)
    if isMx f || f == .rb8 then
      let tag := if f == .rb8 then tileRead b.1 u true rg 0x510 4 else (b.1, [])
      let rblk := bits (leNat tag.2) 21 16
      let blk := if f == .rb8 then (rblk + 1) * 32 else 32
      let k0 := j0 / blk
      let n := (j1 - 1) / blk + 1 - k0
      let sz := if f == .rb8 then 4 else 1
      let p := tileRead tag.1 u true rg (sideOff f row k0) (n * sz)
      (p.1, some (codesOf f b.2 j0 j1,
        { blk := blk, first := k0, ents := entries sz p.2, lens := if f == .rb8 then List.replicate n (rblk + 1) else [] }))
    else (b.1, some (codesOf f b.2 j0 j1, {}))
  else
    let base := if dSrc d = 0 then dSrcAddr d else dSrcAddr d % 2 ^ 23
    let a := rowStart base (dSrcS1 d) (dSrcS2 d) (dD1 d) r
    let b := memSideRead s u ch d (a + firstByte f j0) (endByte f j1 - firstByte f j0)
    match b.2 with
    | none => (b.1, none)
    | some bs =>
      if isMx f || f == .rb8 then
        let blk := if f == .rb8 then cwBlk w else 32
        let sz := if f == .rb8 then 4 else 1
        let k0 := j0 / blk
        let n := (j1 - 1) / blk + 1 - k0
        let pl := if dSrc d = 0 then dSrcSpl d else dSrcSpl d % 2 ^ 23
        let pa := pl + (r * planeEntries f w (dD0 d) + k0) * sz
        let p := memSideRead b.1 u ch d pa (n * sz)
        let lens := if f == .rb8 then (List.range n).map (fun k => tabGet 0 s.rbLen (planeKey (dSrc d) u (pa + 4 * k))) else []
        (p.1, p.2.map (fun e => (codesOf f bs j0 j1, { blk := blk, first := k0, ents := entries sz e, lens := lens })))
      else (b.1, some (codesOf f bs j0 j1, {}))

/-- What a segment writes: its row, first and end element, target codes, and scale-plane entries of its blocks. -/
structure SegOut where
  row : Nat
  j0 : Nat
  j1 : Nat
  codes : List Nat
  scales : List Nat
  tabs : Tables
  /-- the ROWBLK that encoded each RB8 scale entry, plus 1 (0: not known) -/
  lens : List Nat := []
  deriving DecidableEq, Repr

/-- Converts one segment (R136): none where a read fails, with the status. A target of 4-bit elements that starts at
an odd element takes the element before it again, to write its byte whole; it is not counted twice. A source named with
another ROWBLK than encoded it decodes to free values (R91). An identity copy of an RB8 tensor whose entries cover other
lengths than the target's blocks takes for each block the entry that covers its first element (log entry 29). -/
def convSeg (s : State) (u ch d : Nat) (c : Conv) (r j0 j1 : Nat) : State × Nat × Option (SegOut × ConvOut) :=
  let js := if ebits c.df = 4 then j0 / 2 * 2 else j0
  let q := readSeg s u ch d c r js j1
  match q.2 with
  | none => (q.1, ueStatus (dSrc d), none)
  | some (codes, pl) =>
    let t := readTables q.1 u c (dD0 d) r js (j1 - js) 0
    match t.2 with
    | none => (t.1, 0x10, none)
    | some tb =>
      if c.copies then
        let blk := if c.df == .rb8 then cwBlk c.cw else 32
        let ks := (List.range ((j1 - 1) / blk + 1 - ceilDiv js blk)).map (fun k => (k + ceilDiv js blk) * blk)
        let pick (es : List Nat) : List Nat := ks.map (fun j => es.getD (j / pl.blk - pl.first) 0)
        let sc := if isMx c.df || c.df == .rb8 then pick pl.ents else []
        (t.1, 0, some (⟨r, js, j1, codes, sc, tb, if c.df == .rb8 then pick pl.lens else []⟩, {}))
      else
        let wrong := c.sf == .rb8 && pl.wrongBlk c.cw
        let g := takeFree t.1
        let o := convRun c (stn t.1 u) tb (dD0 d) r js (j0 - js) codes (pl.scale c.sf) (if wrong then some g.1 else none)
        (if wrong then g.2 else t.1, 0, some (⟨r, js, j1, o.codes, o.scales, tb,
          if c.df == .rb8 then o.scales.map (fun _ => bits c.cw 23 18 + 1) else []⟩, o))

/-- The data bytes of a segment for a memory side: MX rows are padded with code 0 to whole blocks (R48). -/
def segBytes (f : Fmt) (d0 : Nat) (g : SegOut) : List Byte :=
  let pad := if isMx f && g.j1 == d0 then ceilDiv d0 32 * 32 - d0 else 0
  packElems f (g.codes ++ List.replicate pad 0)

/-- The index of the first scale block a segment writes: G32 and row blocks start inside it. -/
def segBlk (f : Fmt) (w j0 : Nat) : Nat := if f == .rb8 then ceilDiv j0 (cwBlk w) else ceilDiv j0 32

/-- Keeps the upper nibble of a segment's last byte where the element there is not the segment's to write. -/
def keepNibble (f : Fmt) (j1 : Nat) (old : Byte) (bs : List Byte) : List Byte :=
  if ebits f = 4 && j1 % 2 = 1 then
    match bs.reverse with
    | [] => bs
    | b :: t => (BitVec.ofNat 8 (b.toNat % 16 + old.toNat / 16 * 16) :: t).reverse
  else bs

/-- The rows of a side that some byte range meets, and the smallest range that holds all rows. -/
def rowsMeet (addr : Nat) (s1 s2 : Int) (d1 d2 n a m : Nat) : Bool :=
  let lo := ((addr : Int) + spanLo s1 s2 d1 d2).toNat
  let hi := ((addr : Int) + spanHi s1 s2 d1 d2).toNat + n
  meets lo (hi - lo) a m && (List.range (d1 * d2)).any (fun r => meets (rowStart addr s1 s2 d1 r) n a m)

/-- R137: destination bytes of a descriptor overlap its source bytes or either of its scale planes (log entry 55: so does
a destination plane that overlaps the source's bytes). The memory sides that can meet are a destination and its own
plane, and a cistern source with a destination in the same slice. -/
def dOverlap (u d : Nat) : Bool :=
  let sf := (fmtOf (dSrcFmt d)).getD .fp32
  let df := (fmtOf (dDstFmt d)).getD .fp32
  let w := dNcu d
  let loc (space a : Nat) : Nat := if space = 0 then a else a % 2 ^ 23
  let da := loc (dDst d) (dDstAddr d)
  let dp := loc (dDst d) (dDstSpl d)
  let dn := rowBytes df (dD0 d)
  let dpn := planeBytes df w (dD0 d) (dRows d)
  let sa := loc (dSrc d) (dSrcAddr d)
  let sn := rowBytes sf (dD0 d)
  let dRow (a m : Nat) : Bool := rowsMeet da (dDstS1 d) (dDstS2 d) (dD1 d) (dD2 d) dn a m
  let sRow (a m : Nat) : Bool := rowsMeet sa (dSrcS1 d) (dSrcS2 d) (dD1 d) (dD2 d) sn a m
  dDst d != 3 &&
  (dRow dp dpn ||
   (!dFill d && (dSrc d == 1 || dSrc d == 2) && dOwn u d &&
     (dRow (loc (dSrc d) (dSrcSpl d)) (planeBytes sf w (dD0 d) (dRows d)) || sRow dp dpn ||
      (let lo := ((sa : Int) + spanLo (dSrcS1 d) (dSrcS2 d) (dD1 d) (dD2 d)).toNat
       let hi := ((sa : Int) + spanHi (dSrcS1 d) (dSrcS2 d) (dD1 d) (dD2 d)).toNat + sn
       dRow lo (hi - lo) &&
         (List.range (dRows d)).any (fun i => dRow (rowStart sa (dSrcS1 d) (dSrcS2 d) (dD1 d) i) sn)))))

/-- Bytes to store: with a generation, free values in their place (R137). -/
def orFree (hav : Option Nat) (a : Nat) (bs : List Byte) : List Byte :=
  match hav with
  | none => bs
  | some n => bs.mapIdx (fun k _ => Config.freeByte n (a + k))

/-- Writes a segment to the well or a cistern slice; false where a read-modify-write failed. -/
def writeMem (s : State) (u ch d : Nat) (c : Conv) (hav : Option Nat) (g : SegOut) : State × Bool :=
  let f := c.df
  let well := dDst d == 0
  let v := if dDst d = 2 then dDstUnit d else u
  let base := if well then dDstAddr d else dDstAddr d % 2 ^ 23
  let a := rowStart base (dDstS1 d) (dDstS2 d) (dD1 d) g.row + firstByte f g.j0
  let put (s : State) (a : Nat) (bs : List Byte) : State × Bool :=
    let bs := orFree hav a bs
    if well then wellWrite s a bs { acc := 0, station := lstn s u, chan := ch, tag := dTag d }
    else (let w := cistWrite s v a bs; (chainTouch w.1 u v a bs.length, w.2))
  let bs := segBytes f (dD0 d) g
  let last := a + bs.length - 1
  let old := if well then tabGet 0 s.well last else tabGet 0 s.cist (gaddr v last)
  let w1 := put s a (if g.j1 = dD0 d then bs else keepNibble f g.j1 old bs)
  if g.scales.isEmpty then w1
  else
    let sz := if f == .rb8 then 4 else 1
    let pl := if well then dDstSpl d else dDstSpl d % 2 ^ 23
    let pa := pl + (g.row * planeEntries f c.cw (dD0 d) + segBlk f c.cw g.j0) * sz
    let w2 := put w1.1 pa (g.scales.flatMap (leBytes sz))
    let s := if f == .rb8 then { w2.1 with rbLen := (g.lens.zipIdx).foldl (fun t l =>
        tabSet 0 t (planeKey (dDst d) v (pa + 4 * l.2)) l.1) w2.1.rbLen } else w2.1
    (s, w1.2 && w2.2)

/-- The TAG a pump write leaves (Table 08.4). -/
def pumpTag (x : Station) (c : Conv) : Nat :=
  if isMx c.df then tagWord 1 0 0 0 0 0
  else if c.df == .rb8 then tagWord 2 0 0 0 0 (bits c.cw 23 18)
  else if cwCarry c.cw then tagWord 3 c.ps.lsKind c.ps.lsFmt c.ps.lzEn 0 0
  else if hasZp c.df then
    tagWord 0 0 0 0 (zpOf c.df (if cwGout c.cw = 3 then (tabGet {} x.slots (cwSlotOut c.cw)).zp else cwZpOut c.cw)) 0
  else 0

/-- The sidecar bytes a CARRY writes for a row (R94, R252): entries and zero points of the covered groups. -/
def carrySide (x : Station) (c : Conv) (rg row d0 : Nat) (g : SegOut) : Station :=
  let wt := 1024 / ebits c.df
  let q := if c.ps.lsKind = 0 then 1 else ceilDiv wt (64 * c.ps.lsKind)
  let k0 := if c.ps.lsKind = 0 then 0 else g.j0 / (64 * c.ps.lsKind)
  let n := lsIndex c.ps d0 g.row (g.j1 - 1) + 1 - lsIndex c.ps d0 g.row g.j0
  let es := (g.tabs.ents.drop (lsIndex c.ps d0 g.row g.j0 - g.tabs.first)).take n
  let zs := (g.tabs.zps.drop (lsIndex c.ps d0 g.row g.j0 - g.tabs.first)).take n
  let x := tileWriteX x true rg ((row * q + k0) * lsSize c.ps) (es.flatMap (leBytes (lsSize c.ps)))
  if c.ps.lzEn = 1 then tileWriteX x true rg (0x400 + row * q + k0) (zs.flatMap (leBytes 1)) else x

/-- Writes a segment to a tile register and its sidecar (R134, R253). -/
def writeTrf (x : Station) (d : Nat) (c : Conv) (g : SegOut) : Station :=
  let f := c.df
  let rg := dDstAddr d % 32 + g.row / dD1 d
  let row := bits (dDstAddr d) 10 5 + g.row % dD1 d
  let o := 128 * row + firstByte f g.j0
  let bs := packElems f g.codes
  let x := tileWriteX x false rg o (keepNibble f g.j1 (tileByte x false rg (o + bs.length - 1)) bs)
  let x := if g.scales.isEmpty then x
    else tileWriteX x true rg (sideOff f row (segBlk f c.cw g.j0)) (g.scales.flatMap (leBytes (if f == .rb8 then 4 else 1)))
  let x := if cwCarry c.cw then carrySide x c rg row (dD0 d) g else x
  let x := if f == .n4 then
      tileWriteX x true rg 0x500 ((if cwCarry c.cw || cwGout c.cw = 4 then g.tabs.level else n4Default).map (BitVec.ofNat 8))
    else x
  setTag x rg (pumpTag x c)

/-- Whether a descriptor's own cistern slice, the well, or another station of the die is written. -/
def writeSeg (s : State) (u ch d : Nat) (c : Conv) (hav : Option Nat) (g : SegOut) : State × Bool :=
  if dDst d = 3 then (modStn s u (fun x => writeTrf x d c g), true) else writeMem s u ch d c hav g

-- forming siphon tiles (R314)

/-- How many of the first addresses follow one another without a gap. -/
def runLen : List Nat → Nat
  | [] => 0
  | [_] => 1
  | a :: b :: t => if b = a + 1 then runLen (b :: t) + 1 else 1

/-- Rows of `n` bytes, `gap` apart, that the addresses begin with: how many, of at most `fuel`. -/
def evenRows (n : Nat) (gap : Int) : Nat → Int → List Nat → Nat
  | 0, _, _ => 0
  | f + 1, a, l =>
    if (l.take n).map (fun (k : Nat) => (k : Int)) = (List.range n).map (fun (k : Nat) => a + k) ∧ n ≤ l.length then
      evenRows n gap f (a + gap) (l.drop n) + 1
    else 0

/-- The most evenly spaced rows of a whole run's length that the addresses begin with; 1 where no second row follows. -/
def rowsAt (l : List Nat) : Nat :=
  let n := runLen l
  match l, l.drop n with
  | a :: _, b :: _ => evenRows n ((b : Int) - a) (8192 / n) a l
  | _, _ => 1

/-- The better of two ways to go on: the fewer tiles, and of as many the longer first one (log entry 56). -/
def fewer (x y : Nat × Nat) : Nat × Nat := if y.1 < x.1 ∨ (y.1 = x.1 ∧ x.2 < y.2) then y else x

/-- For each suffix of a block's addresses, the fewest rectangles that cover it in traversal order, and the bytes of the
first: one row of a run, or evenly spaced rows of the run's whole length, at most 8,192 bytes in either case, cut
between elements of `al` bytes (R314). -/
def fewest (al : Nat) : List Nat → List (Nat × Nat)
  | [] => [(0, 0)]
  | a :: t =>
    let rest := fewest al t
    let n := runLen (a :: t)
    let one := (((rest.take (min n 8192)).zipIdx).filter (fun p => (p.2 + 1) % al == 0)).map (fun p => (p.1.1 + 1, p.2 + 1))
    let more := (List.range (rowsAt (a :: t) + 1)).filterMap (fun k =>
      if 2 ≤ k ∧ k * n ≤ 8192 ∧ k * n % al = 0 then (rest[k * n - 1]?).map (fun p => (p.1 + 1, k * n)) else none)
    (one ++ more).foldl fewer (2 ^ 20, 1) :: rest

/-- Cuts a block's bytes, each with its address, into the rectangles of R314. -/
def cutRects (al : Nat) : Nat → List (Nat × Byte) → List (List (Nat × Byte))
  | 0, _ => []
  | _, [] => []
  | f + 1, cells =>
    let k := max 1 (((fewest al (cells.map (·.1))).headD (0, 1)).2)
    cells.take k :: cutRects al f (cells.drop k)

/-- The tile of a rectangle. -/
def rectTile (u unit : Nat) (xp : Bool) (req : Nat) (r : List (Nat × Byte)) (spl : Nat) (sc : List Byte) : Tile :=
  let as := r.map (·.1)
  let a := as.headD 0
  let n := min as.length (runLen as)
  { dst := unit, xpkg := xp, addr := a, spl := spl, rowBytes := n, rows := if n = 0 then 0 else as.length / n,
    stride := match as.drop n with | b :: _ => (b : Int) - a | [] => 0,
    data := r.map (·.2), scale := sc, src := u, req := req }

/-- The siphon tiles of a run of row pieces and the scale bytes that travel with the last of them. -/
def formTiles (u unit : Nat) (xp : Bool) (req al : Nat) (rows : List (Nat × List Byte)) (spl : Nat) (sc : List Byte) : List Tile :=
  let cells := rows.flatMap (fun r => r.2.mapIdx (fun k b => (r.1 + k, b)))
  let rs := cutRects al (cells.length + 1) cells
  rs.mapIdx (fun k r => if k + 1 = rs.length then rectTile u unit xp req r spl sc else rectTile u unit xp req r 0 [])

/-- The tiles of a pump block. -/
def blockTiles (u ch d : Nat) (c : Conv) (hav : Option Nat) (gs : List SegOut) : List Tile :=
  let f := c.df
  let sz := if f == .rb8 then 4 else 1
  let base := dDstAddr d % 2 ^ 23
  let rows := gs.map (fun g =>
    let a := rowStart base (dDstS1 d) (dDstS2 d) (dD1 d) g.row + firstByte f g.j0
    (a, orFree hav a (segBytes f (dD0 d) g)))
  let spl := match gs.find? (fun g => !g.scales.isEmpty) with
    | some g => dDstSpl d % 2 ^ 23 + (g.row * planeEntries f c.cw (dD0 d) + segBlk f c.cw g.j0) * sz
    | none => 0
  formTiles u (dDstUnit d) (dXpkg d) ch (max 1 (ebits f / 8)) rows spl
    (orFree hav spl (gs.flatMap (fun g => g.scales.flatMap (leBytes sz))))

/-- POS once the first `n` destination bytes of a block's segments have landed (R139, R316). -/
def posAt (f : Fmt) (d0 : Nat) : Nat → Nat → List SegOut → Nat
  | pos, _, [] => pos
  | pos, n, g :: t =>
    let len := (segBytes f d0 g).length
    if len ≤ n then posAt f d0 (g.row * d0 + g.j1) (n - len) t
    else if n = 0 then pos
    else max pos (g.row * d0 + min g.j1 (g.j0 + n * 8 / ebits f))

/-- What POS stands at after each tile of a block (R340: at the start of the tile in progress). -/
def tileMarks (c : Conv) (d0 pos : Nat) (gs : List SegOut) : Nat → List Tile → List Nat
  | _, [] => []
  | n, t :: ts => posAt c.df d0 pos (n + t.data.length) gs :: tileMarks c d0 pos gs (n + t.data.length) ts

-- one pump block

/-- Converts every segment of a block; the status of the first failure, if any. -/
def convBlock (s : State) (u ch d : Nat) (c : Conv) : List (Nat × Nat × Nat) → State × Nat × List (SegOut × ConvOut)
  | [] => (s, 0, [])
  | (r, j0, j1) :: t =>
    let q := convSeg s u ch d c r j0 j1
    let rest := convBlock q.1 u ch d c t
    let st := if q.2.1 ≠ 0 then q.2.1 else rest.2.1
    (rest.1, st, q.2.2.toList ++ rest.2.2)

/-- Writes the segments of a block; false where a read-modify-write failed. -/
def writeBlock (s : State) (u ch d : Nat) (c : Conv) (hav : Option Nat) : List SegOut → State × Bool
  | [] => (s, true)
  | g :: t =>
    let w := writeSeg s u ch d c hav g
    let r := writeBlock w.1 u ch d c hav t
    (r.1, w.2 && r.2)

/-- The bytes of a block: its elements and its scale bytes. -/
def segTotal (c : Conv) (d0 : Nat) (gs : List SegOut) : Nat :=
  (gs.map (fun g => (segBytes c.df d0 g).length + g.scales.length * (if c.df == .rb8 then 4 else 1))).foldl (· + ·) 0

/-- Gathers the statistics of a block (R98, R100, R108). -/
def gatherBlock (s : State) (u : Nat) (c : Conv) (os : List ConvOut) : State :=
  os.foldl (fun s o => modStn s u (fun x => gather x c o)) s

/-- The first `n` elements of what a block gathered. -/
def tallyUpTo : Nat → List ConvOut → List ConvOut
  | _, [] => []
  | n, o :: t => { o with els := o.els.take n } :: tallyUpTo (n - o.els.length) t

/-- Which nibbles of a byte are new: free choices, one for each element of `en` nibbles (R141). -/
def mixByte (g en a : Nat) (o n : Byte) : Byte :=
  let lo := if Config.freeBit g (2 * a / en) then n.toNat % 16 else o.toNat % 16
  let hi := if Config.freeBit g ((2 * a + 1) / en) then n.toNat / 16 else o.toNat / 16
  BitVec.ofNat 8 (lo + 16 * hi)

/-- A memory of which each element that differs between two contents may hold either. -/
def mixCells (g en : Nat) (old new : List Host.Cell) : List Host.Cell :=
  ((old ++ new).map (·.1)).foldl (fun m a =>
    let o := tabGet 0 old a
    let n := tabGet 0 new a
    if o = n then m else memWrite m a [mixByte g en a o n]) old

/-- R141: a descriptor ends within a block: each of the block's elements may or may not have been written, and the
conversion may have added any first part of what it would add. A block bound for another die moves in tiles that are
written whole or not at all (R317), of which at most the first may have landed (R316). -/
def partBlock (s : State) (u ch d : Nat) (c : Conv) (hav : Option Nat) (qs : List (SegOut × ConvOut)) : State :=
  let g := takeFree s
  let s := g.2
  let gs := qs.map (·.1)
  let os := qs.map (·.2)
  let total := (os.map (fun o => o.els.length)).foldl (· + ·) 0
  let s' := gatherBlock s u c (tallyUpTo (Config.freeNat g.1 0 % (total + 1)) os)
  if dRemote u d then
    match blockTiles u ch d c hav gs with
    | t :: _ => if !dXpkg d && Config.freeBit g.1 0 then (landTile s' t).1 else s'
    | [] => s'
  else
    let en := max 1 (min 8 (ebits c.df / 4))
    let w := (writeBlock { s with cistErr := [], wellErr := [] } u ch d c hav gs).1
    let s' := { s' with cist := mixCells g.1 en s.cist w.cist, well := mixCells g.1 en s.well w.well }
    modStn s' u (fun x => { x with trf := mixCells g.1 en (stn s u).trf (stn w u).trf,
                                   side := mixCells g.1 2 (stn s u).side (stn w u).side })

/-- Bytes of WELL leave a block spends: its source data. -/
def blockBytes (c : Conv) (d0 p e : Nat) : Nat := byteOfElem c.sf d0 e - byteOfElem c.sf d0 p

/-- Whether a descriptor needs WELL leave (Table 04.5). -/
def needsWell (d : Nat) : Bool := (!dFill d && dSrc d == 0) || dDst d == 0

/-- The control word and set an active descriptor uses: latched with its first element (R87). -/
def activeConv (x : Station) (u : Nat) (a : Active) : Conv :=
  match a.latched with
  | some (w, p) => dConv u a.raw w p
  | none => dConv u a.raw (dNcu a.raw) (dPset x u a.raw)

/-- R149, R223: the next block of a channel can take its NCU: it is not ended, cancelled or waiting for its tiles, its
leave is in hand, and a step close does not hold it back. -/
def blockReady (x : Station) (u ch : Nat) : Bool :=
  match (getChan x ch).active with
  | some a =>
    let c := activeConv x u a
    let d0 := dD0 a.raw
    a.ended.isNone && !a.cancel && a.sip.tiles.isEmpty && decide (a.pos < dTotal a.raw) &&
    (!needsWell a.raw || decide (blockBytes c d0 a.pos (blockEnd c d0 (dTotal a.raw) a.pos) ≤ a.leaveBytes)) &&
    !(a.latched.isNone && c.namesSlot && (match x.closing with | some (_, false) => true | _ => false))
  | none => false

/-- R150, R279: the requester whose turn it is at an NCU, from the one after the last holder: a channel, or 4 for the chain
sequencer. Before any has held it, the order begins with channel 0, and a station reset keeps the last holder (log entry
57). -/
def ncuTurn (s : State) (u : Nat) (egress : Bool) : Option Nat :=
  let x := stn s u
  let last := tabGet 4 x.ncuLast (b2n egress)
  ([1, 2, 3, 4, 5].map (fun k => (last + k) % 5)).find? (fun ch =>
    if ch = 4 then x.chains.any (chainWants s u egress)
    else blockReady x u ch &&
      (match (getChan x ch).active with | some a => dEgress u a.raw == egress | none => false))

/-- The block that channel `ch` has in hand: its conversion, its end, and its segments as read and converted. -/
structure BlockRun where
  conv : Conv
  stop : Nat
  hav : Option Nat
  st : State
  status : Nat
  segs : List (SegOut × ConvOut)

/-- Reads and converts the block that starts at POS; bytes that R137 leaves unpredictable are free. -/
def runBlock (s : State) (u ch : Nat) (a : Active) : BlockRun :=
  let c := activeConv (stn s u) u a
  let d := a.raw
  let e := blockEnd c (dD0 d) (dTotal d) a.pos
  let h := takeFree s
  let q := convBlock (if dOverlap u d then h.2 else s) u ch d c (segments (dD0 d) (e - a.pos + 1) a.pos e)
  ⟨c, e, if dOverlap u d then some h.1 else none, q.1, q.2.1, q.2.2⟩

/-- The effect of one block of channel `ch` (R149, R136, R141). -/
def pumpBlock (s : State) (u ch : Nat) (a : Active) : State :=
  let c := activeConv (stn s u) u a
  let d := a.raw
  let n := blockBytes c (dD0 d) a.pos (blockEnd c (dD0 d) (dTotal d) a.pos)
  let s := modStn s u (fun x => { x with ncuLast := tabPut x.ncuLast (b2n (dEgress u d)) ch })
  let left := if needsWell d then a.leaveBytes - n else a.leaveBytes
  let s := modActive s u ch (fun a => { a with latched := some (c.cw, c.ps), leaveBytes := left })
  if dRemote u d && !routeUp s (route s (u / 32) (dDstUnit d / 32) (dXpkg d)) then
    modActive s u ch (fun a => { a with ended := some 0x12 })
  else
    let b := runBlock s u ch { a with latched := some (c.cw, c.ps) }
    let gs := b.segs.map (·.1)
    let os := b.segs.map (·.2)
    if b.status ≠ 0 then
      modActive (partBlock b.st u ch d c b.hav b.segs) u ch (fun a => { a with ended := some b.status })
    else if dRemote u d then
      let ts := blockTiles u ch d c b.hav gs
      modActive (gatherBlock b.st u c os) u ch (fun k =>
        { k with sip := { tiles := ts, phase := 0 }, marks := (tileMarks c (dD0 d) a.pos gs 0 ts).set (ts.length - 1) b.stop })
    else
      let w := writeBlock (gatherBlock b.st u c os) u ch d c b.hav gs
      if w.2 then modActive (primeBytes w.1 (if dDst d = 1 ∨ dDst d = 2 then segTotal c (dD0 d) gs else 0)) u ch (fun a => { a with pos := b.stop })
      else
        let p := partBlock b.st u ch d c b.hav b.segs
        modActive { w.1 with cist := p.cist, well := p.well, stns := p.stns, free := p.free } u ch
          (fun a => { a with ended := some (ueStatus (dDst d)) })

/-- Whether channel `ch` has a request outstanding at a well controller, for the block whose turn it is at its NCU, or at
a die link or Extium Link (R142). A request that waits for leave, for the NCU or for a step close has not been made. -/
def outstandingLow (s : State) (u ch : Nat) (a : Active) : Bool :=
  a.ended.isNone &&
  ((needsWell a.raw && blockReady (stn s u) u ch && ncuTurn s u (dEgress u a.raw) == some ch) || a.sip.phase == 3)

/-- The block that a descriptor has in hand when it ends early without an answer (R141, R142). -/
def cutBlock (s : State) (u ch : Nat) (a : Active) : State :=
  if a.sip.phase = 3 then s
  else
    let z := runBlock { s with cistErr := [], wellErr := [] } u ch a
    partBlock s u ch a.raw z.conv z.hav z.segs

/-- R149: a channel that has its turn at its NCU converts one pump block. In a station reset only the answer to a request
made before it can come: the begun block may or may not be written, and the descriptor is dropped (R147, R186). -/
def execPumpBlock (u ch : Nat) (s : State) : Host.Outcome State Fault Refusal :=
  let x := stn s u
  match (getChan x ch).active with
  | some a =>
    guard s (engineGoes s u && ncuTurn s u (dEgress u a.raw) == some ch)
      (if x.inReset then modStn (cutBlock s u ch a) u (fun x => setChan x ch { getChan x ch with active := none })
       else pumpBlock s u ch a)
  | none => .next s

-- completion (R138 to R140)

/-- The status an active descriptor completes with, if it can complete now. -/
def completes (a : Active) : Option Nat :=
  match a.ended with
  | some st => some st
  | none =>
    if a.pos = dTotal a.raw then some 0
    else if a.cancel && a.sip.tiles.isEmpty then some 1
    else none

/-- The channel after a completion with status `st`. -/
def chanDone (c : Chan) (a : Active) (st : Nat) : Chan :=
  let w := st + 2 ^ 8 * dTag a.raw + 2 ^ 24 * (a.pos % 2 ^ 40)
  { c with active := none, last := w,
           firstErr := if st ≠ 0 ∧ c.errCnt = 0 then w else c.firstErr,
           errCnt := if st ≠ 0 then stick 0xFFFF (c.errCnt + 1) else c.errCnt }

/-- Whether a leave request is one of channel `ch` of unit `u`. -/
def reqOfChan (u ch : Nat) (q : LReq) : Bool :=
  q.unit == u && (match q.what with | .span c _ => c == ch | .pumpTile c => c == ch | _ => false)

/-- Whether a leave request is for a span of channel `ch`. -/
def reqOfSpan (u ch : Nat) (q : LReq) : Bool := q.unit == u && (match q.what with | .span c _ => c == ch | _ => false)

/-- R356: WELL leave granted for spans that have not started is credited back: at a cancel, a reset, or where the part
enters P2 to P4. -/
def creditSpans (s : State) (u ch : Nat) (a : Active) : State :=
  let asked := (s.gov.reqs.filter (reqOfSpan u ch)).foldl (fun n q => match q.what with | .span _ b => n + b | _ => n) 0
  let granted := a.leaveAsked - asked
  let used := granted - a.leaveBytes
  let whole := granted - ceilDiv used 65536 * 65536
  creditBack s (ceilDiv whole 1024 * costEntry 5 false)

/-- Ends a channel's active descriptor: status, counters, and its leave, of which a cancel credits back what has not
started (R356). -/
def descEnd (s : State) (u ch : Nat) (a : Active) (st : Nat) : State :=
  let s := if st ≠ 0 then addReg s Reg.pumpErr 1 else s
  let s := if st = 1 then creditSpans s u ch a else s
  let s := withdraw s (reqOfChan u ch)
  modStn s u (fun x => setChan x ch (chanDone (getChan x ch) a st))

/-- R138: a descriptor completes, and its event is incremented whatever its status. -/
def execDescComplete (u ch : Nat) (s : State) : Host.Outcome State Fault Refusal :=
  match (getChan (stn s u) ch).active with
  | none => .next s
  | some a =>
    match completes a with
    | none => .next s
    | some st => guard s (engineOn s u) (evBump (descEnd s u ch a st) u (dEvt a.raw))

/-- R142, R144: the timer of a descriptor reaches its timeout: PUMP_TIMEOUT is recorded, and it ends with TIMEOUT. A
station in reset abandons the request, and nothing completes (R186). `req` names a channel, or 4 + thread for a page
read of that thread's chain, which writes no record of its own (R298, R305). -/
def execTimeout (u req : Nat) (s : State) : Host.Outcome State Fault Refusal :=
  let x := stn s u
  if req < 4 then
    match (getChan x req).active with
    | some a =>
      let s' := pushRec (noteFault s) ⟨6, lstn s u * 4 + req, 0x10, leBytes 2 (dTag a.raw) ++ leBytes 5 a.pos ++ leBytes 1 (b2n x.inReset)⟩
      let s' := sipOrphan (cutBlock s' u req a) a.sip
      guard s (isResident s u && outstandingLow s u req a)
        (if x.inReset then modStn s' u (fun x => setChan x req { getChan x req with active := none })
         else modActive s' u req (fun a => { a with ended := some 0x13, sip := {} }))
    | none => .next s
  else
    match chainOf x (req - 4) with
    | some c =>
      guard s (engineOn s u && pageReadReady s u c && ncuTurn s u false == some 4)
        (modStn s u (fun x => { x with chains := x.chains.map (fun k =>
          if k.thread = req - 4 then { k with ended := some 0x13 } else k) }))
    | none => .next s

-- pump instructions (R201 to R203, R146)

/-- PISSUE (R125, R126, R201). -/
def pissueBody (u : Nat) (s : State) (i : InFlight) : Ret :=
  let a := (opA s u i).toNat
  let ch := fCh i.word
  if a % 64 ≠ 0 || !inGeneral a 64 then .trap 6 s
  else
    let c := getChan (stn s u) ch
    if 16 ≤ c.queue.length + (if c.active.isSome then 1 else 0) then .hold s
    else
      let r := cistRead s u a 64 0
      match r.2 with
      | none => .trap 8 r.1
      | some bs => .done (modStn r.1 u (fun x =>
          let c := getChan x ch; setChan x ch { c with queue := c.queue ++ [(leNat bs, false)] }))

/-- Table 06.8, PISSUE. -/
def execPissue (u t : Nat) (s : State) : Host.Outcome State Fault Refusal := retire .pissue (pissueBody u) u t s

/-- Table 06.9: a PSTAT value, and the thread's latches after it; none for an illegal selector. -/
def pstatSel (c : Chan) (h : Thread) (ch sel : Nat) : Option (Nat × Thread) :=
  match sel with
  | 0 => some (c.last % 2 ^ 32, { h with latchLast := tabSet 0 h.latchLast ch c.last })
  | 1 => some (tabGet 0 h.latchLast ch / 2 ^ 32, h)
  | 2 => some (c.firstErr % 2 ^ 32, { h with latchErr := tabSet 0 h.latchErr ch c.firstErr })
  | 3 => some (tabGet 0 h.latchErr ch / 2 ^ 32, h)
  | 4 => some (c.errCnt, h)
  | 5 => some (c.queue.length + (if c.active.isSome then 1 else 0), h)
  | _ => none

/-- PSTAT (R202). -/
def pstatBody (u : Nat) (s : State) (i : InFlight) : Ret :=
  let x := stn s u
  match pstatSel (getChan x (fCh i.word)) (thr x i.thread) (fCh i.word) (fSel i.word) with
  | none => .trap 3 s
  | some (v, h) => .done (writeS (modStn s u (fun x => setThr x i.thread h)) u i (fRd i.word) (BitVec.ofNat 32 v))

/-- Table 06.8, PSTAT. -/
def execPstat (u t : Nat) (s : State) : Host.Outcome State Fault Refusal := retire .pstat (pstatBody u) u t s

/-- Table 06.8, PCLR (R203). -/
def execPclr (u t : Nat) (s : State) : Host.Outcome State Fault Refusal :=
  retire .pclr (fun s i => .done (modStn s u (fun x =>
    setChan x (fCh i.word) { getChan x (fCh i.word) with firstErr := 0, errCnt := 0 }))) u t s

/-- PCANCEL (R146): the active descriptor stops at its next block boundary, and the descriptors now queued will
complete ABORTED. -/
def pcancelBody (u : Nat) (s : State) (i : InFlight) : Ret :=
  let ch := fCh i.word
  .done (modStn s u (fun x =>
    let c := getChan x ch
    setChan x ch { c with queue := c.queue.map (fun p => (p.1, true)), active := c.active.map (fun a => { a with cancel := true }) }))

/-- Table 06.8, PCANCEL. -/
def execPcancel (u t : Nat) (s : State) : Host.Outcome State Fault Refusal := retire .pcancel (pcancelBody u) u t s

end Sys2Proof.Machine
end

