-- ==== Sys2Proof/Machine/Array.lean ====
section
/-! DEFINITION. Machine/Array.lean: the matrix arrays of chapter 07: operand modes, the value of a pass, the command
queue and the two weight banks, and the rows MSHIFT, MPASS, SHIFT_START, SHIFT_COMPLETE, PASS_START and
PASS_COMPLETE. -/

namespace Sys2Proof.Machine

-- fields (Tables 06.11, 06.12)
def aMa (w : Nat) : Nat := bits w 25 23
def aReg (w : Nat) : Nat := bits w 22 18
def msFmt (w : Nat) : Nat := bits w 17 13
def msKsel (w : Nat) : Nat := bits w 12 11
def msEv (w : Nat) : Bool := w.testBit 10
def msEvt (w : Nat) : Nat := bits w 9 5
def mpPair (w : Nat) : Nat := bits w 17 14
def mpFmt (w : Nat) : Nat := bits w 13 9
def mpAcc (w : Nat) : Bool := w.testBit 8
def mpEv (w : Nat) : Bool := w.testBit 7
def mpEvt (w : Nat) : Nat := bits w 6 2

/-- The 8-bit array formats of Table 07.1. -/
def arr8 : Fmt → Bool
  | .e4m3 | .e5m2 | .int8 | .uint8 | .mxfp8 | .mxint8 => true
  | _ => false

/-- Table 07.3: whether a K segment is defined for an array weight format. -/
def kselOk (f : Fmt) (k : Nat) : Bool :=
  match f with
  | .n4 => decide (k ≤ 2)
  | .bf16 | .int4 | .u4 | .mxfp4 => k == 0
  | f => arr8 f && k == 0

/-- Table 07.1: the operand mode of a pair: 0 M16, 1 M8, 2 M4X8, 3 M4. -/
def modeOf (wf : Fmt) (ksel : Nat) (af : Fmt) : Option Nat :=
  match wf, af with
  | .bf16, .bf16 => some 0
  | .n4, a => if arr8 a && (ksel == 1 || ksel == 2) then some 2 else none
  | .int4, .int4 => some 3
  | .u4, .u4 => some 3
  | .mxfp4, .mxfp4 => some 3
  | w, a => if arr8 w && arr8 a then some 1 else none

/-- K positions of a pass, and the cost-table entry of a mode (Table 11.1). -/
def modeK (m : Nat) : Nat := if m = 0 then 64 else if m = 3 then 256 else 128
def modeCost (m : Nat) : Nat := if m = 0 then 0 else if m = 3 then 2 else 1

/-- Formats whose pair accumulates in INT32 (R232). -/
def intFmt : Fmt → Bool
  | .int8 | .uint8 | .int4 | .u4 | .n4 => true
  | _ => false

/-- One operand tile of a pass: its format, and 64 rows of element bytes, with the sidecar bytes as they stand. -/
structure Opnd where
  fmt : Fmt
  rows : List (List Byte)
  side : List Byte
  deriving DecidableEq, Repr

def Opnd.tag (o : Opnd) : Nat := tagOf o.side
/-- Whether a tile carries learned scales (R232, R255). -/
def Opnd.learned (o : Opnd) : Bool := tagSkind o.tag == 3
/-- Index of the learned entry of element `(r, c)` (R252). -/
def learnIdx (f : Fmt) (kind r c : Nat) : Nat :=
  if kind = 0 then r else r * ceilDiv (1024 / ebits f) (64 * kind) + c / (64 * kind)
/-- The learned scale of element `(r, c)`. -/
def Opnd.lambda (o : Opnd) (r c : Nat) : Val :=
  let i := learnIdx o.fmt (bits o.tag 4 3) r c
  if o.tag.testBit 5 then f32 (leNat ((o.side.drop (4 * i)).take 4)) else bf16 (leNat ((o.side.drop (2 * i)).take 2))
/-- The zero point of element `(r, c)` of a UINT8 or U4 operand (R255). -/
def Opnd.zp (o : Opnd) (r c : Nat) : Nat :=
  if tagSkind o.tag = 0 then bits o.tag 15 8
  else if o.learned && o.tag.testBit 6 then (o.side.getD (0x400 + learnIdx o.fmt (bits o.tag 4 3) r c) 0).toNat
  else 0
/-- The N4 level table of a sidecar. -/
def Opnd.level (o : Opnd) : List Nat := ((o.side.drop 0x500).take 16).map (·.toNat)
/-- The block exponent of row `r`, block `b`, as a value: 1 when the operand is not MX (R241). -/
def Opnd.exp (o : Opnd) (r b : Nat) : Val :=
  if isMx o.fmt then e8m0 (o.side.getD (sideMx o.fmt r b) 0).toNat else vOne
where
  /-- Offset of an MX exponent in the sidecar (R252). -/
  sideMx (f : Fmt) (r b : Nat) : Nat := r * (if ebits f = 4 then 8 else 4) + b

/-- Table 07.2: the values that row `r` presents at positions `[k0, k0 + n)`. -/
def Opnd.values (o : Opnd) (r k0 n : Nat) : List Val :=
  let codes := unpackElems o.fmt (o.rows.getD r []) (k0 + n)
  (List.range n).map (fun k => decElem o.fmt (o.zp r (k0 + k)) o.level (codes.getD (k0 + k) 0))

/-- The exact sum of products of two runs (P of R240, P_b of R241). -/
def dotExact : List Val → List Val → Option Val
  | a :: as, b :: bs =>
    match dotExact as bs with
    | none => some (vMul a b)
    | some v => some (vAdd (vMul a b) v)
  | _, _ => none

/-- A λ that is not finite makes its products NaN (R243). -/
def finiteOrNan (v : Val) : Val := if v.isFin then v else .nan

/-- R241: the accumulator after the blocks of 32 positions. -/
def accBlocks (a w : Opnd) (i j k0 : Nat) (acc : Nat) : List (Nat × List Val × List Val) → Nat
  | [] => acc
  | (b, av, wv) :: t =>
    let p := (dotExact av wv).getD vZero
    let x := vMul (a.exp i b) (w.exp j (b + k0 / 32))
    let lam := if w.learned then finiteOrNan (w.lambda j (32 * b + k0)) else vOne
    let c := vMul (vMul p x) lam
    accBlocks a w i j k0 (toF32 (vAdd (f32 acc) c)) t

/-- R242: the accumulator after the positions of an M16 pass. -/
def accElems (w : Opnd) (j k : Nat) (acc : Nat) : List Val → List Val → Nat
  | a :: as, b :: bs =>
    let lam := if w.learned then finiteOrNan (w.lambda j k) else vOne
    accElems w j (k + 1) (toF32 (vAdd (f32 acc) (vMul (vMul a b) lam))) as bs
  | _, _ => acc

/-- R240: the INT32 accumulator. -/
def accInt (old : Int) (av wv : List Val) : Nat :=
  unsigned 32 (satI (old + rnaInt ((dotExact av wv).getD vZero)) (-2147483647) 2147483647)

/-- Whether a pass accumulates in INT32 (R232). -/
def intPass (a w : Opnd) : Bool := intFmt a.fmt && intFmt w.fmt && !w.learned

/-- One element of a pass (R229, R240 to R244): `old` is the element's 32 bits, or none for ACC 0. -/
def passElem (mode : Nat) (a w : Opnd) (k0 i j : Nat) (av wv : List Val) (old : Option Nat) : Nat :=
  if intPass a w then accInt ((old.map (sext 32)).getD 0) av wv
  else if mode = 0 then accElems w j 0 (old.getD 0) av wv
  else accBlocks a w i j k0 (old.getD 0)
    (((chunks 32 (av.length + 1) av).zip (chunks 32 (wv.length + 1) wv)).mapIdx (fun b p => (b, p.1, p.2)))

/-- The 64 × 64 results of a pass; `old` gives the pair's elements for ACC 1. -/
def passTile (mode : Nat) (a w : Opnd) (k0 : Nat) (old : Option (List (List Nat))) : List (List Nat) :=
  let k := modeK mode
  let ws := (List.range 64).map (fun j => w.values j k0 k)
  (List.range 64).map (fun i =>
    let av := a.values i 0 k
    ws.mapIdx (fun j wv => passElem mode a w k0 i j av wv (old.map (fun o => (o.getD i []).getD j 0))))

-- reading operands from the TRF

/-- R234: the sidecar ranges that the array reads of an operand besides its TAG, row by row for elements `[c0, c0 + n)`:
block exponents, the learned scales of a weight, the zero points that go with learned scales; and an N4 level table. -/
def sideRanges (f : Fmt) (tag : Nat) (weight : Bool) (c0 n : Nat) : List (Nat × Nat) :=
  let learned := tagSkind tag == 3
  let sz := if tag.testBit 5 then 4 else 2
  let b := if ebits f = 4 then 8 else 4
  let first (r : Nat) : Nat := learnIdx f (bits tag 4 3) r c0
  let count (r : Nat) : Nat := learnIdx f (bits tag 4 3) r (c0 + n - 1) + 1 - first r
  (List.range 64).flatMap (fun r =>
    (if weight && learned then [(sz * first r, sz * count r)] else if isMx f then [(r * b, b)] else []) ++
    (if hasZp f && learned && tag.testBit 6 then [(0x400 + first r, count r)] else [])) ++
  (if f == .n4 then [(0x500, 16)] else [])

/-- Reads 64 rows of `n` bytes from byte `o` of each row of a register. -/
def readRows (s : State) (u r o n : Nat) : State × List (List Byte) :=
  (List.range 64).foldl (fun (p : State × List (List Byte)) i =>
    let b := tileRead p.1 u false r (128 * i + o) n
    (b.1, p.2 ++ [b.2])) (s, [])

/-- An operand tile of a pass, from `n` bytes of each row of its register from byte `o`. The TAG is read of a weight (R232)
and of an activation with a zero point (R255). -/
def readOpnd (s : State) (u r : Nat) (f : Fmt) (weight : Bool) (o n : Nat) : State × Opnd :=
  let t := if weight || hasZp f then (let q := tileRead s u true r 0x510 4; (q.1, leNat q.2)) else (s, 0)
  let d := sideReads t.1 u r (sideRanges f t.2 weight (8 * o / ebits f) (8 * n / ebits f))
  let b := readRows d u r o n
  (b.1, ⟨f, b.2.map (fun row => List.replicate o 0 ++ row), tileBytes (stn s u) true r 0 0x510 ++ leBytes 4 t.2⟩)

-- the command queue (R207, R238, R245)

def getArr (x : Station) (ma : Nat) : Arr := tabGet {} x.arrs ma
def setArr (x : Station) (ma : Nat) (a : Arr) : Station := { x with arrs := tabPut x.arrs ma a }

/-- R282: the chains that have claimed an array and still hold it. -/
def claimants (x : Station) (ma : Nat) : List ChainRec :=
  (watched x).filter (fun c => (halfArrays (cHalf c.raw)).contains ma)

/-- Writes free values over all that a chain of unit `u` has written or will write in this package. -/
def spoilOutput (s : State) (u g : Nat) (c : ChainRec) : State :=
  if cOspace c.raw = 2 then modStn s u (fun x => elemHavoc x (outRegs c.raw) g)
  else if cXpkg c.raw then s
  else (writeRanges c.raw).foldl (fun s p => spoilBytes s (cDstUnit u c.raw) p.1 p.2 g (inOut c.raw)) s

/-- R282: a command has been handed off to an array: the output of the chains that have claimed it is unpredictable. -/
def breakChains (s : State) (u ma : Nat) : State :=
  let hit := claimants (stn s u) ma
  if hit.isEmpty then s
  else
    let g := takeFree s
    let s := modStn g.2 u (fun x => { x with chains := x.chains.map (fun c => if hit.contains c then { c with broken := some g.1 } else c) })
    hit.foldl (fun s c => spoilOutput s u g.1 c) s

/-- Puts a command at the end of an array's queue (R207), at its hand-off. -/
def handOff (s : State) (u ma : Nat) (f : Arr → Arr) (c : ACmd) : State :=
  let bad := !(claimants (stn s u) ma).isEmpty
  breakChains (modStn s u (fun x =>
    let a := f (getArr x ma)
    setArr x ma { a with q := a.q ++ [{ c with bad := bad }] })) u ma

/-- MSHIFT (R205, R207, R209, R238): refused, held, or queued with the bank it fills. -/
def mshiftBody (u : Nat) (s : State) (i : InFlight) : Ret :=
  let w := i.word
  let ma := aMa w
  match fmtOf (msFmt w) with
  | none => .trap 3 s
  | some f =>
    if !kselOk f (msKsel w) then .trap 3 s
    else if 8 ≤ (getArr (stn s u) ma).q.length then .hold s
    else match joinOrPlace s u 0 .array 16 [(3, 1)] with
      | none => .hold s
      | some (s, id) =>
        let bank := 1 - (getArr (stn s u) ma).lastBank
        .done (handOff s u ma (fun a => { a with lastBank := bank, lastW := some (msFmt w, msKsel w) })
          { word := w, shift := true, bank := bank, req := some id })

/-- Table 06.2, MSHIFT. -/
def execMshift (u t : Nat) (s : State) : Host.Outcome State Fault Refusal := retire .mshift (mshiftBody u) u t s

/-- The mode of an MPASS against the most recent MSHIFT (R206, R231). -/
def mpassMode (a : Arr) (w : Nat) : Option Nat :=
  match a.lastW, fmtOf (mpFmt w) with
  | some (wf, k), some af => (fmtOf wf).bind (fun wf => modeOf wf k af)
  | _, _ => none

/-- MPASS (R206, R207, R209). -/
def mpassBody (u : Nat) (s : State) (i : InFlight) : Ret :=
  let w := i.word
  let ma := aMa w
  match mpassMode (getArr (stn s u) ma) w with
  | none => .trap 3 s
  | some m =>
    if aReg w / 2 = mpPair w then .trap 3 s
    else if 8 ≤ (getArr (stn s u) ma).q.length then .hold s
    else match joinOrPlace s u 0 .array 16 [(modeCost m, 1)] with
      | none => .hold s
      | some (s, id) => .done (handOff s u ma (fun a => a)
          { word := w, shift := false, bank := (getArr (stn s u) ma).lastBank, entry := modeCost m, req := some id })

/-- Table 06.2, MPASS. -/
def execMpass (u t : Nat) (s : State) : Host.Outcome State Fault Refusal := retire .mpass (mpassBody u) u t s

/-- The position of the command that can start next: the first shift, or the first pass that has not begun. -/
def nextCmd (a : Arr) (shift : Bool) : Option Nat :=
  a.q.findIdx? (fun c => c.shift == shift && c.phase == .queued)

/-- R245: whether the shift at position `k` can start. -/
def shiftReady (a : Arr) (k : Nat) : Bool :=
  match a.q[k]? with
  | some c => c.req.isNone &&
    (a.q.take k).all (fun p => !p.shift && (p.phase != .queued || p.bank != c.bank))
  | none => false

/-- R245: whether the pass at position `k` can start. -/
def passReady (a : Arr) (k : Nat) : Bool :=
  match a.q[k]? with
  | some c => c.req.isNone &&
    (a.q.take k).all (fun p => if p.shift then p.bank != c.bank else p.phase != .queued)
  | none => false

/-- Sets the phase of the command at a position. -/
def setPhase (a : Arr) (k : Nat) (ph : APhase) : Arr :=
  { a with q := a.q.mapIdx (fun n c => if n = k then { c with phase := ph } else c) }

def getBank (a : Arr) (b : Nat) : Bank := if b = 0 then a.bank0 else a.bank1
def setBank (a : Arr) (b : Nat) (x : Bank) : Arr := if b = 0 then { a with bank0 := x } else { a with bank1 := x }

/-- The listed cells of a run of bytes. -/
def cellsOf (a : Nat) (bs : List Byte) : List (Nat × BitVec 8) :=
  (bs.mapIdx (fun k b => (a + k, b))).filter (fun c => c.2 != 0)

/-- First byte and bytes of a row that a K segment takes (Table 07.3). -/
def segOff (f : Fmt) (k : Nat) : Nat := if f == .n4 && k == 2 then 64 else 0
def segLen (f : Fmt) (k : Nat) : Nat := if f == .n4 && k != 0 then 64 else 128

/-- R236: the effect of a shift: the bank holds tw's segment and sidecar. -/
def shiftEffect (s : State) (u ma k w bank : Nat) : State :=
  match fmtOf (msFmt w) with
  | none => s
  | some f =>
    let r := readOpnd s u (aReg w) f true (segOff f (msKsel w)) (segLen f (msKsel w))
    let o := r.2
    let b : Bank := { fmt := msFmt w, ksel := msKsel w, tile := (o.rows.mapIdx (fun i row => cellsOf (128 * i) row)).flatten,
                      side := cellsOf 0 o.side, havoc := 0 }
    modStn r.1 u (fun x => setArr x ma { setPhase (setBank (getArr x ma) bank b) k .running with begunBank := bank })

/-- R245: the next MSHIFT of an array starts. -/
def execShiftStart (u ma : Nat) (s : State) : Host.Outcome State Fault Refusal :=
  let a := getArr (stn s u) ma
  match nextCmd a true with
  | some k =>
    let c := a.q.getD k { word := 0, shift := true, bank := 0 }
    guard s (engineOn s u && shiftReady a k) (shiftEffect s u ma k c.word c.bank)
  | none => .next s

/-- Completion of the first running command of a kind: it leaves the queue and increments its event (R246). -/
def arrComplete (s : State) (u ma : Nat) (shift : Bool) : Option State :=
  let a := getArr (stn s u) ma
  match a.q.findIdx? (fun c => c.shift == shift && c.phase != .queued) with
  | none => none
  | some k =>
    let w := ((a.q.getD k { word := 0, shift := true, bank := 0 }).word)
    let s := modStn s u (fun x => setArr x ma { a with q := a.q.eraseIdx k })
    some (if shift then (if msEv w then evBump s u (msEvt w) else s) else (if mpEv w then evBump s u (mpEvt w) else s))

/-- R246: a shift completes. -/
def execShiftComplete (u ma : Nat) (s : State) : Host.Outcome State Fault Refusal :=
  if engineGoes s u then enabled s (arrComplete s u ma true) else .next s

/-- The weight operand of a bank: free bytes where a chain has left it unpredictable (R281). -/
def bankOpnd (b : Bank) (f : Fmt) : Opnd :=
  let byte (m : List (Nat × BitVec 8)) (o base : Nat) : Byte :=
    if b.havoc = 0 then tabGet 0 m o else Config.freeByte b.havoc (base + o)
  ⟨f, (List.range 64).map (fun i => (List.range 128).map (fun k => byte b.tile (128 * i + k) 0)),
    (List.range 0x514).map (fun o => byte b.side o 8192)⟩

/-- The accumulator pair's elements as they stand (R228). -/
def readPair (s : State) (u p : Nat) : State × List (List Nat) :=
  let a := readRows s u (2 * p) 0 128
  let b := readRows a.1 u (2 * p + 1) 0 128
  (b.1, (a.2.zip b.2).map (fun r => entries 4 r.1 ++ entries 4 r.2))

/-- Writes a pair's elements; both registers' TAGs become 0 (R253). -/
def writePair (x : Station) (p : Nat) (es : List (List Nat)) : Station :=
  let half (h : Nat) : List Byte := es.flatMap (fun row => ((row.drop (32 * h)).take 32).flatMap (leBytes 4))
  setTag (tileWriteX (setTag (tileWriteX x false (2 * p) 0 (half 0)) (2 * p) 0) false (2 * p + 1) 0 (half 1)) (2 * p + 1) 0

/-- R247: the elements of a pair are free values; the pass makes its TAGs 0 and changes no other word (R253, R261). -/
def havocPair (s : State) (u p : Nat) : State :=
  let g := takeFree s
  modStn g.2 u (fun x => elemHavoc (setTag (setTag x (2 * p) 0) (2 * p + 1) 0) [2 * p, 2 * p + 1] g.1)

/-- R247: another array is passing into the same pair. -/
def pairShared (x : Station) (ma p : Nat) : Bool :=
  x.arrs.any (fun q => q.1 != ma && q.2.q.any (fun c => !c.shift && c.phase != .queued && mpPair c.word == p))

/-- The result of a pass: read, multiply, write (R229, R238 to R244). -/
def passEffect (s : State) (u ma k w bank : Nat) : State :=
  let a := getArr (stn s u) ma
  let b := getBank a bank
  let s := modStn s u (fun x => setArr x ma { setPhase a k .running with front := bank })
  match fmtOf b.fmt, fmtOf (mpFmt w) with
  | some wf, some af =>
    match modeOf wf b.ksel af with
    | none => havocPair s u (mpPair w)
    | some m =>
      let q := readOpnd s u (aReg w) af false 0 128
      let old := if mpAcc w then let o := readPair q.1 u (mpPair w); (o.1, some o.2) else (q.1, none)
      let k0 := if b.ksel = 2 then 128 else 0
      let s := modStn old.1 u (fun x => writePair x (mpPair w) (passTile m q.2 (bankOpnd b wf) k0 old.2))
      if pairShared (stn s u) ma (mpPair w) then havocPair s u (mpPair w) else s
  | _, _ => havocPair s u (mpPair w)

/-- R282: a pass that was handed off to a claimed array leaves its own pair unpredictable. -/
def passClaimed (s : State) (u ma k w bank : Nat) : State :=
  havocPair (modStn s u (fun x => setArr x ma { setPhase (getArr x ma) k .running with front := bank })) u (mpPair w)

/-- R245: the next MPASS of an array starts. -/
def execPassStart (u ma : Nat) (s : State) : Host.Outcome State Fault Refusal :=
  let a := getArr (stn s u) ma
  match nextCmd a false with
  | some k =>
    let c := a.q.getD k { word := 0, shift := false, bank := 0 }
    guard s (engineOn s u && passReady a k)
      (if c.bad then passClaimed s u ma k c.word c.bank else passEffect s u ma k c.word c.bank)
  | none => .next s

/-- R246: a pass completes. -/
def execPassComplete (u ma : Nat) (s : State) : Host.Outcome State Fault Refusal :=
  if engineGoes s u then enabled s (arrComplete s u ma false) else .next s

end Sys2Proof.Machine
end

