-- ==== Sys2Proof/Machine/VecFun.lean ====
section
/-! DEFINITION. Machine/VecFun.lean: the functions 0x10 to 0x18 of the vector engine (R270 to R272). The mapping is the
opaque `Config.vfun`; what the model says of it is that every result lies within Table 08.7 and obeys Table 08.8. The
exact function is enclosed in fixed point, 160 bits after the point. -/

namespace Sys2Proof.Machine

/-- Fixed point: integers in units of 2^−160. -/
def fxBits : Nat := 160
def fxOne : Int := 2 ^ fxBits
def fxMul (a b : Int) : Int := a * b / 2 ^ fxBits
def fxDiv (a b : Int) : Int := a * 2 ^ fxBits / b
/-- A finite value in fixed point, rounded down. -/
def fxOf (v : Val) : Int := match v with
  | .fin s n d => let x : Int := (n * 2 ^ fxBits / d : Nat); if s then -x else x
  | _ => 0
/-- A fixed-point number as an exact value. -/
def fxVal (x : Int) : Val := .fin (decide (x < 0)) x.natAbs (2 ^ fxBits)

/-- The sum of `n` more terms of e^x from term `t`, the k-th. -/
def expSum (x : Int) : Nat → Nat → Int → Int
  | 0, _, _ => 0
  | n + 1, k, t => t + expSum x n (k + 1) (fxMul t x / (k + 1 : Nat))

/-- The sum of `n` more terms of atanh s from the power `p` of s, the k-th odd one; `q` is s squared. -/
def atanhSum (q : Int) : Nat → Nat → Int → Int
  | 0, _, _ => 0
  | n + 1, k, p => p / (2 * k + 1 : Nat) + atanhSum q n (k + 1) (fxMul p q)

/-- ln m for 1 ≤ m ≤ 2: 2 atanh((m − 1) / (m + 1)). -/
def fxLnNear (m : Int) : Int := let s := fxDiv (m - fxOne) (m + fxOne); 2 * atanhSum (fxMul s s) 60 0 s
def fxLn2 : Int := fxLnNear (2 * fxOne)

/-- e^x of a fixed-point x with |x| below about 2^20: 2^k times e^r. -/
def fxExp (x : Int) : Val :=
  let k := (x + fxLn2 / 2) / fxLn2
  vMul (fxVal (expSum (x - k * fxLn2) 50 0 fxOne)) (vPow2 k)

/-- ln of a positive finite value. -/
def fxLn (v : Val) : Int :=
  let m := v.mag
  let e := floorLog2 m.1 m.2
  let p := scale2 m.1 m.2 (-e)
  fxLnNear (fxOf (.fin false p.1 p.2)) + e * fxLn2

/-- ⌊√n⌋ by its `k` binary digits from the top. -/
def isqrtGo (n : Nat) : Nat → Nat → Nat
  | 0, r => r
  | k + 1, r => let t := r + 2 ^ k; isqrtGo n k (if t * t ≤ n then t else r)
def isqrt (n : Nat) : Nat := isqrtGo n (Nat.log2 n / 2 + 1) 0

/-- √ of a positive finite value to about 2^−160 of itself, exact where the root is a dyadic rational of that size. -/
def valSqrt (v : Val) : Val :=
  let m := v.mag
  -- n/d = (n d) / d²
  .fin false (isqrt (m.1 * m.2 * 2 ^ 640)) (m.2 * 2 ^ 320)

/-- 1 / (1 + e^−x) for a fixed-point x. -/
def sigmoidVal (x : Int) : Val := vDiv vOne (vAdd vOne (fxExp (-x)))

/-- √(2/π), with π = 16 atan(1/5) − 4 atan(1/239), and the constant 0.044715 of the tanh form of GELU (log entry 64). -/
def atanSum (q : Int) : Nat → Nat → Int → Int
  | 0, _, _ => 0
  | n + 1, k, p => p / (2 * k + 1 : Nat) + atanSum q n (k + 1) (-(fxMul p q))
def fxPi : Int :=
  let at5 := atanSum (fxOne / 25) 80 0 (fxOne / 5)
  let at239 := atanSum (fxOne / 57121) 40 0 (fxOne / 239)
  16 * at5 - 4 * at239
def sqrt2pi : Val := valSqrt (fxVal (fxDiv (2 * fxOne) fxPi))
def geluC : Val := .fin false 44715 1000000

/-- The tanh of an exact value of moderate size, through the sigmoid: 2 σ(2x) − 1. -/
def tanhVal (v : Val) : Val := vAdd (vMul (vInt 2) (sigmoidVal (2 * fxOf v))) (vInt (-1))

/-- Whether |v| is beyond `b`. -/
def beyond (v : Val) (b : Nat) : Bool := vLt (vInt b) (vAbs v)

/-- The function's value to about 2^−150, for a finite operand that Table 08.8 does not settle. -/
def approx (fn : Nat) (a : Val) : Val :=
  match fn with
  | 0x10 => if beyond a 200 then (if a.neg? then vZero else vPow2 200) else fxExp (fxOf a)
  | 0x11 => fxVal (fxLn a)
  | 0x12 => vDiv vOne a
  | 0x13 => vDiv vOne (valSqrt a)
  | 0x14 => valSqrt a
  | 0x15 => if beyond a 100 then (if a.neg? then vInt (-1) else vOne) else tanhVal a
  | 0x16 => if beyond a 200 then (if a.neg? then vZero else vOne) else sigmoidVal (fxOf a)
  | 0x17 => if beyond a 300 then (if a.neg? then .fin true 0 1 else a) else vMul a (sigmoidVal (fxOf a))
  | _ =>
    if beyond a 60 then (if a.neg? then .fin true 0 1 else a)
    else
      let y := vMul sqrt2pi (vAdd a (vMul geluC (vMul a (vMul a a))))
      -- 0.5 a (1 + tanh y) = a σ(2 y)
      vMul a (sigmoidVal (2 * fxOf y))

/-- Table 08.7: the bound in ulps, and the absolute floor's exponent (0 for none). -/
def errUlps (fn : Nat) : Nat := if fn ≤ 0x14 then 1 else if fn ≤ 0x16 then 2 else if fn = 0x17 then 3 else 4
def errFloor (fn : Nat) : Val := if fn = 0x11 then vPow2 (-24) else if 0x15 ≤ fn then vPow2 (-26) else vZero

/-- ulp(z) of R270, taken a little below |z| so that it is never too large. -/
def ulpBelow (z : Val) : Val :=
  let m := (vMul (vAbs z) (.fin false (2 ^ 100 - 1) (2 ^ 100))).mag
  let e := if m.1 = 0 then (-126) else max (floorLog2 m.1 m.2) (-126)
  vPow2 (e - 23)

/-- Whether a result lies within Table 08.7 of the approximation, with a margin for the approximation's own error. -/
def within (fn : Nat) (y z : Val) : Bool :=
  let b0 := vMul (vInt (errUlps fn)) (ulpBelow z)
  let b := if vLt b0 (errFloor fn) then errFloor fn else b0
  let b := vMul b (.fin false (2 ^ 60 - 1) (2 ^ 60))
  y.isFin && !vLt b (vAbs (vAdd y (vNeg z)))

/-- Table 08.8: the exact results, as FP32 codes; none where the function is within its bound only. -/
def exactFun (fn : Nat) (a : Val) : Option Nat :=
  let pInf := 0x7F800000
  let nInf := 0xFF800000
  let nan := 0x7FC00000
  let one := 0x3F800000
  match fn, a with
  | _, .nan => some nan
  | 0x10, .inf s => some (if s then 0 else pInf)
  | 0x10, .fin _ n _ => if n = 0 then some one else if beyond a 80 && !a.neg? && vLt (f32 0x7F7FFFFF) (approx 0x10 a) then some pInf else none
  | 0x11, .inf s => some (if s then nan else pInf)
  | 0x11, .fin s n d => if n = 0 then some nInf else if s then some nan else if n = d then some 0 else none
  | 0x12, .inf s => some (if s then 0x80000000 else 0)
  | 0x12, .fin s n _ => if n = 0 then some (if s then nInf else pInf) else none
  | 0x13, .inf s => some (if s then nan else 0)
  | 0x13, .fin s n _ => if n = 0 then some (if s then nInf else pInf) else if s then some nan else none
  | 0x14, .inf s => some (if s then nan else pInf)
  | 0x14, .fin s n _ =>
    if n = 0 then some (if s then 0x80000000 else 0)
    else if s then some nan
    else
      let r := toF32 (valSqrt a)
      if vEq (vMul (f32 r) (f32 r)) a then some r else none
  | 0x15, .inf s => some (if s then 0xBF800000 else one)
  | 0x15, .fin s n _ => if n = 0 then some (if s then 0x80000000 else 0) else none
  | 0x16, .inf s => some (if s then 0 else one)
  | 0x16, .fin _ n _ => if n = 0 then some 0x3F000000 else none
  | _, .inf s => some (if s then 0x80000000 else pInf)
  | _, .fin s n _ => if n = 0 then some (if s then 0x80000000 else 0) else none

/-- The FP32 result of a function for an FP32 operand code, evaluated for type FP32 or BF16 (R270, R272): the fixed
mapping where it keeps Table 08.7, else the correctly rounded value. TANH is odd bit for bit. -/
def funF32 (fn : Nat) (bf : Bool) (code : Nat) : Nat :=
  match exactFun fn (f32 code) with
  | some r => r
  | none =>
    let neg := fn = 0x15 ∧ code.testBit 31
    let c := if fn = 0x15 then code % 2 ^ 31 else code
    let z := approx fn (f32 c)
    let y := Config.vfun fn bf c % 2 ^ 32
    let r := if within fn (f32 y) z then y else toF32 z
    if neg then (r ^^^ 0x80000000) else r

/-- A function of the vector engine on a code of its type. -/
def vecFun (fn : Nat) (bf : Bool) (code : Nat) : Nat :=
  if bf then toBf16 (f32 (funF32 fn true (code % 2 ^ 16 * 65536))) else funF32 fn false code

end Sys2Proof.Machine
end

