-- ==== Sys2Proof/Machine/Vec.lean ====
section
/-! DEFINITION. Machine/Vec.lean: the vector engine (chapters 06 and 08): legality, leave and hand-off of vector and
VCVT commands, their effects, and the rows that start and complete them. -/

namespace Sys2Proof.Machine

-- types and fields (R212 to R218)

/-- Whether a type code is a 32-bit type, and whether it is a float type. -/
def ty32 (t : Nat) : Bool := t % 2 == 0
def tyFloat (t : Nat) : Bool := decide (t < 2)
/-- Element width of a type. -/
def tyW (t : Nat) : Nat := if ty32 t then 32 else 16
def vVd (w : Nat) : Nat := bits w 25 21
def vVa (w : Nat) : Nat := bits w 20 16
def vVb (w : Nat) : Nat := bits w 15 11
def vM (w : Nat) : Nat := bits w 10 8
def vMen (w : Nat) : Bool := w.testBit 7
def vTy (w : Nat) : Nat := bits w 6 5
def vFn (w : Nat) : Nat := bits w 4 0
def cMd (w : Nat) : Nat := bits w 25 23
def cVa (w : Nat) : Nat := bits w 22 18
def cVb (w : Nat) : Nat := bits w 17 13
def cMsk (w : Nat) : Nat := bits w 12 10
def cMen (w : Nat) : Bool := w.testBit 9
def cTy (w : Nat) : Nat := bits w 8 7
def cCmp (w : Nat) : Nat := bits w 6 4
def rM (w : Nat) : Nat := bits w 15 13
def rMen (w : Nat) : Bool := w.testBit 12
def rTy (w : Nat) : Nat := bits w 11 10
def rFn (w : Nat) : Nat := bits w 9 8
def tDf (w : Nat) : Nat := bits w 15 11
def tSf (w : Nat) : Nat := bits w 10 6
def tM (w : Nat) : Nat := bits w 5 3
def tMen (w : Nat) : Bool := w.testBit 2

/-- Functions of VOP that read vb. -/
def vopBinary (fn : Nat) : Bool := decide (fn ≤ 5) || fn == 8 || fn == 9 || fn == 10 || fn == 11

-- VCVT geometry (R274)

/-- f of R274, and N, the elements converted per row. -/
def cvtF (sf df : Fmt) : Nat := max 1 (16 / min (ebits sf) (ebits df))
def cvtN (sf df : Fmt) (vl : Nat) : Nat := min vl 64 * cvtF sf df
/-- Registers an operand of a format spans. -/
def cvtSpan (f : Fmt) (n : Nat) : Nat := ceilDiv (n * ebits f) 1024
def cvtRegOk (r k : Nat) : Bool := k == 0 || (r % k == 0 && decide (r + k ≤ 32))

/-- R218, R273 to R275: whether a VCVT is legal at a vector length. -/
def cvtLegal (w vl : Nat) : Bool :=
  match fmtOf (tSf w), fmtOf (tDf w) with
  | some sf, some df =>
    let n := cvtN sf df vl
    sf != .rb8 && df != .n4 && cvtRegOk (vVa w) (cvtSpan sf n) && cvtRegOk (vVd w) (cvtSpan df n) &&
    !(isMx df && (tMen w || n % 32 != 0))
  | _, _ => false

/-- R211 to R216: whether a vector instruction is legal at a vector length. A 32-bit type with W above 32 names even
registers only; ZERO, mask operations and VFENCE have no view of W columns. -/
def vecLegal (op : SOp) (w vl : Nat) : Bool :=
  let odd (t : Nat) (rs : List Nat) : Bool := ty32 t && decide (32 < vl) && rs.any (fun r => r % 2 == 1)
  match op with
  | .vcvt => cvtLegal w vl
  | .vcmp => cCmp w != 7 && !odd (cTy w) (if cCmp w = 6 then [cVa w] else [cVa w, cVb w])
  | .rsum | .rmax | .rmin | .rmaxabs => !odd (rTy w) [vVd w, vVa w]
  | .splat => !odd (vTy w) [vVd w]
  | .vmov => !odd (vTy w) [vVd w, vVa w]
  | .compress | .expand => vMen w && !odd (vTy w) [vVd w, vVa w]
  | .zero | .mand | .mor | .mxor | .mnot | .mset | .vfence => true
  | _ =>
    (tyFloat (vTy w) || !(vFn w == 3 || decide (0x10 ≤ vFn w))) && (vFn w != 8 || vMen w) &&
    !odd (vTy w) ([vVd w, vVa w] ++ (if vopBinary (vFn w) then [vVb w] else []))

/-- Mask operations and VFENCE never wait for leave (R216). -/
def vecNoLeave : SOp → Bool
  | .mand | .mor | .mxor | .mnot | .mset | .vfence => true
  | _ => false

/-- Table 06.15 and R277: the occupancy of a command in cycles. -/
def occupancy (op : SOp) (w vl lanes : Nat) : Nat :=
  let wd := min vl 64
  let elem (t : Nat) : Nat := max 1 (ceilDiv (64 * wd) (if ty32 t then 256 else 512))
  match op with
  | .vcvt => match fmtOf (tSf w), fmtOf (tDf w) with
    | some sf, some df => max 1 (ceilDiv (64 * cvtN sf df vl) 256) + (if isMx df then 2 else 0)
    | _, _ => 1
  | .vcmp => elem (cTy w)
  | .rsum | .rmax | .rmin | .rmaxabs => elem (rTy w) + Nat.log2 lanes
  | .vmov | .splat => elem (vTy w)
  | .compress | .expand => max 1 (ceilDiv (64 * wd) 128)
  | .zero => 16
  | .mand | .mor | .mxor | .mnot | .mset | .vfence => 1
  | _ => if 0x10 ≤ vFn w then 4 * elem (vTy w) else elem (vTy w)

/-- The scalar value a command takes at its retirement (R210): SPLAT's register. -/
def vecScalar (op : SOp) (s : State) (u : Nat) (i : InFlight) : Nat :=
  if op = .splat then (sread (thr (stn s u) i.thread) (vVb i.word)).toNat else 0

/-- R217: places of the vector engine in use: one executing, one waiting. -/
def vecPlaces (x : Station) : Nat := (if x.vexec.isSome then 1 else 0) + x.vq.length

/-- A vector instruction at retirement: illegal, held, or handed to the engine (R209, R211, R217, R227). -/
def vecBody (op : SOp) (u : Nat) (s : State) (i : InFlight) : Ret :=
  let x := stn s u
  let vl := (thr x i.thread).vl
  if !vecLegal op i.word vl then .trap 3 s
  else if 2 ≤ vecPlaces x then .hold s
  else
    let c : VCmd := { word := i.word, vl := vl, sx := vecScalar op s u i, thread := i.thread }
    if vecNoLeave op then .done (modStn s u (fun x => { x with vq := x.vq ++ [c] }))
    else match joinOrPlace s u 1 .vector 2 [(4, occupancy op i.word vl (vlanes s))] with
      | none => .hold s
      | some (s, id) => .done (modStn s u (fun x => { x with vq := x.vq ++ [{ c with req := some id, occ := occupancy op i.word vl (vlanes s) }] }))

-- masks (R266)

/-- Whether a mask's bit for element `(r, c)` is set. -/
def maskBit (x : Station) (m r c : Nat) : Bool := (tabGet 0 x.masks (64 * m + r)).getLsbD c
/-- Whether element `(r, c)` is active (R212). -/
def active (x : Station) (men : Bool) (m r c : Nat) : Bool := !men || maskBit x m r c
def setMaskRow (x : Station) (m r : Nat) (v : BitVec 64) : Station := { x with masks := tabSet 0 x.masks (64 * m + r) v }
/-- Writes a mask from a row function. -/
def setMask (x : Station) (m : Nat) (f : Nat → BitVec 64) : Station :=
  (List.range 64).foldl (fun y r => setMaskRow y m r (f r)) x

-- operand views (R211)

/-- Reads `wd` columns of each row of a register in a type's view. -/
def readView (s : State) (u r t wd : Nat) : State × List (List Nat) :=
  if ty32 t then
    let a := readRows s u r 0 (4 * min wd 32)
    if wd ≤ 32 then (a.1, a.2.map (entries 4))
    else
      let b := readRows a.1 u (r + 1) 0 (4 * (wd - 32))
      (b.1, (a.2.zip b.2).map (fun p => entries 4 p.1 ++ entries 4 p.2))
  else let a := readRows s u r 0 (2 * wd); (a.1, a.2.map (entries 2))

/-- The runs of consecutive written elements of a row: first column and codes. -/
def runsOf : Nat → List (Option Nat) → List (Nat × List Nat)
  | _, [] => []
  | k, none :: t => runsOf (k + 1) t
  | k, some v :: t =>
    match runsOf (k + 1) t with
    | (j, vs) :: rest => if j = k + 1 then (k, v :: vs) :: rest else (k, [v]) :: (j, vs) :: rest
    | [] => [(k, [v])]

/-- Writes the elements of one row of one register, `sz` bytes each; TAG becomes 0 if any is written (R253). -/
def writeRow (x : Station) (r row sz : Nat) (vs : List (Option Nat)) : Station :=
  let rs := runsOf 0 vs
  if rs.isEmpty then x
  else setTag (rs.foldl (fun x p => tileWriteX x false r (128 * row + sz * p.1) (p.2.flatMap (leBytes sz))) x) r 0

/-- Writes a view: per row, the columns to write. -/
def writeView (x : Station) (r t : Nat) (rows : List (List (Option Nat))) : Station :=
  (rows.zipIdx).foldl (fun x p =>
    if ty32 t then writeRow (writeRow x r p.2 4 (p.1.take 32)) (r + 1) p.2 4 (p.1.drop 32)
    else writeRow x r p.2 2 p.1) x

-- arithmetic (R267, R268)

/-- Codes of a type to exact values and back (float types). -/
def tyVal (t c : Nat) : Val := if t = 0 then f32 c else bf16 c
def tyEnc (t : Nat) (v : Val) : Nat := if t = 0 then toF32 v else toBf16 v
def tyNan (t : Nat) : Nat := if t = 0 then 0x7FC00000 else 0x7FC0
def isNan (t c : Nat) : Bool := tyVal t c == .nan
/-- Symmetric saturation of an exact integer result (R268). -/
def tySat (t : Nat) (x : Int) : Nat := let m : Int := 2 ^ (tyW t - 1) - 1; unsigned (tyW t) (satI x (-m) m)
def tyInt (t c : Nat) : Int := sext (tyW t) c

/-- MIN (`mx = false`) and MAX of two float codes: −0 is less than +0, one NaN gives the other operand (R267). -/
def fMinMax (mx : Bool) (t a b : Nat) : Nat :=
  if isNan t a then (if isNan t b then tyNan t else b)
  else if isNan t b then a
  else
    let va := tyVal t a
    let vb := tyVal t b
    let less := vLt va vb || (vEq va vb && va.neg? && !vb.neg?)
    if less == mx then b else a

/-- MIN and MAX of a type. -/
def tyMinMax (mx : Bool) (t a b : Nat) : Nat :=
  if tyFloat t then fMinMax mx t a b
  else if decide (tyInt t a < tyInt t b) == mx then b else a

/-- The value a VOP writes for operands a, b and the old destination (Table 06.13); `b` is column 0 of the row for the
B forms, and `sel` the mask bit for SEL. -/
def vopElem (fn t a b d : Nat) (sel : Bool) : Nat :=
  let fl (v : Val) : Nat := tyEnc t v
  let f := tyFloat t
  let va := tyVal t a
  let vb := tyVal t b
  match fn with
  | 0x00 | 0x09 => if f then fl (vAdd va vb) else tySat t (tyInt t a + tyInt t b)
  | 0x01 | 0x0A => if f then fl (vAdd va (vNeg vb)) else tySat t (tyInt t a - tyInt t b)
  | 0x02 | 0x0B => if f then fl (vMul va vb) else tySat t (tyInt t a * tyInt t b)
  | 0x03 => fl (vAdd (vMul va vb) (tyVal t d))
  | 0x04 => tyMinMax false t a b
  | 0x05 => tyMinMax true t a b
  | 0x06 => if f then fl (vAbs va) else tySat t ((tyInt t a).natAbs : Int)
  | 0x07 => if f then fl (vNeg va) else tySat t (-(tyInt t a))
  | 0x08 => if sel then a else b
  | fn => vecFun fn (t == 1) a

/-- A VOP command (R213): every operand is read before any element is written (R262). -/
def vopEffect (s : State) (u : Nat) (c : VCmd) : State :=
  let w := c.word
  let t := vTy w
  let wd := min c.vl 64
  let fn := vFn w
  if wd = 0 then s
  else
    let a := readView s u (vVa w) t wd
    let b := if vopBinary fn then readView a.1 u (vVb w) t (if 9 ≤ fn then 1 else wd) else (a.1, [])
    let d := if fn = 3 then readView b.1 u (vVd w) t wd else (b.1, [])
    let x := stn d.1 u
    let rows := a.2.mapIdx (fun r ar => ar.mapIdx (fun k av =>
      let bv := (b.2.getD r []).getD (if 9 ≤ fn then 0 else k) 0
      let act := fn == 8 || active x (vMen w) (vM w) r k
      if act then some (vopElem fn t av bv ((d.2.getD r []).getD k 0) (maskBit x (vM w) r k)) else none))
    modStn d.1 u (fun x => writeView x (vVd w) t rows)

/-- A comparison of VCMP (R214). -/
def cmpElem (t cmp a b : Nat) : Bool :=
  if cmp = 6 then tyFloat t && isNan t a
  else if tyFloat t && (isNan t a || isNan t b) then cmp == 1
  else
    let lt := if tyFloat t then vLt (tyVal t a) (tyVal t b) else decide (tyInt t a < tyInt t b)
    let gt := if tyFloat t then vLt (tyVal t b) (tyVal t a) else decide (tyInt t b < tyInt t a)
    match cmp with
    | 0 => !lt && !gt
    | 1 => lt || gt
    | 2 => lt
    | 3 => !gt
    | 4 => gt
    | _ => !lt

/-- A 64-bit word from its bits, lowest first. -/
def wordOfBits (bs : List Bool) : BitVec 64 := BitVec.ofNat 64 (bs.foldr (fun b n => b2n b + 2 * n) 0)

/-- A VCMP command. A command with W = 0 changes nothing (R211). -/
def vcmpEffect (s : State) (u : Nat) (c : VCmd) : State :=
  let w := c.word
  let t := cTy w
  let wd := min c.vl 64
  if wd = 0 then s
  else
    let a := readView s u (cVa w) t wd
    let b := if cCmp w = 6 then (a.1, []) else readView a.1 u (cVb w) t wd
    let x := stn b.1 u
    let rows := a.2.mapIdx (fun r ar => wordOfBits (ar.mapIdx (fun k av =>
      active x (cMen w) (cMsk w) r k && cmpElem t (cCmp w) av ((b.2.getD r []).getD k 0))))
    modStn b.1 u (fun x => setMask x (cMd w) (fun r => rows.getD r 0))

-- reductions (R215, R269)

/-- One level of the tree. -/
def treeLevel {α : Type} (f : α → α → α) : List α → List α
  | a :: b :: t => f a b :: treeLevel f t
  | l => l

/-- The six-level tree over 64 leaves. -/
def treeReduce {α : Type} (f : α → α → α) (l : List α) : List α := (List.range 6).foldl (fun l _ => treeLevel f l) l

/-- FP32 addition with one rounding. -/
def f32Add (a b : Nat) : Nat := toF32 (vAdd (f32 a) (f32 b))

/-- One row of VRED: `act` gives each column's element where it is active. -/
def vredRow (fn t : Nat) (act : List (Option Nat)) : Nat :=
  let leaves (f : Nat → Nat) (id : Nat) : List Nat :=
    (List.range 64).map (fun c => match act.getD c none with | some v => f v | none => id)
  if tyFloat t then
    let up (v : Nat) : Nat := if t = 1 then v * 65536 else v
    let down (v : Nat) : Nat := if t = 1 then toBf16 (f32 v) else v
    let node := if fn = 0 then f32Add else fMinMax (fn != 2) 0
    let leaf (v : Nat) : Nat := if fn = 3 then toF32 (vAbs (f32 (up v))) else up v
    let id := if fn = 1 then 0xFF800000 else if fn = 2 then 0x7F800000 else 0
    down ((treeReduce node (leaves leaf id)).headD 0)
  else
    let wdt := tyW t
    let big : Int := 2 ^ (wdt - 1) - 1
    let ints (f : Int → Int) (id : Int) : List Int :=
      (List.range 64).map (fun c => match act.getD c none with | some v => f (tyInt t v) | none => id)
    let node (a b : Int) : Int := if fn = 0 then (if t = 2 then satI (a + b) (-2147483647) 2147483647 else a + b)
      else if fn = 2 then min a b else max a b
    let r := match fn with
      | 0 => (treeReduce node (ints id 0)).headD 0
      | 1 => (treeReduce node (ints id (-big - 1))).headD 0
      | 2 => (treeReduce node (ints id big)).headD 0
      | _ => (treeReduce node (ints (fun v => min big v.natAbs) 0)).headD 0
    unsigned wdt (if fn = 0 ∧ t = 3 then satI r (-32767) 32767 else r)

/-- A VRED command: column 0 of each row of vd. -/
def vredEffect (s : State) (u : Nat) (c : VCmd) : State :=
  let w := c.word
  let t := rTy w
  let wd := min c.vl 64
  if wd = 0 then s
  else
    let a := readView s u (vVa w) t wd
    let x := stn a.1 u
    let rows := a.2.mapIdx (fun r ar =>
      [some (vredRow (rFn w) t (ar.mapIdx (fun k v => if active x (rMen w) (rM w) r k then some v else none)))])
    modStn a.1 u (fun x => writeView x (vVd w) t rows)

-- VMOV (R216)

/-- Places values at the active columns in order (EXPAND). -/
def expandRow : List Bool → List Nat → List (Option Nat)
  | [], _ => []
  | true :: t, v :: vs => some v :: expandRow t vs
  | _ :: t, vs => none :: expandRow t vs

/-- MOV, SPLAT, COMPRESS and EXPAND. -/
def moveEffect (s : State) (u : Nat) (c : VCmd) : State :=
  let w := c.word
  let t := vTy w
  let wd := min c.vl 64
  let fn := vFn w
  if wd = 0 then s
  else
    let a := if fn = 1 then (s, List.replicate 64 (List.replicate wd (c.sx % 2 ^ tyW t))) else readView s u (vVa w) t wd
    let x := stn a.1 u
    let act (r : Nat) : List Bool := (List.range wd).map (fun k => active x (vMen w) (vM w) r k)
    let rows := a.2.mapIdx (fun r ar =>
      match fn with
      | 2 =>
        let on := ((ar.zip (act r)).filter (·.2)).map (·.1)
        (on ++ List.replicate (wd - on.length) 0).map some
      | 3 => expandRow (act r) ar
      | _ => (ar.zip (act r)).map (fun p => if p.2 then some p.1 else none))
    modStn a.1 u (fun x => writeView x (vVd w) t rows)

/-- ZERO: the whole register, whatever VL and the mask. -/
def zeroEffect (x : Station) (r : Nat) : Station := setTag (tileWriteX x false r 0 (List.replicate 8192 0)) r 0

/-- The mask operations. -/
def maskEffect (x : Station) (w : Nat) : Station :=
  let a (r : Nat) : BitVec 64 := tabGet 0 x.masks (64 * (vVa w % 8) + r)
  let b (r : Nat) : BitVec 64 := tabGet 0 x.masks (64 * (vVb w % 8) + r)
  setMask x (vVd w % 8) (fun r => match vFn w with
    | 5 => a r &&& b r
    | 6 => a r ||| b r
    | 7 => a r ^^^ b r
    | 8 => ~~~(a r)
    | _ => BitVec.allOnes 64)

-- VCVT (R273 to R276)

/-- Reads the `n` element codes of each row of a format's view from the registers from `r` on. -/
def readCvt (s : State) (u r : Nat) (f : Fmt) (n : Nat) : State × List (List Nat) :=
  let per := 1024 / ebits f
  (List.range (cvtSpan f n)).foldl (fun (p : State × List (List Nat)) k =>
    let m := min per (n - k * per)
    let b := readRows p.1 u (r + k) 0 (ceilDiv (m * ebits f) 8)
    (b.1, (p.2.zip b.2).map (fun q => q.1 ++ unpackElems f q.2 m))) (s, List.replicate 64 [])

/-- Writes elements of a row: a 4-bit element shares its byte with a neighbour that keeps its code. -/
def writeCvtRow (x : Station) (r row : Nat) (f : Fmt) (vs : List (Option Nat)) : Station :=
  if ebits f = 4 then
    let cur (k : Nat) : Byte := tileByte x false r (128 * row + k)
    let nib (k : Nat) (old : Nat) : Nat := ((vs.getD k none).getD old) % 16
    let bs := (List.range (ceilDiv vs.length 2)).map (fun k =>
      if (vs.getD (2 * k) none).isSome || (vs.getD (2 * k + 1) none).isSome then
        some (nib (2 * k) ((cur k).toNat % 16) + 16 * nib (2 * k + 1) ((cur k).toNat / 16))
      else none)
    (runsOf 0 bs).foldl (fun x p => tileWriteX x false r (128 * row + p.1) (p.2.flatMap (leBytes 1))) x
  else
    let sz := ebits f / 8
    (runsOf 0 vs).foldl (fun x p => tileWriteX x false r (128 * row + sz * p.1) (p.2.flatMap (leBytes sz))) x

/-- Writes the elements of a VCVT's rows to the registers from `r` on. -/
def writeCvt (x : Station) (r : Nat) (f : Fmt) (n : Nat) (rows : List (List (Option Nat))) : Station :=
  let per := 1024 / ebits f
  (List.range (cvtSpan f n)).foldl (fun x k =>
    (rows.zipIdx).foldl (fun x p => writeCvtRow x (r + k) p.2 f ((p.1.drop (k * per)).take per)) x) x

/-- The sidecar of register `r` as VCVT reads it for its first `m` columns (R273): TAG.ZP of a format with a zero point,
block exponents, an N4 level table. -/
def cvtSide (s : State) (u r : Nat) (f : Fmt) (m : Nat) : State × List Byte :=
  let rs := (if hasZp f then [(0x510, 4)] else []) ++ (if f == .n4 then [(0x500, 16)] else []) ++
    (if isMx f then (List.range 64).map (fun i => (i * (if ebits f = 4 then 8 else 4), ceilDiv m 32)) else [])
  (sideReads s u r rs, tileBytes (stn s u) true r 0 0x514)

/-- The covered sidecar ranges of an equal-format copy (R273): the entries of R252 for columns 0 to `m − 1`. -/
def coveredSide (f : Fmt) (tag m : Nat) : List (Nat × Nat) :=
  let rows (off : Nat → Nat) (len : Nat) : List (Nat × Nat) := (List.range 64).map (fun r => (off r, len))
  (if f == .n4 then [(0x500, 16)] else []) ++
  (match tagSkind tag with
   | 1 => rows (fun r => sideOff f r 0) (ceilDiv m 32)
   | 2 => let l := (bits tag 21 16 + 1) * 32; rows (fun r => 16 * r) (4 * (if l < 128 then ceilDiv (min m 128) l else 1))
   | 3 =>
     let k := bits tag 4 3
     let sz := if tag.testBit 5 then 4 else 2
     let q := if k = 0 then 1 else ceilDiv (1024 / ebits f) (64 * k)
     let n := if k = 0 then 1 else ceilDiv m (64 * k)
     rows (fun r => r * q * sz) (n * sz) ++ (if tag.testBit 6 then rows (fun r => 0x400 + r * q) n else [])
   | _ => [])
where
  sideOff (f : Fmt) (r b : Nat) : Nat := if f == .rb8 then 16 * r + 4 * b else r * (if ebits f = 4 then 8 else 4) + b

/-- An equal-format VCVT copies TAG and the covered sidecar entries of each register. -/
def copySide (s : State) (u rs rd m : Nat) (f : Fmt) : State :=
  let t := tileRead s u true rs 0x510 4
  let s := (coveredSide f (leNat t.2) m).foldl (fun s p =>
    let b := tileRead s u true rs p.1 p.2
    tileWrite b.1 u true rd p.1 b.2) t.1
  modStn s u (fun x => setTag x rd (leNat t.2))

/-- Encodes one row of a VCVT: target codes and, for an MX target, the block exponents. -/
def cvtRow (df : Fmt) (vs : List Val) : List Nat × List Nat :=
  if isMx df then
    let bs := chunks 32 (vs.length + 1) vs
    let es := bs.map (fun b => mxExp df (maxFinite b))
    ((bs.zip es).flatMap (fun p => p.1.map (fun v => (encElem df 0 n4Default none (vDiv v (vPow2 p.2))).code)),
     es.map (fun e => (e + 127).toNat))
  else (vs.map (fun v => (encElem df 0 n4Default none v).code), [])

/-- A VCVT command (R273 to R276). -/
def vcvtEffect (s : State) (u : Nat) (c : VCmd) : State :=
  let w := c.word
  match fmtOf (tSf w), fmtOf (tDf w) with
  | some sf, some df =>
    let n := cvtN sf df c.vl
    if n = 0 then s
    else
      let fct := cvtF sf df
      let act (x : Station) (r k : Nat) : Bool := active x (tMen w) (tM w) r (k / fct)
      let a := readCvt s u (vVa w) sf n
      if sf = df then
        let s := modStn a.1 u (fun x => writeCvt x (vVd w) df n
          (a.2.mapIdx (fun r row => row.mapIdx (fun k v => if act x r k then some v else none))))
        (List.range (cvtSpan df n)).foldl (fun s k =>
          copySide s u (vVa w + k) (vVd w + k) (min (1024 / ebits df) (n - k * (1024 / ebits df))) df) s
      else
        let per := 1024 / ebits sf
        let sd := (List.range (cvtSpan sf n)).foldl (fun (p : State × List Opnd) k =>
          let b := cvtSide p.1 u (vVa w + k) sf (min per (n - k * per))
          (b.1, p.2 ++ [⟨sf, [], b.2⟩])) (a.1, [])
        let x := stn sd.1 u
        let vals := a.2.mapIdx (fun r row => row.mapIdx (fun k v =>
          let o := sd.2.getD (k / per) ⟨sf, [], []⟩
          applyScale (decElem sf (bits o.tag 15 8) o.level v) (o.exp r (k % per / 32))))
        let enc := vals.map (cvtRow df)
        let x := writeCvt x (vVd w) df n
          (enc.mapIdx (fun r e => e.1.mapIdx (fun k v => if act x r k then some v else none)))
        let blks := (1024 / ebits df) / 32
        let x := (List.range (cvtSpan df n)).foldl (fun x k =>
          let x := if isMx df then
              (enc.zipIdx).foldl (fun x p => tileWriteX x true (vVd w + k) (p.2 * blks)
                (((p.1.2.drop (k * blks)).take blks).flatMap (leBytes 1))) x
            else x
          setTag x (vVd w + k) (if isMx df then tagWord 1 0 0 0 0 0 else 0)) x
        setStn sd.1 u x
  | _, _ => s

/-- The effect of a vector command as it executes. -/
def vecEffect (op : SOp) (s : State) (u : Nat) (c : VCmd) : State :=
  match op with
  | .vcvt => vcvtEffect s u c
  | .vcmp => vcmpEffect s u c
  | .rsum | .rmax | .rmin | .rmaxabs => vredEffect s u c
  | .vmov | .splat | .compress | .expand => moveEffect s u c
  | .zero => modStn s u (fun x => zeroEffect x (vVd c.word))
  | .mand | .mor | .mxor | .mnot | .mset => modStn s u (fun x => maskEffect x c.word)
  | .vfence => s
  | _ => vopEffect s u c

-- the engine (R217)

/-- Whether the waiting command at the head can start: its predecessor has started and its leave is granted. VFENCE
starts like the rest and fires once everything before it has completed. -/
def vecHead (x : Station) : Option VCmd :=
  match x.vexec, x.vq with
  | none, c :: _ => if c.req.isNone then some c else none
  | _, _ => none

def isFence (c : VCmd) : Bool := sop c.word == some .vfence

/-- R217: the next vector command starts; its whole effect happens in its window. -/
def execVecCmdStart (u : Nat) (s : State) : Host.Outcome State Fault Refusal :=
  match vecHead (stn s u) with
  | some c =>
    match sop c.word with
    | some op =>
      guard s (engineOn s u && !isFence c)
        (vecEffect op (modStn s u (fun x => { x with vq := x.vq.drop 1, vexec := some c })) u c)
    | none => .next s
  | none => .next s

/-- R217: the executing command has written its last result. -/
def execVecCmdComplete (u : Nat) (s : State) : Host.Outcome State Fault Refusal :=
  guard s (engineGoes s u && (stn s u).vexec.isSome) (modStn s u (fun x => { x with vexec := none }))

/-- R216: a VFENCE increments its event once every command before it has completed. -/
def execVfenceFire (u : Nat) (s : State) : Host.Outcome State Fault Refusal :=
  match vecHead (stn s u) with
  | some c =>
    guard s (engineOn s u && isFence c)
      (evBump (modStn s u (fun x => { x with vq := x.vq.drop 1 })) u (vVb c.word))
  | none => .next s

-- the instructions, one row each

/-- Table 06.13, VopAdd: handed to the vector engine. -/
def execVopAdd (u t : Nat) (s : State) : Host.Outcome State Fault Refusal :=
  retire .vadd (vecBody .vadd u) u t s

/-- Table 06.13, VopSub: handed to the vector engine. -/
def execVopSub (u t : Nat) (s : State) : Host.Outcome State Fault Refusal :=
  retire .vsub (vecBody .vsub u) u t s

/-- Table 06.13, VopMul: handed to the vector engine. -/
def execVopMul (u t : Nat) (s : State) : Host.Outcome State Fault Refusal :=
  retire .vmul (vecBody .vmul u) u t s

/-- Table 06.13, VopFma: handed to the vector engine. -/
def execVopFma (u t : Nat) (s : State) : Host.Outcome State Fault Refusal :=
  retire .vfma (vecBody .vfma u) u t s

/-- Table 06.13, VopMin: handed to the vector engine. -/
def execVopMin (u t : Nat) (s : State) : Host.Outcome State Fault Refusal :=
  retire .vmin (vecBody .vmin u) u t s

/-- Table 06.13, VopMax: handed to the vector engine. -/
def execVopMax (u t : Nat) (s : State) : Host.Outcome State Fault Refusal :=
  retire .vmax (vecBody .vmax u) u t s

/-- Table 06.13, VopAbs: handed to the vector engine. -/
def execVopAbs (u t : Nat) (s : State) : Host.Outcome State Fault Refusal :=
  retire .vabs (vecBody .vabs u) u t s

/-- Table 06.13, VopNeg: handed to the vector engine. -/
def execVopNeg (u t : Nat) (s : State) : Host.Outcome State Fault Refusal :=
  retire .vneg (vecBody .vneg u) u t s

/-- Table 06.13, VopSel: handed to the vector engine. -/
def execVopSel (u t : Nat) (s : State) : Host.Outcome State Fault Refusal :=
  retire .vsel (vecBody .vsel u) u t s

/-- Table 06.13, VopAddb: handed to the vector engine. -/
def execVopAddb (u t : Nat) (s : State) : Host.Outcome State Fault Refusal :=
  retire .vaddb (vecBody .vaddb u) u t s

/-- Table 06.13, VopSubb: handed to the vector engine. -/
def execVopSubb (u t : Nat) (s : State) : Host.Outcome State Fault Refusal :=
  retire .vsubb (vecBody .vsubb u) u t s

/-- Table 06.13, VopMulb: handed to the vector engine. -/
def execVopMulb (u t : Nat) (s : State) : Host.Outcome State Fault Refusal :=
  retire .vmulb (vecBody .vmulb u) u t s

/-- Table 06.13, VopExp: handed to the vector engine. -/
def execVopExp (u t : Nat) (s : State) : Host.Outcome State Fault Refusal :=
  retire .vexp (vecBody .vexp u) u t s

/-- Table 06.13, VopLog: handed to the vector engine. -/
def execVopLog (u t : Nat) (s : State) : Host.Outcome State Fault Refusal :=
  retire .vlog (vecBody .vlog u) u t s

/-- Table 06.13, VopRcp: handed to the vector engine. -/
def execVopRcp (u t : Nat) (s : State) : Host.Outcome State Fault Refusal :=
  retire .vrcp (vecBody .vrcp u) u t s

/-- Table 06.13, VopRsqrt: handed to the vector engine. -/
def execVopRsqrt (u t : Nat) (s : State) : Host.Outcome State Fault Refusal :=
  retire .vrsqrt (vecBody .vrsqrt u) u t s

/-- Table 06.13, VopSqrt: handed to the vector engine. -/
def execVopSqrt (u t : Nat) (s : State) : Host.Outcome State Fault Refusal :=
  retire .vsqrt (vecBody .vsqrt u) u t s

/-- Table 06.13, VopTanh: handed to the vector engine. -/
def execVopTanh (u t : Nat) (s : State) : Host.Outcome State Fault Refusal :=
  retire .vtanh (vecBody .vtanh u) u t s

/-- Table 06.13, VopSigmoid: handed to the vector engine. -/
def execVopSigmoid (u t : Nat) (s : State) : Host.Outcome State Fault Refusal :=
  retire .vsigmoid (vecBody .vsigmoid u) u t s

/-- Table 06.13, VopSilu: handed to the vector engine. -/
def execVopSilu (u t : Nat) (s : State) : Host.Outcome State Fault Refusal :=
  retire .vsilu (vecBody .vsilu u) u t s

/-- Table 06.13, VopGeluTanh: handed to the vector engine. -/
def execVopGeluTanh (u t : Nat) (s : State) : Host.Outcome State Fault Refusal :=
  retire .vgelu (vecBody .vgelu u) u t s

/-- R214, Vcmp: handed to the vector engine. -/
def execVcmp (u t : Nat) (s : State) : Host.Outcome State Fault Refusal :=
  retire .vcmp (vecBody .vcmp u) u t s

/-- R215, VredRsum: handed to the vector engine. -/
def execVredRsum (u t : Nat) (s : State) : Host.Outcome State Fault Refusal :=
  retire .rsum (vecBody .rsum u) u t s

/-- R215, VredRmax: handed to the vector engine. -/
def execVredRmax (u t : Nat) (s : State) : Host.Outcome State Fault Refusal :=
  retire .rmax (vecBody .rmax u) u t s

/-- R215, VredRmin: handed to the vector engine. -/
def execVredRmin (u t : Nat) (s : State) : Host.Outcome State Fault Refusal :=
  retire .rmin (vecBody .rmin u) u t s

/-- R215, VredRmaxabs: handed to the vector engine. -/
def execVredRmaxabs (u t : Nat) (s : State) : Host.Outcome State Fault Refusal :=
  retire .rmaxabs (vecBody .rmaxabs u) u t s

/-- Table 06.14, VmovMov: handed to the vector engine. -/
def execVmovMov (u t : Nat) (s : State) : Host.Outcome State Fault Refusal :=
  retire .vmov (vecBody .vmov u) u t s

/-- Table 06.14, Splat: handed to the vector engine. -/
def execSplat (u t : Nat) (s : State) : Host.Outcome State Fault Refusal :=
  retire .splat (vecBody .splat u) u t s

/-- Table 06.14, Compress: handed to the vector engine. -/
def execCompress (u t : Nat) (s : State) : Host.Outcome State Fault Refusal :=
  retire .compress (vecBody .compress u) u t s

/-- Table 06.14, Expand: handed to the vector engine. -/
def execExpand (u t : Nat) (s : State) : Host.Outcome State Fault Refusal :=
  retire .expand (vecBody .expand u) u t s

/-- Table 06.14, Zero: handed to the vector engine. -/
def execZero (u t : Nat) (s : State) : Host.Outcome State Fault Refusal :=
  retire .zero (vecBody .zero u) u t s

/-- Table 06.14, Mand: handed to the vector engine. -/
def execMand (u t : Nat) (s : State) : Host.Outcome State Fault Refusal :=
  retire .mand (vecBody .mand u) u t s

/-- Table 06.14, Mor: handed to the vector engine. -/
def execMor (u t : Nat) (s : State) : Host.Outcome State Fault Refusal :=
  retire .mor (vecBody .mor u) u t s

/-- Table 06.14, Mxor: handed to the vector engine. -/
def execMxor (u t : Nat) (s : State) : Host.Outcome State Fault Refusal :=
  retire .mxor (vecBody .mxor u) u t s

/-- Table 06.14, Mnot: handed to the vector engine. -/
def execMnot (u t : Nat) (s : State) : Host.Outcome State Fault Refusal :=
  retire .mnot (vecBody .mnot u) u t s

/-- Table 06.14, Mset: handed to the vector engine. -/
def execMset (u t : Nat) (s : State) : Host.Outcome State Fault Refusal :=
  retire .mset (vecBody .mset u) u t s

/-- Table 06.14, Vfence: handed to the vector engine. -/
def execVfence (u t : Nat) (s : State) : Host.Outcome State Fault Refusal :=
  retire .vfence (vecBody .vfence u) u t s

/-- R218, Vcvt: handed to the vector engine. -/
def execVcvt (u t : Nat) (s : State) : Host.Outcome State Fault Refusal :=
  retire .vcvt (vecBody .vcvt u) u t s

end Sys2Proof.Machine
end

