-- ==== Sys2Proof/Machine/Chain.lean ====
section
/-! DEFINITION. Machine/Chain.lean: fused chains (chapter 09): refusal, operand loads, what each chain computes, the
epilogue, completion, and the rows of the chain family. -/

namespace Sys2Proof.Machine

-- refusal (R289, R290, R293)

/-- A pair of activation and weight formats of Table 07.1, with the KSEL the sequencer chooses. -/
def chainMode (wf af : Fmt) : Option Nat := modeOf wf (if wf == .n4 then 1 else 0) af

/-- The parameter set of a weight operand: 0 for B, 1 for C, 2 for D_WORD's (R285). -/
def wSet (x : Station) (r k : Nat) : PSet := psetOf x false ((cWpset r + k) % 8)

/-- Whether a stage accumulates in INT32 (R232): both formats are integers and the weights carry no learned scales. -/
def stageInt (x : Station) (r k : Nat) (af : Fmt) : Bool :=
  intFmt af && intFmt (cF (cWfmt r)) && (wSet x r k).lsKind == 3

/-- Weight operands that a chain loads from the cistern, by parameter-set offset. -/
def wOperands (r : Nat) : List Nat :=
  match cId r with
  | 3 => [0, 1]
  | 4 => [0, 1, 2]
  | 5 => [0, 1]
  | 6 => []
  | _ => [0]

/-- Whether the final result of a chain is INT32. -/
def finalInt (s : State) (u r : Nat) : Bool :=
  let x := stn s u
  match cId r with
  | 3 => stageInt x r 1 (cF (cMfmt r))
  | 4 => stageInt x r 2 (cF (cMfmt r))
  | 5 | 6 => false
  | 8 => if cIsRoot s u r then false else stageInt x r 0 (cF (cAfmt r))
  | _ => stageInt x r 0 (cF (cAfmt r))

/-- The grain an epilogue needs, and whether it allows an output format (Table 09.7). -/
def epiGrain (e : Nat) : Nat := if e = 2 ∨ e = 3 then 1 else if e = 4 then 2 else if e = 5 then 3 else 0
def epiFmt (e : Nat) (f : Fmt) : Bool :=
  match e, f with
  | 0, .fp32 | 1, .bf16 | 2, .mxint8 | 2, .mxfp8 | 3, .mxfp4 | 4, .rb8 | 5, .e4m3 | 5, .e5m2 | 5, .int8 => true
  | 6, f => reqFmt f
  | _, _ => false

/-- GEMM_ACC (Table 09.6): C is the destination's own start, or shares no byte with the destination. -/
def accOverlap (u r : Nat) : Bool :=
  let own := cOspace r = 0 ∨ (cOspace r = 1 ∧ !cXpkg r ∧ cDstUnit u r = u)
  if ¬ own ∨ cC r = cOut r % 2 ^ 23 then false
  else
    let n := rowBytes (cF (cMfmt r)) (cN r)
    let m := rowBytes (cF (cOfmt r)) (cN r)
    let rows := List.range (cM r)
    let plane := (cOspl r, cM r * outEnts r * outEntSize r)
    rows.any (fun i => meets (cC r + i * cStrideOf r) n plane.1 plane.2 ||
      rows.any (fun j => meets (cC r + i * cStrideOf r) n (cOut r % 2 ^ 23 + j * outStride r) m))

/-- Table 09.8, first row: a reserved code. -/
def refuseCodes (r : Nat) : Bool :=
  cId r == 0 || decide (8 < cId r) || decide (6 < cEpi r) || decide (4 < cAct r) || cHalf r == 3 || cOspace r == 3 ||
  (fmtOf (cAfmt r)).isNone || (fmtOf (cWfmt r)).isNone || (fmtOf (cMfmt r)).isNone || (fmtOf (cOfmt r)).isNone

/-- Table 09.6. -/
def refuseLimits (s : State) (u r : Nat) : Bool :=
  let x := stn s u
  let af := cF (cAfmt r)
  let wf := cF (cWfmt r)
  let mf := cF (cMfmt r)
  let pair := (chainMode wf af).isNone
  let two := pair || (chainMode wf mf).isNone ||
    decide ((if cHalf r = 2 then 4096 else 2048) < cN2 r * ebits mf)
  let g := groupDies s
  (match cId r with
  | 2 => pair || (if stageInt x r 0 af then mf != .int32 else mf != .fp32 && mf != .bf16) || accOverlap u r
  | 3 => two
  | 4 => two || stageInt x r 0 af || stageInt x r 1 af
  | 5 | 6 => af != .bf16 || wf != .bf16 || mf != .bf16 || cK r != cN r || (cN r != 64 && cN r != 128)
  | 7 => pair || cK r % g != 0 || (isMx af && cK r / g % 32 != 0) || (g == 8 && cHalf r != 2)
  | 8 => (cK r != 0 && pair) || (mf != .bf16 && mf != .mxint8 && mf != .mxfp8)
  | _ => pair) ||
  (cOspace r == 2 && (decide (64 < cM r) || decide (64 < cN r) || cHalf r == 2 ||
    (outRegs r).any (fun g => (halfRegs (cHalf r)).contains g))) ||
  !epiFmt (cEpi r) (cF (cOfmt r))

/-- The epilogue's conversion under a parameter set. -/
def epiConv (r : Nat) (int : Bool) (w : Nat) (p : PSet) : Conv := ⟨if int then .int32 else .fp32, cF (cOfmt r), w, p, true⟩

/-- Table 09.8, the control word (R88, Table 09.7), and the word of a weight load (R287). -/
def refuseNcu (s : State) (u r : Nat) : Bool :=
  let x := stn s u
  let w := cNcu r
  (epiConv r (finalInt s u r) w (psetOf x true (cwPset w))).refused x false ||
  cwGin w != 0 || cwGout w != epiGrain (cEpi r) || (cEpi r == 4 && decide (1 < bits w 23 18)) ||
  (cEpi r == 6 && !cwReq w) ||
  (isMx (cF (cWfmt r)) && (wOperands r).any (fun k => (wSet x r k).lsKind != 3))

/-- Table 09.8, the accumulator kind against the epilogue. -/
def refuseKind (s : State) (u r : Nat) : Bool :=
  if finalInt s u r then decide (2 ≤ cEpi r) && decide (cEpi r ≤ 5) else cEpi r == 6

/-- Table 09.8, addresses and hosts. -/
def refuseAddr (s : State) (u r : Nat) : Bool :=
  (readRanges s u r ++ writeRanges r).any (fun p => !inGeneral p.1 p.2) ||
  (cOspace r == 1 && !(if cXpkg r then peerHosts s (cDstUnit u r) else (hostOf s (cDstUnit u r)).isSome)) ||
  (cRemote u r && (cEpi r == 0 || cEpi r == 6)) || (cXpkg r && !s.paired)

/-- Table 09.8, the remaining fields. -/
def refuseFields (s : State) (u r : Nat) : Bool :=
  (cNevt r != 0 && decide (cNevt r < 16)) ||
  ((cId r == 7 || cId r == 8) && (decide (cRevt r < 16) || decide (31 < cRevt r + groupDies s - 1))) ||
  ((cId r == 5 || cId r == 6) && !(f32 (cD r)).isFin) ||
  (cId r == 8 && decide (groupDies s ≤ cRoot r)) || (cK r == 0 && !cIsRoot s u r)

/-- R293: whether a block is refused. -/
def chainRefused (s : State) (u r : Nat) : Bool :=
  refuseCodes r || refuseLimits s u r || refuseNcu s u r || refuseKind s u r || refuseAddr s u r || refuseFields s u r

/-- CHAIN (R204, R279, R284, R303). -/
def chainBody (u : Nat) (s : State) (i : InFlight) : Ret :=
  let a := (opA s u i).toNat
  if a % 64 ≠ 0 || !inGeneral a 64 then .trap 6 s
  else if (chainOf (stn s u) i.thread).isSome || decide (2 ≤ outstanding s (lstn s u)) then .hold s
  else
    let q := cistRead s u a 64 1
    match q.2 with
    | none => .trap 8 q.1
    | some bs =>
      let r := leNat bs
      if chainRefused q.1 u r then .trap 3 q.1
      else
        let g := takeFree q.1
        .done (modStn g.2 u (fun x => { x with chains := x.chains ++ [{ thread := i.thread, raw := r, gen := g.1 }] }))

/-- Table 06.10, CHAIN. -/
def execChain (u t : Nat) (s : State) : Host.Outcome State Fault Refusal := retire .chain (chainBody u) u t s

/-- Updates a thread's chain. -/
def modChain (s : State) (u t : Nat) (f : ChainRec → ChainRec) : State :=
  modStn s u (fun x => { x with chains := x.chains.map (fun c => if c.thread = t then f c else c) })

/-- Table 06.10, CABORT: requests ABORT of the thread's chain in flight (R306). -/
def execCabort (u t : Nat) (s : State) : Host.Outcome State Fault Refusal :=
  retire .cabort (fun s i => .done (modChain s u i.thread (fun c => { c with abort := true }))) u t s

/-- Whether two windows share anything (R280). -/
def windowsMeet (h k : Nat) : Bool := h == 2 || k == 2 || h == k

/-- Whether no chain ahead of thread `t`'s holds its window (R279). -/
def windowFree (t : Nat) : List ChainRec → List ChainRec → Bool
  | _, [] => false
  | before, c :: rest =>
    if c.thread = t then !before.any (fun b => windowsMeet (cHalf b.raw) (cHalf c.raw)) else windowFree t (c :: before) rest

/-- R279: a chain starts once no earlier chain holds its window. From then on the sequencer uses the window's registers
as it likes (R281), and a program that reads them meanwhile has broken R282. What a program writes to them from the
retirement of CHAIN on is open too (R261). -/
def execChainStart (u t : Nat) (s : State) : Host.Outcome State Fault Refusal :=
  match chainOf (stn s u) t with
  | some c =>
    let h := takeFree s
    guard s (engineOn s u && !c.started && !c.abort && windowFree t [] (stn s u).chains)
      (modStn (modChain h.2 u t (fun c => { c with started := true })) u
        (fun x => tileHavoc x (halfRegs (cHalf c.raw)) h.1))
  | none => .next s

-- operands (R287, R288)

/-- A row of an operand as the arrays see it: decoded elements, exponent of each block of 32 (1 where not MX), and the
carried scale of each element (1 where none). -/
structure LRow where
  vals : List Val
  exps : List Val
  lams : List Val
  deriving DecidableEq, Repr, Inhabited

/-- Runs a load for each index in order; none once a word is uncorrectable. -/
def loadList {α : Type} (f : State → Nat → State × Option α) : State → List Nat → State × Option (List α)
  | s, [] => (s, some [])
  | s, i :: t =>
    let a := f s i
    match a.2 with
    | none => (a.1, none)
    | some x =>
      let r := loadList f a.1 t
      (r.1, r.2.map (x :: ·))

/-- The codes of row `i` of a dense operand. -/
def loadCodes (u : Nat) (f : Fmt) (base d0 : Nat) (s : State) (i : Nat) : State × Option (List Nat) :=
  let b := cistRead s u (base + i * rowBytes f d0) (rowBytes f d0) 1
  (b.1, b.2.map (fun bs => unpackElems f bs d0))

/-- A row of the activation (R287). -/
def loadA (u r : Nat) (s : State) (i : Nat) : State × Option LRow :=
  let f := cF (cAfmt r)
  let nb := ceilDiv (cK r) 32
  let b := loadCodes u f (cA r) (cK r) s i
  let e := if isMx f then cistRead b.1 u (cAspl r + i * nb) nb 1 else (b.1, some [])
  match b.2, e.2 with
  | some cs, some es =>
    (e.1, some ⟨cs.map (decElem f 0 n4Default), if isMx f then es.map (fun x => e8m0 x.toNat) else List.replicate nb vOne,
      List.replicate (cK r) vOne⟩)
  | _, _ => (e.1, none)

/-- The conversion that loads a weight operand: with CARRY where its set carries learned scales (R287). -/
def wConv (f : Fmt) (p : PSet) : Conv := ⟨f, f, if p.lsKind = 3 then 0 else 4 + 2 ^ 30, p, false⟩

/-- A row of a weight operand. The manual gives no place for the exponents of an MX weight: they are free values (log
entry 20). -/
def loadW (u r k base d0 : Nat) (s : State) (i : Nat) : State × Option LRow :=
  let f := cF (cWfmt r)
  let c := wConv f (wSet (stn s u) r k)
  let nb := ceilDiv d0 32
  let b := loadCodes u f base d0 s i
  let t := readTables b.1 u c d0 i 0 d0 1
  match b.2, t.2 with
  | some cs, some tb =>
    let js := List.range d0
    (t.1, some ⟨(cs.zip js).map (fun p => decElem f (if c.learned && c.ps.lzEn == 1 then tb.zp c.ps d0 i p.2 else 0) tb.level p.1),
      (List.range nb).map (fun j => if isMx f then e8m0 (Config.mxWeightExp k i j ((cs.drop (32 * j)).take 32)).toNat else vOne),
      js.map (fun j => if c.learned then finiteOrNan (tb.scale c.ps d0 i j) else vOne)⟩)
  | _, _ => (t.1, none)

/-- A row of an activation made inside the window, from its codes and exponents. -/
def windowRow (f : Fmt) (n : Nat) (codes ents : List Nat) : LRow :=
  ⟨codes.map (decElem f 0 n4Default), if isMx f then ents.map e8m0 else List.replicate (ceilDiv n 32) vOne, List.replicate n vOne⟩

/-- The positions `[p, p + n)` of a row. -/
def LRow.slice (x : LRow) (p n : Nat) : LRow := ⟨(x.vals.drop p).take n, (x.exps.drop (p / 32)).take (ceilDiv n 32), (x.lams.drop p).take n⟩

/-- Pads a list with `v` to `n`. -/
def padWith {α : Type} (n : Nat) (v : α) (l : List α) : List α := l.take n ++ List.replicate (n - l.length) v

/-- Extends a row with zeros to whole passes of `k` positions (R288). -/
def LRow.pad (x : LRow) (k : Nat) : LRow :=
  let n := ceilDiv x.vals.length k * k
  ⟨padWith n vZero x.vals, padWith (ceilDiv n 32) vOne x.exps, padWith n vOne x.lams⟩

/-- R242 over a run of positions. -/
def dotElems : Nat → List (Val × Val × Val) → Nat
  | acc, [] => acc
  | acc, (a, w, l) :: t => dotElems (toF32 (vAdd (f32 acc) (vMul (vMul a w) l))) t

/-- R241 over blocks: the two runs, the product of their exponents, and λ. -/
def dotBlocks : Nat → List (List Val × List Val × Val × Val) → Nat
  | acc, [] => acc
  | acc, (a, w, x, l) :: t => dotBlocks (toF32 (vAdd (f32 acc) (vMul (vMul ((dotExact a w).getD vZero) x) l))) t

/-- R240 over passes. -/
def dotInts : Nat → List (List Val × List Val) → Nat
  | acc, [] => acc
  | acc, (a, w) :: t => dotInts (accInt (sext 32 acc) a w) t

/-- The accumulation of an activation row with a weight row (R240 to R242), from `acc`. -/
def dot (mode : Nat) (int : Bool) (a w : LRow) (acc : Nat) : Nat :=
  let k := modeK mode
  let a := a.pad k
  let w := w.pad k
  let cut (n : Nat) (l : List Val) : List (List Val) := chunks n (l.length + 1) l
  if int then dotInts acc ((cut k a.vals).zip (cut k w.vals))
  else if mode = 0 then dotElems acc (a.vals.zip (w.vals.zip w.lams))
  else
    let xs := (a.exps.zip w.exps).map (fun p => vMul p.1 p.2)
    let ls := (cut 32 w.lams).map (fun l => l.headD vOne)
    dotBlocks acc ((cut 32 a.vals).zip ((cut 32 w.vals).zip (xs.zip ls)))

-- what each chain computes (R295 to R300): the codes of an output tile, row by row

/-- Rows of a row group and columns of a column tile that exist (R288). -/
def groupRows (r g : Nat) : List Nat := (List.range (min 64 (cM r - 64 * g))).map (· + 64 * g)
def tileCols (r t : Nat) : List Nat := (List.range (min 64 (cN r - 64 * t))).map (· + 64 * t)

/-- A weight operand's table leaves general storage (R88): the chain ends with BAD_ADDR. -/
def wTableOut (x : Station) (r k rows d0 : Nat) : Bool := tableOut (wConv (cF (cWfmt r)) (wSet x r k)) rows d0

/-- A stage's result: the state, a status, and the codes. -/
abbrev Stage := State × Nat × List (List Nat)

/-- All pairs of rows through one stage. -/
def stageAll (mode : Nat) (int : Bool) (as ws : List LRow) (init : Nat → Nat → Nat) : List (List Nat) :=
  as.mapIdx (fun i a => ws.mapIdx (fun j w => dot mode int a w (init i j)))

/-- Row `i`, columns of a tile, of GEMM_ACC's initial value, as accumulator codes (R295). -/
def loadC (u r : Nat) (int : Bool) (s : State) (i : Nat) : State × Option (List Nat) :=
  let f := cF (cMfmt r)
  let b := cistRead s u (cC r + i * cStrideOf r) (rowBytes f (cN r)) 1
  (b.1, b.2.map (fun bs => (unpackElems f bs (cN r)).map (fun c => if int || f == .fp32 then c else c * 65536)))

/-- GEMM, GEMM_ACC and the local partial of REDUCE_GEMM (R295, R300). -/
def stageGemm (s : State) (u : Nat) (c : ChainRec) (g t : Nat) : Stage :=
  let r := c.raw
  let x := stn s u
  let int := stageInt x r 0 (cF (cAfmt r))
  if wTableOut x r 0 (cN r) (cK r) then (s, 5, [])
  else
    let a := loadList (loadA u r) s (groupRows r g)
    let w := loadList (loadW u r 0 (cB r) (cK r)) a.1 (tileCols r t)
    let i := if cId r = 2 then loadList (loadC u r int) w.1 (groupRows r g) else (w.1, some [])
    match a.2, w.2, i.2 with
    | some as, some ws, some is =>
      (i.1, 0, stageAll ((chainMode (cF (cWfmt r)) (cF (cAfmt r))).getD 0) int as ws
        (fun k j => if cId r = 2 then (is.getD k []).getD (64 * t + j) 0 else 0))
    | _, _, _ => (i.1, 0x10, [])

/-- GLU activations (R296): `x` an FP32 code; `bf` evaluates with type BF16, on BF16 codes. -/
def gluAct (act : Nat) (bf : Bool) (x : Nat) : Nat :=
  let ty := if bf then 1 else 0
  let relu := fMinMax true ty x 0
  match act with
  | 1 => vecFun 0x17 bf x
  | 2 => vecFun 0x18 bf x
  | 3 => relu
  | 4 => tyEnc ty (vMul (tyVal ty relu) (tyVal ty relu))
  | _ => x

/-- One element of H, as an FP32 code (R296). -/
def gluElem (r g u : Nat) : Nat :=
  if cStaged r then
    toBf16 (vMul (bf16 (gluAct (cAct r) true (toBf16 (f32 g)))) (bf16 (toBf16 (f32 u)))) * 65536
  else toF32 (vMul (f32 (gluAct (cAct r) false g)) (f32 u))

/-- Converts a row of accumulator codes to MFMT under R71 (R288, R296): codes and MX exponents. -/
def toMid (r : Nat) (int : Bool) (row : List Nat) : LRow :=
  let f := cF (cMfmt r)
  let n := ceilDiv row.length 32 * 32
  let vs := padWith n vZero (row.map (fun c => if int then vInt (sext 32 c) else f32 c))
  let cv : Conv := ⟨if int then .int32 else .fp32, f, if isMx f then 8 else 0, {}, false⟩
  let es := encRun cv n4Default vs (List.replicate n (some vOne, 0))
  windowRow f n (es.1.map (fun e => e.1.code)) es.2

/-- PAIR and GLU (R296). -/
def stageTwo (s : State) (u : Nat) (c : ChainRec) (g t : Nat) : Stage :=
  let r := c.raw
  let x := stn s u
  let glu := cId r == 4
  let k2 := if glu then 2 else 1
  let base2 := if glu then cD r % 2 ^ 23 else cC r
  let int1 := stageInt x r 0 (cF (cAfmt r))
  let m1 := (chainMode (cF (cWfmt r)) (cF (cAfmt r))).getD 0
  let m2 := (chainMode (cF (cWfmt r)) (cF (cMfmt r))).getD 0
  if wTableOut x r 0 (cN2 r) (cK r) || (glu && wTableOut x r 1 (cN2 r) (cK r)) || wTableOut x r k2 (cN r) (cN2 r) then (s, 5, [])
  else
    let a := loadList (loadA u r) s (groupRows r g)
    let b := loadList (loadW u r 0 (cB r) (cK r)) a.1 (List.range (cN2 r))
    let b3 := if glu then loadList (loadW u r 1 (cC r) (cK r)) b.1 (List.range (cN2 r)) else (b.1, some [])
    let w := loadList (loadW u r k2 base2 (cN2 r)) b3.1 (tileCols r t)
    match a.2, b.2, b3.2, w.2 with
    | some as, some bs, some b3s, some ws =>
      let gs := stageAll m1 int1 as bs (fun _ _ => 0)
      let us := stageAll m1 int1 as b3s (fun _ _ => 0)
      let hs := if glu then (gs.zip us).map (fun p => (p.1.zip p.2).map (fun e => gluElem r e.1 e.2)) else gs
      (w.1, 0, stageAll m2 (stageInt x r k2 (cF (cMfmt r))) (hs.map (toMid r (int1 && !glu))) ws (fun _ _ => 0))
    | _, _, _, _ => (w.1, 0x10, [])

-- attention (R297, R298)

/-- FP32 operations on codes. -/
def f32Mul (a b : Nat) : Nat := toF32 (vMul (f32 a) (f32 b))
def f32Fma (a b c : Nat) : Nat := toF32 (vAdd (vMul (f32 a) (f32 b)) (f32 c))
def f32Sub (a b : Nat) : Nat := toF32 (vAdd (f32 a) (vNeg (f32 b)))
def f32NegInf : Nat := 0xFF800000
def f32Exp (a : Nat) : Nat := vecFun 0x10 false a

/-- The row's statistics and output after one tile of 64 keys (R297): `dots` the dot products of live keys, `vs` their
V rows with the scales they carry. -/
def attnTile (r : Nat) (row : AttnRow) (dots : List (Option Nat)) (vs : List LRow) : AttnRow :=
  let ss := dots.map (fun d => match d with
    | none => f32NegInf
    | some x => let y := f32Mul x (cD r); if cStaged r then toBf16 (f32 y) * 65536 else y)
  let mn := fMinMax true 0 row.m (vredRow 1 0 (ss.map some))
  let c := if mn = f32NegInf then 0x3F800000 else f32Exp (f32Sub row.m mn)
  let ps := ss.map (fun x => if x = f32NegInf then 0 else f32Exp (f32Sub x mn))
  let pb := ps.map (fun p => toBf16 (f32 p))
  let sum := vredRow 0 0 ((if cStaged r then pb.map (· * 65536) else ps).map some)
  let l := f32Fma row.l c sum
  let o := row.o.mapIdx (fun d x =>
    dotElems (f32Mul x c) ((pb.zip vs).map (fun p => (bf16 p.1, p.2.vals.getD d vZero, p.2.lams.getD d vOne))))
  ⟨mn, l, o⟩

/-- Position of a query row. -/
def qPos (r i : Nat) : Nat := cX r + i / cGroup r

/-- One tile of keys for every row of a group. `key j` gives key j's position, K row and V row where it exists. -/
def attnKeys (r : Nat) (qs : List (Nat × LRow)) (rows : List AttnRow) (key : Nat → Option (Nat × LRow × LRow)) : List AttnRow :=
  (qs.zip rows).map (fun p =>
    let i := p.1.1
    let live (j : Nat) : Option (LRow × LRow) :=
      match key j with
      | some (pos, k, v) => if cCausal r && decide (qPos r i < pos) then none else some (k, v)
      | none => none
    attnTile r p.2
      ((List.range 64).map (fun j => (live j).map (fun kv => dot 0 false p.1.2 kv.1 0)))
      ((List.range 64).map (fun j => ((live j).map (·.2)).getD ⟨[], [], []⟩)))

/-- The rows of a group before any key. -/
def attnInit (r g : Nat) : List AttnRow := (groupRows r g).map (fun _ => { o := List.replicate (cN r) 0 })

/-- ATTN: all tiles of keys of one row group. -/
def attnAll (s : State) (u : Nat) (c : ChainRec) (g : Nat) : State × Nat × List AttnRow :=
  let r := c.raw
  let x := stn s u
  let keys := List.range (cN2 r)
  if wTableOut x r 0 (cN2 r) (cK r) || wTableOut x r 1 (cN2 r) (cK r) then (s, 5, [])
  else
    let q := loadList (loadA u r) s (groupRows r g)
    let k := loadList (loadW u r 0 (cB r) (cK r)) q.1 keys
    let v := loadList (loadW u r 1 (cC r) (cK r)) k.1 keys
    match q.2, k.2, v.2 with
    | some qs, some ks, some vs =>
      let step (rows : List AttnRow) (t : Nat) : List AttnRow :=
        attnKeys r ((groupRows r g).zip qs) rows (fun j =>
          match ks[64 * t + j]?, vs[64 * t + j]? with
          | some k, some v => some (64 * t + j, k, v)
          | _, _ => none)
      (v.1, 0, (List.range (ceilDiv (cN2 r) 64)).foldl step (attnInit r g))
    | _, _, _ => (v.1, 0x10, [])

/-- The output row of attention (R297). -/
def attnOut (r : Nat) (row : AttnRow) : List Nat :=
  if cNorm r then
    (if (f32 row.l).isZero then row.o.map (fun _ => 0) else row.o.map (fun x => f32Mul x (vecFun 0x12 false row.l)))
  else row.o

/-- R298, Table 09.10: the fields of a page-table entry. -/
structure PageEnt where
  k : Nat
  v : Nat
  page : Nat
  count : Nat
  deriving DecidableEq, Repr

def pageEnt (bs : List Byte) : PageEnt :=
  let b (a n : Nat) : Nat := leNat ((bs.drop a).take n)
  ⟨b 0 5, b 5 5, b 10 4, min 64 (b 14 2)⟩

/-- Cuts bytes into rows of BF16 codes. -/
def bfRows (d : Nat) (bs : List Byte) : List (List Nat) :=
  (List.range 64).map (fun j => unpackElems .bf16 ((bs.drop (2 * d * j)).take (2 * d)) d)

/-- A plain row of BF16 codes as the arrays see it. -/
def bfRow (cs : List Nat) : LRow := windowRow .bf16 cs.length cs []

/-- Ends a thread's chain with a status. -/
def endChain (s : State) (u t st : Nat) : State := modChain s u t (fun c => { c with ended := some (c.ended.getD st) })

/-- Takes one granted burst of a class from a chain's hand. -/
def spendBurst (c : ChainRec) (cls : Nat) : ChainRec := { c with leave := c.leave.eraseP (fun p => p.1 == cls) }

/-- R298: reads the next page. It is folded into the rows of the group in the same step; the leave of that work is spent
when the next page or the output tile follows (log entry 60). -/
def pageRead (s : State) (u t : Nat) (c : ChainRec) : State :=
  let r := c.raw
  let g := c.pos / cCols r
  let d := cN r
  let e := cistRead s u (cB r + 16 * c.page) 16 1
  match e.2 with
  | none => endChain e.1 u t 0x10
  | some bs =>
    let p := pageEnt bs
    let n := 128 * d
    let base := u / 32 * 2 ^ 37
    let ok (a : Nat) : Bool := decide (base ≤ a) && decide (a + n ≤ base + wellGeneral)
    if !(ok p.k && ok p.v) then endChain e.1 u t 5
    else
      let q : WellAcc := { acc := 1, station := lstn s u }
      let k := wellRead e.1 p.k n q
      let v := if k.2.isSome then wellRead k.1 p.v n q else (k.1, none)
      match k.2, v.2 with
      | some kb, some vb =>
        let a := loadList (loadA u r) v.1 (groupRows r g)
        match a.2 with
        | none => endChain a.1 u t 0x10
        | some qs =>
          let ks := bfRows d kb
          let vs := bfRows d vb
          let rows := if c.page = 0 then attnInit r g else c.rows
          let rows := attnKeys r ((groupRows r g).zip qs) rows (fun j =>
            if j < p.count then some (64 * p.page + j, bfRow (ks.getD j []), bfRow (vs.getD j [])) else none)
          let c1 (c : ChainRec) : ChainRec := if c.page = 0 then c else spendBurst (spendBurst c 0) 1
          modChain a.1 u t (fun c => spendBurst { c1 c with page := c.page + 1, rows := rows } 2)
      | _, _ => endChain v.1 u t 0x11

/-- R298: ATTN_PAGED reads one page with the leave granted for it. -/
def execAttnPageRead (u t : Nat) (s : State) : Host.Outcome State Fault Refusal :=
  match chainOf (stn s u) t with
  | some c =>
    guard s (engineOn s u && pageReadReady s u c && ncuTurn s u false == some 4)
      (pageRead (modStn s u (fun x => { x with ncuLast := tabPut x.ncuLast 0 4 })) u t c)
  | none => .next s

-- gather and reduce (R299, R300)

/-- R299: the products of share `d` for row group `g` start once its counter has reached `g + 1`. -/
def execGatherShareStart (u t d g : Nat) (s : State) : Host.Outcome State Fault Refusal :=
  match chainOf (stn s u) t with
  | some c =>
    let r := c.raw
    guard s (engineOn s u && chainRuns s u c && cId r == 7 && decide (d < groupDies s) &&
      decide (g < cGroups r) && !c.shares.contains (d * 65536 + g) &&
      decide (g + 1 ≤ (evGet (stn s u) (cRevt r + d)).toNat))
      (modChain s u t (fun c => { c with shares := c.shares ++ [d * 65536 + g] }))
  | none => .next s

/-- Combines two partials (R299). -/
def combine2 (int : Bool) (a b : Nat) : Nat :=
  if int then unsigned 32 (satI (sext 32 a + sext 32 b) (-2147483647) 2147483647) else f32Add a b

/-- GATHER_GEMM: one partial per source over its share, combined in die order. -/
def stageGather (s : State) (u : Nat) (c : ChainRec) (g t : Nat) : Stage :=
  let r := c.raw
  let x := stn s u
  let int := stageInt x r 0 (cF (cAfmt r))
  let m := (chainMode (cF (cWfmt r)) (cF (cAfmt r))).getD 0
  let n := cK r / groupDies s
  if wTableOut x r 0 (cN r) (cK r) then (s, 5, [])
  else
    let a := loadList (loadA u r) s (groupRows r g)
    let w := loadList (loadW u r 0 (cB r) (cK r)) a.1 (tileCols r t)
    match a.2, w.2 with
    | some as, some ws =>
      (w.1, 0, as.map (fun ar => ws.map (fun wr =>
        let part (d : Nat) : Nat := dot m int (ar.slice (d * n) n) (wr.slice (d * n) n) 0
        (List.range (groupDies s - 1)).foldl (fun acc d => combine2 int acc (part (d + 1))) (part 0))))
    | _, _ => (w.1, 0x10, [])

/-- Row `i` of slot `d`: its exact values, m and l (R300). -/
def loadSlot (u r i : Nat) (s : State) (d : Nat) : State × Option (List Val × Nat × Nat) :=
  let f := cF (cMfmt r)
  let n := cN r
  let b0 := cC r + d * cX r
  let nb := ceilDiv n 32
  let b := loadCodes u f b0 n s i
  let e := if isMx f then cistRead b.1 u (b0 + slotPlane f (cM r) n + i * nb) nb 1 else (b.1, some [])
  let st := b0 + slotStats f (cM r) n
  let m := if cSoftmax r then cistRead e.1 u (st + 4 * i) 4 1 else (e.1, some [])
  let l := if cSoftmax r then cistRead m.1 u (st + 4 * cM r + 4 * i) 4 1 else (m.1, some [])
  match b.2, e.2, m.2, l.2 with
  | some cs, some es, some mb, some lb =>
    (l.1, some (cs.mapIdx (fun j c => vMul (decElem f 0 n4Default c)
      (if isMx f then e8m0 (es.getD (j / 32) 0).toNat else vOne)), leNat mb, leNat lb))
  | _, _, _, _ => (l.1, none)

/-- R300: one combined output row, from the slots in die order. -/
def combineRow (r : Nat) (slots : List (List Val × Nat × Nat)) : List Nat :=
  let cols := List.range (cN r)
  if cSoftmax r then
    let mx := slots.foldl (fun m s => fMinMax true 0 m s.2.1) f32NegInf
    let w := slots.map (fun s => if s.2.1 = f32NegInf then 0 else f32Exp (f32Sub s.2.1 mx))
    let l := (slots.zip w).foldl (fun l p => f32Fma p.1.2.2 p.2 l) 0
    cols.map (fun n =>
      let o := (slots.zip w).foldl (fun o p => toF32 (vAdd (vMul (p.1.1.getD n vZero) (f32 p.2)) (f32 o))) 0
      if (f32 l).isZero then 0 else f32Mul o (vecFun 0x12 false l))
  else
    cols.map (fun n => match slots with
      | [] => 0
      | s :: t => t.foldl (fun o p => toF32 (vAdd (f32 o) (p.1.getD n vZero))) (toF32 (s.1.getD n vZero)))

/-- R300: combines a row group from the slots. -/
def reduceGroup (s : State) (u t : Nat) (c : ChainRec) (g : Nat) : State :=
  let r := c.raw
  let q := loadList (fun s i => loadList (loadSlot u r i) s (List.range (groupDies s))) s (groupRows r g)
  match q.2 with
  | none => endChain q.1 u t 0x10
  | some rs => modChain q.1 u t (fun c =>
      { c with rows := rs.map (fun sl => { o := combineRow r sl }), combined := c.combined ++ [g] })

/-- R300: the root combines row group `g` once every slot's counter has reached `g + 1`. -/
def execReduceCombine (u t g : Nat) (s : State) : Host.Outcome State Fault Refusal :=
  match chainOf (stn s u) t with
  | some c =>
    let r := c.raw
    guard s (engineOn s u && chainRuns s u c && cIsRoot s u r && !partialPhase s u c &&
      g == c.pos / cCols r && !c.combined.contains g &&
      (List.range (groupDies s)).all (fun d => decide (g + 1 ≤ (evGet (stn s u) (cRevt r + d)).toNat)))
      (reduceGroup s u t c g)
  | none => .next s

-- the epilogue (R290 to R292)

/-- The columns of a tile from full rows. -/
def sliceCols (t : Nat) (rows : List (List Nat)) : List (List Nat) := rows.map (fun r => (r.drop (64 * t)).take 64)

/-- The result of the output tile at row group `g` and column tile `t`; the rows of attention are kept for the other
tiles of the group. -/
def stageTile (s : State) (u t : Nat) (c : ChainRec) (g ct : Nat) : Stage :=
  let r := c.raw
  match cId r with
  | 3 | 4 => stageTwo s u c g ct
  | 5 =>
    let q := if ct = 0 then attnAll s u c g else (s, 0, c.rows)
    (modChain q.1 u t (fun c => { c with rows := q.2.2 }), q.2.1, sliceCols ct (q.2.2.map (attnOut r)))
  | 6 => (s, 0, sliceCols ct (c.rows.map (attnOut r)))
  | 7 => stageGather s u c g ct
  | 8 => if cIsRoot s u r then (s, 0, sliceCols ct (c.rows.map (·.o))) else stageGemm s u c g ct
  | _ => stageGemm s u c g ct

/-- Converts the rows of a tile, whose first column is `j`. -/
def convRows (s : State) (u : Nat) (c : Conv) (d0 j : Nat) : List (Nat × List Nat) → State × Option (List (Nat × ConvOut))
  | [] => (s, some [])
  | (i, codes) :: t =>
    let q := readTables s u c d0 i j codes.length 1
    match q.2 with
    | none => (q.1, none)
    | some tb =>
      let o := if c.copies then { codes := codes } else convRun c (stn q.1 u) tb d0 i j 0 codes (fun _ => vOne)
      let rest := convRows q.1 u c d0 j t
      (rest.1, rest.2.map ((i, o) :: ·))

/-- Where a tile's pieces go in a cistern: data rows, then runs of scale entries, then row statistics. -/
structure TileOut where
  data : List (Nat × List Byte)
  scales : List (Nat × List Byte)
  stats : List (Nat × List Byte)
  deriving DecidableEq, Repr

/-- Joins runs of bytes that follow one another. -/
def joinRuns : List (Nat × List Byte) → List (Nat × List Byte)
  | [] => []
  | (a, b) :: t =>
    match joinRuns t with
    | (a2, b2) :: t2 => if a + b.length = a2 then (a, b ++ b2) :: t2 else (a, b) :: (a2, b2) :: t2
    | [] => [(a, b)]

/-- The data and scale bytes of a converted tile in a destination of stride `st`, plane at `spl`, width `n`. -/
def layTile (f : Fmt) (a st spl n blk ct : Nat) (rows : List (Nat × ConvOut)) : TileOut :=
  let sz := if f == .rb8 then 4 else 1
  let ents := ceilDiv n blk
  let pad (o : ConvOut) : List Nat :=
    if isMx f && decide (n ≤ 64 * ct + 64) then padWith (ceilDiv o.codes.length 32 * 32) 0 o.codes else o.codes
  { data := rows.map (fun p => (a + p.1 * st + firstByte f (64 * ct), packElems f (pad p.2))),
    scales := joinRuns ((rows.filter (fun p => !p.2.scales.isEmpty)).map (fun p =>
      (spl + (p.1 * ents + 64 * ct / blk) * sz, p.2.scales.flatMap (leBytes sz)))),
    stats := [] }

/-- The statistics of a row group beside its tile (R300, R301). -/
def layStats (r g : Nat) (rows : List AttnRow) : List (Nat × List Byte) :=
  if hasStats r then
    let b := cOut r % 2 ^ 23 + slotStats (cF (cOfmt r)) (cM r) (cN r) + 256 * g
    [(b, rows.flatMap (fun x => leBytes 4 x.m)), (b + 4 * cM r, rows.flatMap (fun x => leBytes 4 x.l))]
  else []

/-- Writes pieces to a cistern slice; with `broken`, free values (R282). -/
def writeOut (s : State) (v : Nat) (broken : Option Nat) : List (Nat × List Byte) → State × Bool
  | [] => (s, true)
  | (a, bs) :: t =>
    let w := cistWrite s v a (orFree broken a bs)
    let q := writeOut w.1 v broken t
    (q.1, w.2 && q.2)

/-- Writes a tile to its tile registers (R289, R253). -/
def writeRegs (x : Station) (r : Nat) (c : Conv) (broken : Option Nat) (rows : List (Nat × ConvOut)) : Station :=
  let f := cF (cOfmt r)
  let bytes (i : Nat) (cs : List Nat) : List Byte := orFree broken (i * 128) (packElems f cs)
  if ebits f = 32 then
    match outRegs r with
    | [a, b] =>
      let x := rows.foldl (fun x p =>
        let x := tileWriteX x false a (128 * p.1) (bytes p.1 (p.2.codes.take 32))
        tileWriteX x false b (128 * p.1) (bytes p.1 (p.2.codes.drop 32))) x
      setTag (setTag x a 0) b 0
    | _ => x
  else
    match outRegs r with
    | [a] =>
      let x := rows.foldl (fun x p =>
        let x := tileWriteX x false a (128 * p.1) (bytes p.1 p.2.codes)
        if p.2.scales.isEmpty then x
        else tileWriteX x true a (sideOff f p.1 0) (p.2.scales.flatMap (leBytes (if f == .rb8 then 4 else 1)))) x
      setTag x a (pumpTag x c)
    | _ => x

/-- The siphon tile of an output tile (R292, R314): its data rows, and its scale bytes and row statistics, each run of
which goes where the destination has it (log entry 16). -/
def outTile (u r : Nat) (o : TileOut) (broken : Option Nat) : Tile :=
  let fr (p : Nat × List Byte) : Nat × List Byte := (p.1, orFree broken p.1 p.2)
  let rows := o.data.map fr
  let side := (o.scales ++ o.stats).map fr
  let n := (rows.headD (0, [])).2.length
  { dst := cDstUnit u r, xpkg := cXpkg r, addr := (rows.headD (0, [])).1, spl := (side.headD (0, [])).1, rowBytes := n,
    rows := rows.length, stride := if rows.length ≤ 1 then 0 else outStride r, data := rows.flatMap (·.2),
    scale := side.flatMap (·.2), runs := if side.length ≤ 1 then [] else side.map (fun p => (p.1, p.2.length)),
    src := u, req := if cHalf r = 1 then 5 else 4 }

/-- R292, R322: one increment of the notify counter of a complete row group by thread `t`'s chain. It is a remote signal
where the destination is on another die, and waits while the outbound queue holds 8 (R170); on this die the increment is
visible at once, or held for a non-resident unit. -/
def notify (s : State) (u t r ev : Nat) : State :=
  let v := cDstUnit u r
  if ev = 0 then s
  else if cRemote u r then
    if 8 ≤ (stn s u).outq.length then modChain s u t (fun c => { c with notes := c.notes + 1 })
    else modStn s u (fun x => { x with outq := x.outq ++ [⟨u, v, cXpkg r, ev⟩] })
  else if isResident s v then evBump s v ev
  else { s with heldSig := s.heldSig ++ [⟨u, v, false, ev⟩] }

/-- R170: a place in the outbound queue of unit `u` has become free: a notify increment that waits takes it. -/
def fillNotes (s : State) (u : Nat) : State :=
  match (stn s u).chains.find? (fun c => c.notes != 0) with
  | some c => notify (modChain s u c.thread (fun c => { c with notes := c.notes - 1 })) u c.thread c.raw (cNevt c.raw)
  | none => s

/-- R301: one more output tile is complete and visible. The last tile of a row group notifies, and the group's rows are
dropped. -/
def tileDone (s : State) (u t : Nat) (c : ChainRec) : State :=
  let r := c.raw
  let last := (c.pos + 1) % cCols r = 0
  let s := modChain s u t (fun c =>
    { c with pos := c.pos + 1, sip := {}, rows := if last then [] else c.rows, page := if last then 0 else c.page })
  if last then notify s u t r (cNevt r) else s

/-- Whether a chain holds a needed count of bursts, and what is left once they are spent. -/
def spendBursts (c : ChainRec) (cls n : Nat) : ChainRec := (List.range n).foldl (fun c _ => spendBurst c cls) c

/-- R300: one tile of the root's own partial, into its own slot. -/
def partialTile (s : State) (u t : Nat) (c : ChainRec) : State :=
  let r := c.raw
  let g := c.partTiles / cCols r
  let ct := c.partTiles % cCols r
  let q := stageGemm s u c g ct
  if q.2.1 ≠ 0 then endChain q.1 u t q.2.1
  else
    let f := cF (cMfmt r)
    let cv : Conv := ⟨if stageInt (stn s u) r 0 (cF (cAfmt r)) then .int32 else .fp32, f, if isMx f then 8 else 0, {}, true⟩
    let o := convRows q.1 u cv (cN r) (64 * ct) ((groupRows r g).zip q.2.2)
    match o.2 with
    | none => endChain o.1 u t 0x10
    | some rows =>
      let s := rows.foldl (fun s p => modStn s u (fun x => gather x cv p.2)) o.1
      let base := cC r + cRoot r * cX r
      let l := layTile f base (rowBytes f (cN r)) (base + slotPlane f (cM r) (cN r)) (cN r) 32 ct rows
      let w := writeOut s u none (l.data ++ l.scales)
      if !w.2 then endChain w.1 u t 0x10
      else
        let s := modChain w.1 u t (fun c => { c with partTiles := c.partTiles + 1 })
        if (c.partTiles + 1) % cCols r = 0 then evBump s u (cRevt r + cRoot r) else s

/-- Converts and writes one output tile (R291). -/
def outputTile (s : State) (u t : Nat) (c : ChainRec) : State :=
  let r := c.raw
  let g := c.pos / cCols r
  let ct := c.pos % cCols r
  let cw := c.latched.getD (cNcu r, psetOf (stn s u) true (cwPset (cNcu r)))
  let cv := epiConv r (finalInt s u r) cw.1 cw.2
  let s := modChain s u t (fun c => { c with latched := some cw })
  if tableOut cv (cM r) (cN r) then endChain s u t 5
  else if cRemote u r && !routeUp s (route s (u / 32) (cDstUnit u r / 32) (cXpkg r)) then endChain s u t 0x12
  else
    let q := stageTile s u t c g ct
    if q.2.1 ≠ 0 then endChain q.1 u t q.2.1
    else
      let o := convRows q.1 u cv (cN r) (64 * ct) ((groupRows r g).zip q.2.2)
      match o.2 with
      | none => endChain o.1 u t 0x10
      | some rows =>
        let s := rows.foldl (fun s p => modStn s u (fun x => gather x cv p.2)) o.1
        let stats := layStats r g ((chainOf (stn s u) t).getD c).rows
        let l := { layTile (cF (cOfmt r)) (cOut r % 2 ^ 23) (outStride r) (cOspl r) (cN r) (outBlk r) ct rows with stats := stats }
        if cOspace r = 2 then tileDone (modStn s u (fun x => writeRegs x r cv c.broken rows)) u t c
        else if cRemote u r then modChain s u t (fun k => { k with sip := { tiles := [outTile u r l c.broken], phase := 0 } })
        else
          let w := writeOut s (cDstUnit u r) c.broken (l.data ++ l.scales ++ l.stats)
          if w.2 then tileDone w.1 u t c else endChain w.1 u t 0x10

/-- R279, R291: an output tile takes the egress NCU for its epilogue, and the ingress NCU for the operands it loads. -/
def execChainTileOutput (u t : Nat) (s : State) : Host.Outcome State Fault Refusal :=
  match chainOf (stn s u) t with
  | some c =>
    let n := tileNeeds s u c
    let s' := modStn (modChain s u t (fun c => spendBursts (spendBursts c 0 n.1) 1 n.2)) u (fun x =>
      { x with ncuLast := tabPut (if tileLoads s u c then tabPut x.ncuLast 0 4 else x.ncuLast) 1 4 })
    guard s (engineOn s u && chainTileReady s u c && ncuTurn s u true == some 4 &&
        (!tileLoads s u c || ncuTurn s u false == some 4))
      (if partialPhase s u c then partialTile s' u t c else outputTile s' u t c)
  | none => .next s

-- completion (R281, R304, R306)

/-- The status a chain completes with, if it can complete now: once its last tile and its increments have gone, the fault
that ended it, ABORTED where a CABORT retired before it completed (R306), or OK. -/
def chainStatus (s : State) (u : Nat) (c : ChainRec) : Option Nat :=
  if !c.sip.tiles.isEmpty || c.notes != 0 then none
  else match c.ended with
    | some st => some st
    | none =>
      if c.abort then some 1
      else if c.started && !partialPhase s u c && decide (c.pos = cTiles c.raw) then some 0
      else none

/-- The flits of a hop that its receiver has not accepted yet: waiting, on the wire, or sent and to be replayed (R329). Of
those on an Extium Link the part knows by their acknowledgement. -/
def unaccepted (s : State) (h : Nat) : List Flit :=
  let x := hop s h
  x.sendq ++ (x.wire ++ x.unacked.map (·.1)).filter (fun f =>
    decide (16 ≤ h) || decide ((f.seq + 4096 - x.expect) % 4096 < 2048))

/-- R304 step 1: no increment the chain made is still on its way: not in the outbound queue, on a hop, or at the end of its
route. Of one for the paired package the part knows once the far end has acknowledged it. -/
def notifyPending (s : State) (u r : Nat) : Bool :=
  let v := cDstUnit u r
  cNevt r != 0 && cRemote u r &&
    ((stn s u).outq.any (fun q => q.fromUnit == u && q.toUnit == v && q.xpkg == cXpkg r && q.ev == cNevt r) ||
     (!cXpkg r && s.arrivals.any (fun a => a.what == .signal v (cNevt r))) ||
     (List.range 20).any (fun h => (unaccepted s h).any (fun f =>
       f.type == 3 && f.payload == signalPayload v (cNevt r) (cXpkg r))))

/-- R281: the window is unpredictable once the chain has ended, by any path. -/
def havocWindow (s : State) (u : Nat) (c : ChainRec) : State :=
  let g := takeFree s
  let h := cHalf c.raw
  modStn g.2 u (fun x =>
    let x := tileHavoc x (halfRegs h) g.1
    (halfArrays h).foldl (fun x ma =>
      let a := getArr x ma
      let b (k : Bank) (n : Nat) : Bank := { k with tile := [], side := [], havoc := 2 * (g.1 + 1) + n }
      setArr x ma { a with bank0 := b a.bank0 0, bank1 := b a.bank1 1 }) x)

/-- Whether a leave request is one of a thread's chain. -/
def reqOfChain (u t : Nat) (q : LReq) : Bool :=
  q.unit == u && (match q.what with | .chain k => k == t | .chainTile k => k == t | _ => false)

/-- R302, R356: a chain that ends returns the leave it has not used and withdraws its requests. -/
def creditChain (s : State) (u : Nat) (c : ChainRec) : State :=
  withdraw (creditBack s ((c.leave.map (·.2)).foldl (· + ·) 0)) (reqOfChain u c.thread)

/-- Removes a thread's chain. -/
def dropChain (s : State) (u t : Nat) : State :=
  modStn s u (fun x => { x with chains := x.chains.filter (fun c => c.thread != t) })

/-- R304: a chain completes, exactly once. -/
def execChainComplete (u t : Nat) (s : State) : Host.Outcome State Fault Refusal :=
  match chainOf (stn s u) t with
  | some c =>
    match chainStatus s u c with
    | some st =>
      let s' := havocWindow (creditChain (if 2 ≤ st then noteFault s else s) u c) u c
      let s' := modStn s' u (fun x => modThr x t (fun h => { h with chainStat := st, chainPos := c.pos }))
      guard s (engineOn s u && !notifyPending s u c.raw)
        (evBump (modStn (dropChain s' u t) u (fun x => { x with unseen := x.unseen ++ [c] })) u (cEvt c.raw))
    | none => .next s
  | none => .next s

end Sys2Proof.Machine
end

