-- ==== Sys2Proof/Machine/Control.lean ====
section
/-! DEFINITION. Machine/Control.lean: parking and resuming threads, program writes, held instructions, deadlock,
station reset, and the switch between the two units of a host (R162, R178 to R188, R576 to R578). -/

namespace Sys2Proof.Machine

-- held instructions (R162, R227)

/-- What an instruction that can be held does when its condition frees. -/
def heldBody (op : SOp) (u : Nat) : State → InFlight → Ret :=
  match op with
  | .rsig => rsigBody u
  | .pissue => pissueBody u
  | .chain => chainBody u
  | .mshift => mshiftBody u
  | .mpass => mpassBody u
  | .stepclose => stepcloseBody u
  | .ewait => fun s _ => .hold s
  | op => vecBody op u

/-- R162: an instruction held at retirement retires once its queue, bound or leave condition frees. -/
def execHeldRetire (u t : Nat) (s : State) : Host.Outcome State Fault Refusal :=
  match front (stn s u) t with
  | some i =>
    match sop i.word with
    | some op =>
      if unitRuns s u && i.held && (thr (stn s u) t).st == .run then
        match heldBody op u s i with
        | .hold _ => .next s
        | r => .next (finish u t i s r)
      else .next s
    | none => .next s
  | none => .next s

-- parking (R178)

/-- The address at which a thread would park now: its next instruction, or the wait it stands at; none where it
cannot. -/
def parkPc (x : Station) (t : Nat) : Option Nat :=
  let h := thr x t
  match h.st with
  | .run => if parkWanted x t && (inFlight x t).isEmpty then some h.pc else none
  | .wait => if (x.parkReq || x.stepThread == some t) && (chainOf x t).isNone then (front x t).map (·.pc) else none
  | _ => none

/-- R503: a HALT of the unit is in progress, which the thread that parks is kept for. -/
def haltKeeps (s : State) (u t : Nat) (x : Station) : Station :=
  match s.dbg.run with
  | some r => if r.op = 0x10 ∧ r.unit = u ∧ !x.haltWas.contains t then { x with haltWas := x.haltWas ++ [t] } else x
  | none => x

/-- R178, R307, R503: a thread parks at its park point, also while P2 Idle has gated the station's clock (log entry 59). -/
def execThreadPark (u t : Nat) (s : State) : Host.Outcome State Fault Refusal :=
  match parkPc (stn s u) t with
  | some pc => guard s (isResident s u && !(stn s u).inReset && !(stn s u).frozen && decide (t < 4))
      (modStn (parkAt s u t pc) u (haltKeeps s u t))
  | none => .next s

/-- R178: the Supervisor sets a station's park request. In the scan state it has ended, here and below (R511). -/
def execParkRequest (u : Nat) (s : State) : Host.Outcome State Fault Refusal :=
  withOperand ((hostOf s u).isSome) (guard s (!s.tap.scan) (modStn s u (fun x => { x with parkReq := true })))

/-- R179: the hub writes program memory; the write is held until every thread is stopped. -/
def execPmWrite (u addr : Nat) (ws : List Word) (s : State) : Host.Outcome State Fault Refusal :=
  withOperand ((hostOf s u).isSome && decide (addr + ws.length ≤ 2 ^ 14))
    (guard s (!s.tap.scan) (modStn s u (fun x => pmFlush { x with pmHeld := x.pmHeld ++ ws.mapIdx (fun k w => (addr + k, w)) })))

/-- Table 05.4: one thread's action: 0 STAY, 1 KEEP, n + 2 ENTRY at program address n. -/
def resumeAct (h : Thread) (a : Nat) : Thread :=
  if a = 0 then h
  else if a = 1 then (if h.st = .parked then { h with st := .run } else h)
  else if h.st = .parked ∨ fatal h then { h with st := .run, pc := a - 2, stack := [], spill := 0, cause := 0 }
  else h

/-- Applies the actions to threads 0 to 3. What a HALT parked is then no longer its own. -/
def resumeAll (x : Station) (acts : List Nat) : Station :=
  threads.foldl (fun x t => modThr x t (fun h => resumeAct h (acts.getD t 0))) { x with parkReq := false, haltWas := [] }

/-- R180: a resume. -/
def execResume (u : Nat) (acts : List Nat) (s : State) : Host.Outcome State Fault Refusal :=
  withOperand ((hostOf s u).isSome && acts.length == 4 && acts.all (fun a => decide (a < 2 ^ 14 + 2)))
    (guard s (!(stn s u).inReset && !s.tap.scan) (modStn s u (fun x => notStuck (resumeAll x acts))))

-- deadlock (R182 to R185)

/-- The events that commands of the station will increment (R182, first three cases). -/
def producers (x : Station) : List Nat :=
  x.chans.flatMap (fun p => (p.2.queue.map (fun d => dEvt d.1)) ++ (p.2.active.map (fun a => dEvt a.raw)).toList) ++
  x.chains.map (fun c => cEvt c.raw) ++
  x.arrs.flatMap (fun p => p.2.q.filterMap (fun c =>
    if c.shift then (if msEv c.word then some (msEvt c.word) else none)
    else if mpEv c.word then some (mpEvt c.word) else none)) ++
  (x.vq.filter isFence).map (fun c => vVb c.word)

/-- R183: the stuck condition. -/
def stuck (x : Station) : Bool :=
  threads.any (fun t => (thr x t).st == .wait) &&
  threads.all (fun t =>
    let h := thr x t
    match h.st with
    | .parked => true
    | .wait => decide (h.waitEv < 16) && !waitTrue x h.waitEv (BitVec.ofNat 32 h.waitTarget) && !(producers x).contains h.waitEv
    | _ => false)

/-- One cycle of the count of R183; the limit in force is that of the count's start (R189). -/
def deadTick (limit : Nat) (x : Station) : Station :=
  if x.frozen then x
  else if stuck x then
    (if x.deadCnt = 0 then { x with deadCnt := 1, deadLim := limit } else { x with deadCnt := x.deadCnt + 1 })
  else { x with deadCnt := 0, deadLim := 0 }

/-- One cycle of CCLK in which no command acts: the cycle count advances (R225), and so do the counts of the stuck
resident units that run (R183, log entry 11). Without power, or without a clock, no cycle passes. -/
def idleCycle (s : State) : State :=
  if !s.pins.pwrOk || s.pins.refLost || s.gov.ps == .p4 then s
  else
    { s with cyc := s.cyc + 1,
             stns := s.stns.map (fun p => if unitRuns s p.1 then (p.1, deadTick (reg s Reg.deadCycles) p.2) else p) }

/-- Thread state codes (Table 05.1). -/
def stCode : TState → Nat
  | .run => 0 | .wait => 1 | .parked => 2 | .trapped => 3

/-- A mask with the listed bits set. -/
def maskOf (es : List Nat) : Nat := es.foldl (fun m e => m ||| 2 ^ e) 0

/-- The PC of a thread: that of the wait while it stands in WAIT (R171). -/
def seenPc (x : Station) (t : Nat) : Nat :=
  let h := thr x t
  if h.st = .wait then ((front x t).map (·.pc)).getD h.pc else h.pc

/-- Table 05.5. -/
def deadContext (x : Station) : List Byte :=
  threads.flatMap (fun t =>
    let h := thr x t
    let w := h.st == .wait
    leBytes 4 (seenPc x t % 2 ^ 14 + 2 ^ 14 * stCode h.st + 2 ^ 16 * (if w then h.waitEv else 0)) ++
    leBytes 4 (if w then h.waitTarget else 0)) ++
  leBytes 4 (maskOf ((threads.filter (fun t => (thr x t).st == .wait)).map (fun t => (thr x t).waitEv))) ++
  leBytes 4 (maskOf (producers x))

/-- R183, R184: the stuck condition has held for its cycles: the station freezes and reports. -/
def execDeadlockCountExpire (u : Nat) (s : State) : Host.Outcome State Fault Refusal :=
  let x := stn s u
  let s' := modStn s u (fun x => { x with frozen := true })
  let s' := pushRec (addReg (noteFault s') Reg.deadCnt 1) ⟨1, lstn s u, 0x21, deadContext x⟩
  guard s (isResident s u && !x.inReset && !x.frozen && stuck x && decide (0 < x.deadCnt) && decide (x.deadLim ≤ x.deadCnt))
    (setEvt s' 3)

-- station reset (R147, R186, R187)

/-- The work units a logical station hosts (R574). -/
def unitsOf (s : State) (ls : Nat) : List Nat := (List.range (32 * dies s)).filter (fun w => hostOf s w == some ls)

/-- Array commands that have not begun are discarded; their granted leave is returned. -/
def quiesceArr (a : Arr) : Arr := { a with q := a.q.filter (fun c => c.phase != .queued) }
def arrLeave (x : Station) : Nat :=
  (x.arrs.flatMap (fun p => (p.2.q.filter (fun c => c.phase == .queued)).map (·.paid))).foldl (· + ·) 0 +
  (x.vq.map (·.paid)).foldl (· + ·) 0

/-- The channels with a request outstanding at a well controller or a link (R147, R186). -/
def keptChans (s : State) (u : Nat) : List Nat :=
  [0, 1, 2, 3].filter (fun ch => match (getChan (stn s u) ch).active with
    | some a => outstandingLow s u ch a
    | none => false)

/-- Leave and credits that a unit's channels and chains hold and have not used (R187). -/
def quiesceLeave (s : State) (u : Nat) : State :=
  let x := stn s u
  let s := x.chans.foldl (fun s p => match p.2.active with
    | some a => sipCredit (creditSpans s u p.1 a) a.sip
    | none => s) s
  let s := x.chains.foldl (fun s c => sipOrphan (sipCredit (creditBack s ((c.leave.map (·.2)).foldl (· + ·) 0)) c.sip) c.sip) s
  creditBack s (arrLeave x)

/-- Phases 1 and 2 of R186 for one unit: nothing issues, signals are discarded from now on, and what has not begun is
dropped; a request that is outstanding stays, to be answered or abandoned. A chain ends without a completion (R308); its
window is unpredictable (R281). -/
def quiesceUnit (s : State) (u : Nat) : State :=
  let kept := keptChans s u
  let s := quiesceLeave s u
  let s := (stn s u).chains.foldl (fun s c => havocWindow s u c) s
  let s := modStn s u (fun x => { x with
    inReset := true, pipe := [], trapQ := [], chains := [], vq := [], closing := none,
    arrs := x.arrs.map (fun p => (p.1, quiesceArr p.2)),
    chans := x.chans.map (fun p => (p.1, { p.2 with queue := [], active := if kept.contains p.1 then p.2.active else none })) })
  { s with heldSig := s.heldSig.filter (fun q => q.toUnit != u) }

/-- A station reset of logical station `ls` begins. -/
def beginReset (s : State) (ls : Nat) : State :=
  (unitsOf s ls).foldl quiesceUnit (withdraw (voidChal s) (fun q => q.requester == ls))

/-- R186: a station reset quiesces a logical station. -/
def execStationReset (ls : Nat) (s : State) : Host.Outcome State Fault Refusal :=
  withOperand (decide (ls < stationsEnabled s))
    (guard s (!(unitsOf s ls).any (fun u => (stn s u).inReset) && !s.tap.scan) (beginReset s ls))

/-- Nothing that a unit's engines, pumps and outbound queue have begun is left (R186, R576). -/
def drained (x : Station) : Bool :=
  x.outq.isEmpty && x.vexec.isNone && x.arrs.all (fun p => p.2.q.isEmpty) && x.chans.all (fun p => p.2.active.isNone)

/-- R147, R186: what a unit has sent has arrived: its tiles have landed, but for those that a timeout has abandoned to the
paired package, and no signal of its die is on its way (log entry 58). -/
def delivered (s : State) (u : Nat) : Bool :=
  let g := gOf s (u / 32) false
  !s.orphans.any (fun o => o.1 == u && (decide (o.2.2 < 4) || decide (4 ≤ o.2.1))) &&
  !s.arrivals.any (fun a => a.src == g && !a.xp && (match a.what with | .signal _ _ => true | _ => false)) &&
  !(List.range 20).any (fun h => (unaccepted s h).any (fun f => f.type == 3 && f.srcDie == g && !f.hub && f.way != 2))

/-- Table 05.6. A latch of CYCLE_LO stays until CYCLE_LO is read again (R25, R225). -/
def releaseStn (x : Station) : Station :=
  pmFlush { ({} : Station) with
    thr := x.thr.map (fun p => (p.1, { latchCycle := p.2.latchCycle })),
    lastIssue := x.lastIssue, parkReq := x.parkReq, pm := x.pm, pmErr := x.pmErr, pmHeld := x.pmHeld,
    ncuLast := x.ncuLast, trf := x.trf, side := x.side, trfErr := x.trfErr, trfFree := x.trfFree,
    arrs := x.arrs.map (fun p => (p.1, { p.2 with q := [], lastW := none, lastBank := p.2.begunBank })),
    brkArmed := x.brkArmed, brkHit := x.brkHit }

/-- R187: the state of Table 05.6 is set, and the station accepts signals again. Its threads are parked, which ends a STEP
(R504). -/
def releaseUnit (s : State) (u : Nat) : State :=
  let s := match (stn s u).stepThread with | some t => stepEnd s u t | none => s
  modStn (sumNcu s u) u releaseStn

/-- Phase 3 of R186: the reset of logical station `ls` ends with its lower unit resident (R576). -/
def endReset (s : State) (ls : Nat) : State :=
  let s := (unitsOf s ls).foldl releaseUnit s
  { s with resident := tabSet 0 s.resident ls 0 }

/-- MAP_STATUS (R558): LAST names the station whose reset completed; BUSY reads 1 while any is in progress. -/
def anyReset (s : State) : Bool := s.stns.any (fun p => p.2.inReset)
def mapDone (s : State) (ls : Nat) : State := setField s Reg.mapStatus 14 8 ls

-- the two units of a host (R576 to R578)

/-- R576: the resident unit may yield. -/
def mayYield (x : Station) : Bool :=
  threads.all (fun t => (thr x t).st == .wait || (thr x t).st == .parked || fatal (thr x t)) &&
  x.chains.isEmpty && drained x && x.vq.isEmpty && x.chans.all (fun p => p.2.queue.isEmpty) && x.closing.isNone && !x.inReset

/-- A unit is runnable. -/
def runnable (s : State) (w : Nat) : Bool :=
  s.heldSig.any (fun q => q.toUnit == w) || threads.any (fun t => (thr (stn s w) t).st == .run)

/-- A unit that leaves its host: its waiting threads park at their waits. -/
def unitOff (s : State) (u : Nat) : State :=
  threads.foldl (fun s t =>
    if (thr (stn s u) t).st = .wait then
      modStn (parkAt s u t (seenPc (stn s u) t)) u (fun x => { x with switchParked := x.switchParked ++ [t] })
    else s) (modStn s u (fun x => { x with switchParked := [] }))

/-- A unit that comes to its host: the threads its own switch parked resume with KEEP, and its held signals are applied
(R188). -/
def unitOn (s : State) (u : Nat) : State :=
  let s := modStn s u (fun x => x.switchParked.foldl (fun x t => modThr x t (fun h => resumeAct h 1)) (notStuck { x with switchParked := [] }))
  let mine := s.heldSig.filter (fun q => q.toUnit == u)
  let s := { s with heldSig := s.heldSig.filter (fun q => q.toUnit != u) }
  mine.foldl (fun s q => evBump s u q.ev) s

/-- R577: the WELL leave of a switch's traffic, debited to the window as it goes; how many KiB a saved unit takes the manual
does not say, and the switch does not wait for its spans (log entry 73). -/
def switchSpend (s : State) : State :=
  let g := takeFree s
  let n := Config.freeNat g.1 0 % 2 ^ 14 * costEntry 5 (g.2.gov.ps == .p1)
  { g.2 with gov := { g.2.gov with spent := g.2.gov.spent + n } }

/-- R576: a host switches from its resident unit to the other. -/
def execUnitSwitch (ls : Nat) (s : State) : Host.Outcome State Fault Refusal :=
  match unitsOf s ls with
  | [a, b] =>
    let r := residentUnit s ls
    let o := if r = a then b else a
    let s' := switchSpend (unitOn (unitOff s r) o)
    guard s (mayYield (stn s r) && runnable s o) { s' with resident := tabSet 0 s'.resident ls (b2n (o == b)) }
  | _ => .next s

end Sys2Proof.Machine
end

