-- ==== Sys2Proof/Machine/Crypto.lean ====
section
/-! DEFINITION. Machine/Crypto.lean: the primitives of the Security Block, each as its standard of Table 16.6 defines it
(R496): SHA-384 (FIPS 180-4), HMAC and HKDF (RFC 2104, RFC 5869), AES-256-GCM (FIPS 197, SP 800-38D) and ECDSA over
P-384 (FIPS 186-5, SP 800-186). Integers of keys and signatures are 48 little-endian bytes (R439, R493, R494). -/

namespace Sys2Proof.Machine

/-- The value of bytes, the most significant first. -/
def msNat (bs : List Byte) : Nat := bs.foldl (fun n b => 256 * n + b.toNat) 0
/-- `n` bytes of a value, the most significant first. -/
def msBytes (n x : Nat) : List Byte := (leBytes n x).reverse
/-- The exclusive or of two byte strings, as long as the shorter. -/
def xorBytes (a b : List Byte) : List Byte := a.zipWith (· ^^^ ·) b

-- SHA-384

/-- The constants of SHA-512 and SHA-384 (FIPS 180-4, section 4.2.3). -/
def shaK : List Nat :=
  [0x428A2F98D728AE22, 0x7137449123EF65CD, 0xB5C0FBCFEC4D3B2F, 0xE9B5DBA58189DBBC,
   0x3956C25BF348B538, 0x59F111F1B605D019, 0x923F82A4AF194F9B, 0xAB1C5ED5DA6D8118,
   0xD807AA98A3030242, 0x12835B0145706FBE, 0x243185BE4EE4B28C, 0x550C7DC3D5FFB4E2,
   0x72BE5D74F27B896F, 0x80DEB1FE3B1696B1, 0x9BDC06A725C71235, 0xC19BF174CF692694,
   0xE49B69C19EF14AD2, 0xEFBE4786384F25E3, 0x0FC19DC68B8CD5B5, 0x240CA1CC77AC9C65,
   0x2DE92C6F592B0275, 0x4A7484AA6EA6E483, 0x5CB0A9DCBD41FBD4, 0x76F988DA831153B5,
   0x983E5152EE66DFAB, 0xA831C66D2DB43210, 0xB00327C898FB213F, 0xBF597FC7BEEF0EE4,
   0xC6E00BF33DA88FC2, 0xD5A79147930AA725, 0x06CA6351E003826F, 0x142929670A0E6E70,
   0x27B70A8546D22FFC, 0x2E1B21385C26C926, 0x4D2C6DFC5AC42AED, 0x53380D139D95B3DF,
   0x650A73548BAF63DE, 0x766A0ABB3C77B2A8, 0x81C2C92E47EDAEE6, 0x92722C851482353B] ++
  [0xA2BFE8A14CF10364, 0xA81A664BBC423001, 0xC24B8B70D0F89791, 0xC76C51A30654BE30,
   0xD192E819D6EF5218, 0xD69906245565A910, 0xF40E35855771202A, 0x106AA07032BBD1B8,
   0x19A4C116B8D2D0C8, 0x1E376C085141AB53, 0x2748774CDF8EEB99, 0x34B0BCB5E19B48A8,
   0x391C0CB3C5C95A63, 0x4ED8AA4AE3418ACB, 0x5B9CCA4F7763E373, 0x682E6FF3D6B2B8A3,
   0x748F82EE5DEFB2FC, 0x78A5636F43172F60, 0x84C87814A1F0AB72, 0x8CC702081A6439EC,
   0x90BEFFFA23631E28, 0xA4506CEBDE82BDE9, 0xBEF9A3F7B2C67915, 0xC67178F2E372532B,
   0xCA273ECEEA26619C, 0xD186B8C721C0C207, 0xEADA7DD6CDE0EB1E, 0xF57D4F7FEE6ED178,
   0x06F067AA72176FBA, 0x0A637DC5A2C898A6, 0x113F9804BEF90DAE, 0x1B710B35131C471B,
   0x28DB77F523047D84, 0x32CAAB7B40C72493, 0x3C9EBE0A15C9BEBC, 0x431D67C49C100D4C,
   0x4CC5D4BECB3E42B6, 0x597F299CFC657E2A, 0x5FCB6FAB3AD6FAEC, 0x6C44198C4A475817]
/-- The initial hash value of SHA-384 (FIPS 180-4, section 5.3.4). -/
def shaH0 : List Nat :=
  [0xCBBB9D5DC1059ED8, 0x629A292A367CD507, 0x9159015A3070DD17, 0x152FECD8F70E5939,
   0x67332667FFC00B31, 0x8EB44A8768581511, 0xDB0C2E0D64F98FA7, 0x47B5481DBEFA4FA4]

def rotr64 (x n : Nat) : Nat := x / 2 ^ n + x % 2 ^ n * 2 ^ (64 - n)
/-- The message schedule: its words newest first, `n` still to come. -/
def shaSchedule : Nat → List Nat → List Nat
  | 0, w => w
  | n + 1, w =>
    let a := w.getD 1 0
    let b := w.getD 14 0
    let s1 := rotr64 a 19 ^^^ rotr64 a 61 ^^^ a / 64
    let s0 := rotr64 b 1 ^^^ rotr64 b 8 ^^^ b / 128
    shaSchedule n ((s1 + w.getD 6 0 + s0 + w.getD 15 0) % 2 ^ 64 :: w)
/-- One round on the working variables a to h. -/
def shaRound (v : List Nat) (kw : Nat × Nat) : List Nat :=
  match v with
  | [a, b, c, d, e, f, g, h] =>
    let t1 := h + (rotr64 e 14 ^^^ rotr64 e 18 ^^^ rotr64 e 41) + ((e &&& f) ^^^ ((2 ^ 64 - 1 - e) &&& g)) + kw.1 + kw.2
    let t2 := (rotr64 a 28 ^^^ rotr64 a 34 ^^^ rotr64 a 39) + ((a &&& b) ^^^ (a &&& c) ^^^ (b &&& c))
    [(t1 + t2) % 2 ^ 64, a, b, c, (d + t1) % 2 ^ 64, e, f, g]
  | _ => v
/-- One block of 128 bytes. -/
def shaBlock (h : List Nat) (blk : List Byte) : List Nat :=
  let m := (List.range 16).map (fun i => msNat ((blk.drop (8 * i)).take 8))
  let w := (shaSchedule 64 m.reverse).reverse
  h.zipWith (fun a b => (a + b) % 2 ^ 64) ((shaK.zip w).foldl shaRound h)
/-- `n` blocks of a padded message. -/
def shaBlocks : Nat → List Nat → List Byte → List Nat
  | 0, h, _ => h
  | n + 1, h, bs => shaBlocks n (shaBlock h bs) (bs.drop 128)
/-- SHA-384: 48 bytes. -/
def sha384 (bs : List Byte) : List Byte :=
  let n := bs.length
  let pad := bs ++ (0x80 : Byte) :: List.replicate ((239 - n % 128) % 128) 0 ++ msBytes 16 (8 * n)
  ((shaBlocks (pad.length / 128) shaH0 pad).take 6).flatMap (msBytes 8)

/-- HMAC-SHA-384. -/
def hmac384 (key msg : List Byte) : List Byte :=
  let k := if 128 < key.length then sha384 key else key
  let k := k ++ List.replicate (128 - k.length) 0
  sha384 (k.map (· ^^^ 0x5C) ++ sha384 (k.map (· ^^^ 0x36) ++ msg))
/-- The blocks T(i), T(i+1), … of HKDF's expansion: `n` of them. -/
def hkdfBlocks (prk info : List Byte) : Nat → Nat → List Byte → List Byte
  | 0, _, _ => []
  | n + 1, i, t =>
    let t := hmac384 prk (t ++ info ++ [BitVec.ofNat 8 i])
    t ++ hkdfBlocks prk info n (i + 1) t
/-- HKDF-SHA-384: input key, salt, info, output length. -/
def hkdf (ikm salt info : List Byte) (len : Nat) : List Byte :=
  (hkdfBlocks (hmac384 salt ikm) info ((len + 47) / 48) 1 []).take len

-- AES-256-GCM

/-- The product in GF(2^8) of AES. -/
def gf8Mul (a b : Nat) : Nat :=
  ((List.range 8).foldl (fun (p : Nat × Nat) i =>
    (if b.testBit i then p.1 ^^^ p.2 else p.1, if p.2.testBit 7 then (2 * p.2) % 256 ^^^ 0x1B else 2 * p.2)) (0, a)).1
/-- The substitution of one byte: the inverse (a^254), then the affine map. -/
def aesSub (x : Nat) : Nat :=
  let sq (a : Nat) : Nat := gf8Mul a a
  let x2 := sq x
  let x4 := sq x2
  let x8 := sq x4
  let x16 := sq x8
  let x32 := sq x16
  let x64 := sq x32
  let x128 := sq x64
  let y := gf8Mul x2 (gf8Mul x4 (gf8Mul x8 (gf8Mul x16 (gf8Mul x32 (gf8Mul x64 x128)))))
  let rot (n : Nat) : Nat := (y * 2 ^ n + y * 2 ^ n / 256) % 256
  y ^^^ rot 1 ^^^ rot 2 ^^^ rot 3 ^^^ rot 4 ^^^ 0x63
/-- The substitution box. -/
def aesBox : List Nat := (List.range 256).map aesSub
/-- The key schedule: `n` more words of four bytes behind those of `w`, newest first; `i` numbers the next. -/
def aesExpand (box : List Nat) : Nat → Nat → List (List Nat) → List (List Nat)
  | 0, _, w => w
  | n + 1, i, w =>
    let t := w.headD []
    let sub (l : List Nat) : List Nat := l.map (fun b => box.getD b 0)
    let t := if i % 8 = 0 then (sub (t.drop 1 ++ t.take 1)).zipWith (· ^^^ ·) [2 ^ (i / 8 - 1), 0, 0, 0]
      else if i % 8 = 4 then sub t else t
    aesExpand box n (i + 1) (t.zipWith (· ^^^ ·) (w.getD 7 []) :: w)
/-- The fifteen round keys of a 256-bit key, of 16 bytes each. -/
def aesKeys (box : List Nat) (key : List Byte) : List (List Nat) :=
  let k := key.map (·.toNat)
  let w := (aesExpand box 52 8 ((List.range 8).map (fun i => (k.drop (4 * i)).take 4)).reverse).reverse
  (List.range 15).map (fun r => ((w.drop (4 * r)).take 4).flatten)
/-- SubBytes and ShiftRows of a block, column by column. -/
def aesShift (box st : List Nat) : List Nat :=
  (List.range 16).map (fun i => box.getD (st.getD ((i + 4 * (i % 4)) % 16) 0) 0)
/-- MixColumns. -/
def aesMix (st : List Nat) : List Nat :=
  (List.range 16).map (fun i =>
    let c (k : Nat) : Nat := st.getD (i / 4 * 4 + (i + k) % 4) 0
    gf8Mul 2 (c 0) ^^^ gf8Mul 3 (c 1) ^^^ c 2 ^^^ c 3)
/-- One block under the round keys. -/
def aesBlock (box : List Nat) (ks : List (List Nat)) (blk : List Byte) : List Byte :=
  let add (st : List Nat) (r : Nat) : List Nat := st.zipWith (· ^^^ ·) (ks.getD r [])
  let st := (List.range 13).foldl (fun st r => add (aesMix (aesShift box st)) (r + 1)) (add (blk.map (·.toNat)) 0)
  (add (aesShift box st) 14).map (BitVec.ofNat 8)

/-- The product in GF(2^128) of GCM; a block's first bit is its most significant. -/
def gf128Mul (x y : Nat) : Nat :=
  ((List.range 128).foldl (fun (p : Nat × Nat) i =>
    (if x.testBit (127 - i) then p.1 ^^^ p.2 else p.1, if p.2.testBit 0 then p.2 / 2 ^^^ 0xE1 * 2 ^ 120 else p.2 / 2)) (0, y)).1
/-- `n` blocks of GHASH under the hash key `h`. -/
def ghash (h : Nat) : Nat → Nat → List Byte → Nat
  | 0, y, _ => y
  | n + 1, y, bs => ghash h n (gf128Mul (y ^^^ msNat (bs.take 16)) h) (bs.drop 16)
/-- Bytes padded with zeros to whole blocks. -/
def padBlock (bs : List Byte) : List Byte := bs ++ List.replicate ((16 - bs.length % 16) % 16) 0
/-- The key stream of `n` blocks from counter `c`. -/
def gcmStream (box : List Nat) (ks : List (List Nat)) (nonce : List Byte) : Nat → Nat → List Byte
  | 0, _ => []
  | n + 1, c => aesBlock box ks (nonce ++ msBytes 4 c) ++ gcmStream box ks nonce n (c + 1)
/-- AES-256-GCM decryption: key, 96-bit nonce, additional data, ciphertext with its 128-bit tag; none where the tag
fails. -/
def aesGcm (key nonce aad ct : List Byte) : Option (List Byte) :=
  let box := aesBox
  let ks := aesKeys box key
  let n := ct.length - 16
  let c := ct.take n
  let h := msNat (aesBlock box ks (List.replicate 16 0))
  let body := padBlock aad ++ padBlock c ++ msBytes 8 (8 * aad.length) ++ msBytes 8 (8 * n)
  let tag := xorBytes (msBytes 16 (ghash h (body.length / 16) 0 body)) (aesBlock box ks (nonce ++ msBytes 4 1))
  if ct.length < 16 ∨ ct.drop n ≠ tag then none
  else some (xorBytes c (gcmStream box ks nonce ((n + 15) / 16) 2))

-- ECDSA over P-384

/-- The field prime, the order, the coefficient b and the base point of P-384. -/
def p384p : Nat := 2 ^ 384 - 2 ^ 128 - 2 ^ 96 + 2 ^ 32 - 1
def p384n : Nat := 39402006196394479212279040100143613805079739270465446667946905279627659399113263569398956308152294913554433653942643
def p384b : Nat := 0xB3312FA7E23EE7E4988E056BE3F82D19181D9C6EFE8141120314088F5013875AC656398D8A2ED19D2A85C8EDD3EC2AEF
def p384g : Nat × Nat :=
  (0xAA87CA22BE8B05378EB1C71EF320AD746E1D3B628BA79B9859F741E082542A385502F25DBF55296C3A545E3872760AB7,
   0x3617DE4A96262C6F5D9E98BF9292DC29F8F41DBD289A147CE9DA3113B5F0B8C00A60B1CE1D7E819D7A431D7C90EA0E5F)

/-- `a ^ e mod m` over the `k` low bits of `e`. -/
def powMod (m : Nat) : Nat → Nat → Nat → Nat
  | 0, _, _ => 1
  | k + 1, a, e => (if e % 2 = 1 then a else 1) * powMod m k (a * a % m) (e / 2) % m
/-- The inverse modulo a prime below 2^384. -/
def invMod (m a : Nat) : Nat := powMod m 384 a (m - 2)
/-- A difference in the field. -/
def subP (a b : Nat) : Nat := (a + p384p - b) % p384p

/-- The sum of two points; none is the point at infinity. -/
def ptAdd (a b : Option (Nat × Nat)) : Option (Nat × Nat) :=
  match a, b with
  | none, b => b
  | a, none => a
  | some (x1, y1), some (x2, y2) =>
    if x1 = x2 ∧ (y1 + y2) % p384p = 0 then none
    else
      let l := if x1 = x2 then subP (3 * x1 * x1 % p384p) 3 * invMod p384p (2 * y1) % p384p
        else subP y2 y1 * invMod p384p (subP x2 x1) % p384p
      let x := subP (subP (l * l % p384p) x1) x2
      some (x, subP (l * subP x1 x % p384p) y1)
/-- `k` times a point, over the `n` low bits of `k`. -/
def ptMul : Nat → Nat → Option (Nat × Nat) → Option (Nat × Nat)
  | 0, _, _ => none
  | n + 1, k, q => ptAdd (if k % 2 = 1 then q else none) (ptMul n (k / 2) (ptAdd q q))

/-- The integer of a 384-bit digest. -/
def digestNat (d : List Byte) : Nat := msNat d
/-- A public key: X and then Y. -/
def pubPoint (pub : List Byte) : Nat × Nat := (leNat (pub.take 48), leNat ((pub.drop 48).take 48))
/-- A point of the curve. -/
def onCurve (q : Nat × Nat) : Bool :=
  decide (q.1 < p384p) && decide (q.2 < p384p) && q.2 * q.2 % p384p == (q.1 * q.1 * q.1 + (p384p - 3) * q.1 + p384b) % p384p

/-- Whether a signature (r and then s) over a digest verifies under a public key. -/
def ecdsaVerify (pub digest sig : List Byte) : Bool :=
  let q := pubPoint pub
  let r := leNat (sig.take 48)
  let s := leNat ((sig.drop 48).take 48)
  let w := invMod p384n s
  let u := digestNat digest * w % p384n
  let v := r * w % p384n
  onCurve q && decide (1 ≤ r) && decide (r < p384n) && decide (1 ≤ s) && decide (s < p384n) &&
  (match ptAdd (ptMul 384 u (some p384g)) (ptMul 384 v (some q)) with
   | some x => x.1 % p384n == r
   | none => false)

/-- The public key of a private scalar. -/
def ecdsaPublic (key : List Byte) : List Byte :=
  match ptMul 384 (leNat key) (some p384g) with
  | some q => leBytes 48 q.1 ++ leBytes 48 q.2
  | none => List.replicate 96 0

/-- The signature of a digest with the secret `k`, where it gives one. -/
def ecdsaTry (key digest : List Byte) (k : Nat) : Option (List Byte) :=
  match ptMul 384 k (some p384g) with
  | none => none
  | some q =>
    let r := q.1 % p384n
    let s := invMod p384n k * (digestNat digest + r * leNat key) % p384n
    if r = 0 ∨ s = 0 then none else some (leBytes 48 r ++ leBytes 48 s)
/-- The signature of a digest with the per-signature secrets of generation `gen`, each a free value of the DRBG from 1 to
n − 1: the first that gives one is taken (log entry 5). -/
def ecdsaSign (gen : Nat) (key digest : List Byte) : List Byte :=
  ((List.range 2).findSome? (fun i => ecdsaTry key digest (1 + Config.freeNat gen i % (p384n - 1)))).getD (List.replicate 96 0)

end Sys2Proof.Machine
end

