-- ==== Sys2Proof/Machine/Rings.lean ====
section
/-! DEFINITION. Machine/Rings.lean: queue pairs: doorbells, enable and disable, coalescing, MSI-X unmasking, and the
fetch and routing of submission entries (R379 to R386, R390). -/

namespace Sys2Proof.Machine

/-- A queue-pair number and a 32-bit value. -/
def qpArg (n v : Nat) : Bool := decide (n < 64) && decide (v < 2 ^ 32)

/-- R380: the host writes SQ_TAIL. -/
def writeSqTail (n v : Nat) (s : State) : State :=
  modQp s n (fun q => if q.enable then { q with tail := v % 2 ^ q.sqL } else q)
def execSqTailDoorbell (n v : Nat) (s : State) : Host.Outcome State Fault Refusal :=
  withOperand (qpArg n v) (.next (writeSqTail n v s))

/-- R381: a CQ_HEAD value is valid against the head in force. -/
def headValid (q : QPair) (h : Nat) : Bool :=
  let z := 2 ^ q.cqL
  decide ((h + z - q.cqHead) % z ≤ (q.cqTail + z - q.cqHead) % z)

/-- R381: the host writes CQ_HEAD. -/
def writeCqHead (n v : Nat) (s : State) : State :=
  let q := getQp s n
  let h := v % 2 ^ q.cqL
  if !q.enable then s
  else if headValid q h then flushAll (setQp s n { q with cqHead := h, badHead := false }) n
  else setQp s n { q with badHead := true }
def execCqHeadDoorbell (n v : Nat) (s : State) : Host.Outcome State Fault Refusal :=
  withOperand (qpArg n v) (.next (writeCqHead n v s))

/-- A ring size (Table 12.3). -/
def ringLog2 (x : Nat) : Nat := if x < 8 then 8 else if 12 < x then 12 else x

/-- The frames and entries of a queue pair that is disabled are dropped, and its sessions end (R379). Frames that other
queue pairs have fetched stay (R388). -/
def qpDrop (s : State) (n : Nat) : State :=
  (sids s).foldl (fun s i =>
    let x := getSess s i
    let keep (f : Frame) : Bool := f.qp != n
    if (x.isOpen || x.closing) && x.qp == n then
      modSess (dropSess s i) i (fun y => { y with pend := x.pend.filter keep, urgent := x.urgent.filter keep })
    else setSess s i { x with pend := x.pend.filter keep, urgent := x.urgent.filter keep, outq := x.outq.filter (fun e => e.qp != n) }) s

/-- R379: a write of the word that holds ENABLE, the sizes and VECTOR. -/
def writeQpEnable (n v : Nat) (s : State) : State :=
  let q := getQp s n
  let q' := { q with enable := v.testBit 0, sqLog2 := ringLog2 (bits v 11 8), cqLog2 := ringLog2 (bits v 15 12), vector := bits v 21 16 }
  if v.testBit 0 && !q.enable then
    let s := if q.ending ∧ q.since ≠ 0 then qpMessage s n else s
    setQp s n { q' with st := 1, errCause := 0, sqHead := 0, tail := 0, cqTail := 0, cqHead := 0, sqB := q.sqBase, cqB := q.cqBase,
                        sqL := q'.sqLog2, cqL := q'.cqLog2, phase := true, reserved := 0, badHead := false, waiting := [],
                        since := 0, ending := false }
  else if !v.testBit 0 && q.enable then qpDrop (setQp s n { q' with ending := true, waiting := [], reserved := 0 }) n
  else setQp s n q'
def execQpEnableWrite (n v : Nat) (s : State) : Host.Outcome State Fault Refusal :=
  withOperand (qpArg n v) (.next (writeQpEnable n v s))

/-- R379: the message of entries written before the disable is sent, and STATE reads DISABLED. -/
def execQpDisableDone (n : Nat) (s : State) : Host.Outcome State Fault Refusal :=
  let t := if (getQp s n).since ≠ 0 then qpMessage s n else s
  withOperand (decide (n < 64))
    (guard s (getQp s n).ending (modQp t n (fun q => { q with st := 0, ending := false })))

/-- R382: a write of COAL_COUNT and COAL_US takes effect at once, for the entries already waiting as well. -/
def writeQpCoal (n v : Nat) (s : State) : State :=
  let s := modQp s n (fun q => { q with coalCount := if v % 65536 = 0 then 1 else v % 65536, coalUs := v / 65536 % 65536 })
  if qpDue s (getQp s n) then qpMessage s n else s
def execQpCoalWrite (n v : Nat) (s : State) : Host.Outcome State Fault Refusal :=
  withOperand (qpArg n v) (.next (writeQpCoal n v s))

/-- R382: the oldest entry without a message is COAL_US µs old. -/
def execMsixCoalTimeout (n : Nat) (s : State) : Host.Outcome State Fault Refusal :=
  withOperand (decide (n < 64)) (guard s ((getQp s n).since != 0) (qpMessage s n))

/-- R382: pending vectors that are no longer masked send their messages, under the PCIe MSI-X rules. -/
def msixRelease (s : State) : State :=
  (List.range 64).foldl (fun s v =>
    if s.msix.pend.testBit v && s.msix.en && !s.msix.fmask && s.msix.busMaster && !(msixEntry s v).masked then
      sendMsix { s with msix := { s.msix with pend := s.msix.pend - 2 ^ v } } v
    else s) s

/-- The host writes the mask bit of a vector. -/
def writeVectorMask (v : Nat) (m : Bool) (s : State) : State :=
  msixRelease { s with msix := { s.msix with table := tabPut s.msix.table v { msixEntry s v with masked := m } } }
def execMsixVectorUnmask (v : Nat) (s : State) : Host.Outcome State Fault Refusal :=
  withOperand (decide (v < 64)) (.next (writeVectorMask v false s))

-- fetching (R380, R384 to R386, R390)

/-- A submission entry (Table 12.4). -/
def frameOf (qp no : Nat) (bs : List Byte) : Frame :=
  let f (o n : Nat) : Nat := leNat ((bs.drop o).take n)
  { qp := qp, sid := f 0 2 % 4096, type := f 2 1, flags := f 3 1, tag := f 4 4, addr := f 8 8, len := f 16 4, body := bs.drop 20, no := no }

/-- A frame's INLINE, DEVICE and RANDOM_SEED flags. -/
def Frame.inl (f : Frame) : Bool := f.flags.testBit 0
def Frame.device (f : Frame) : Bool := f.flags.testBit 1
def Frame.rndSeed (f : Frame) : Bool := f.flags.testBit 2

/-- The secondary package of a pair (R411). -/
def isSecondary (s : State) : Bool := s.paired && s.roleNow

/-- What becomes of a fetched frame (R385, R386, R389, R390, R410, R411). -/
def routeFrame (s : State) (f : Frame) : State :=
  let x := getSess s f.sid
  let other := (x.isOpen || x.closing) && x.qp != f.qp
  let query := f.type == 8
  if isSecondary s then done s f 0xF []
  else if f.type = 0 ∨ 8 < f.type then done s f 8 []
  else if query && f.device then modSess s f.sid (fun x => { x with urgent := x.urgent ++ [f] })
  else if other || x.closing then done s f 7 []
  else if x.faulted && !query && f.type != 7 then done s f 0xD []
  else if 6 ≤ f.type then modSess s f.sid (fun x => { x with urgent := x.urgent ++ [f] })
  else if 16 ≤ x.pend.length then done s f 0xA []
  else modSess s f.sid (fun x => { x with pend := x.pend ++ [f] })

/-- R380: the device fetches the entry at SQ_HEAD: its bytes, or none where the read fails (R383). -/
def execSqFetch (n : Nat) (entry : Option (List Byte)) (s : State) : Host.Outcome State Fault Refusal :=
  let q := getQp s n
  withOperand (decide (n < 64) && (match entry with | some bs => bs.length == 64 | none => true))
    (guard s (qpLive q && !q.badHead && q.sqHead != q.tail && decide (0 < cqFree q))
      (match entry, s.msix.busMaster with
       | some bs, true =>
         let s := setQp s n { q with sqHead := (q.sqHead + 1) % 2 ^ q.sqL, reserved := q.reserved + 1 }
         let no := s.disp.nextFetch
         routeFrame { s with disp := { s.disp with nextFetch := no + 1 } } (frameOf n no bs)
       | _, _ => qpError s n 1 (q.sqB + 64 * q.sqHead)))

-- changes of the power state that wait (R368)

/-- A transition is in progress (PWR_STATE.BUSY, Table 11.8): one asked for that no step holds back, or, after P3 Standby,
the priming that belongs to the exit (R370). -/
def transiting (s : State) : Bool :=
  (s.gov.busy.isSome && s.disp.step.isNone) || (match s.disp.prime with | .due .p3 => true | .running .p3 => true | _ => false)

/-- Codes of Table 11.6. -/
def pstateOf (t : Nat) : PState := match t with | 0 => .p0 | 1 => .p1 | 2 => .p2 | 3 => .p3 | _ => .p4
def pstateCode : PState → Nat | .p0 => 0 | .p1 => 1 | .p2 => 2 | .p3 => 3 | .p4 => 4

/-- R368: the state that TARGET asks for, where it is another than the state in force: that of a secondary package decides
nothing about P3 Standby, and Table 11.7 has no way from P3 to P2. -/
def wanted (s : State) : Option PState :=
  let p := pstateOf (reg s Reg.pwrCtl % 8)
  if p = s.gov.ps || s.gov.ps == .p4 || (isSecondary s && (p == .p3 || s.gov.ps == .p3)) || (s.gov.ps == .p3 && p == .p2) then none
  else some p

/-- R368: a TARGET written during a transition takes effect once that has ended. -/
def retarget (s : State) : State :=
  if s.gov.again && !transiting s then { s with gov := { s.gov with busy := wanted s, again := false } } else s

end Sys2Proof.Machine
end

