-- ==== Sys2Proof/Machine/Sessions.lean ====
section
/-! DEFINITION. Machine/Sessions.lean: what the frames of a session do, and the Text Engine's tokenizing (R386 to R399,
R414, R419, R423 to R427). -/

namespace Sys2Proof.Machine

/-- BOOT_IMG_STATUS.STATE, and whether an image is in READY (R391). -/
def imgState (s : State) : Nat := reg s Reg.imgStatus % 8
def imgReady (s : State) : Bool := imgState s == 3
def theImage (s : State) : Image := s.ldr.image.getD {}

/-- R497: a request of the DRBG: a free value, once a reseed that is due has been made. -/
def drbgTake (s : State) : Option (Nat × State) :=
  if 2 ^ 20 ≤ s.sec.drbg ∧ !s.sec.entOk then none
  else
    let n := if 2 ^ 20 ≤ s.sec.drbg then 0 else s.sec.drbg
    some (takeFree { s with sec := { s.sec with drbg := n + 1 } })

/-- R370: a frame that creates work wakes the part from P2 entered by AUTO_IDLE, or, with WAKE_ON_WORK, from P3. Where
TARGET names neither P0 nor P1 the manual does not say which the exit goes to (log entry 34). -/
def wakeWork (s : State) : State :=
  let tgt := reg s Reg.pwrCtl % 8
  let g := takeFree s
  let dst : PState := if tgt = 1 then .p1 else if tgt = 0 then .p0 else if Config.freeBit g.1 0 then .p0 else .p1
  let s' := if tgt ≤ 1 then s else g.2
  if s.gov.busy.isSome then s
  else if s.gov.ps = .p2 ∧ s.gov.autoIdle ∧ tgt ≤ 1 then { s with gov := { s.gov with busy := some dst } }
  else if s.gov.ps = .p3 ∧ regBit s Reg.pwrCtl 9 then { s' with gov := { s'.gov with busy := some dst } }
  else s

/-- Whether a CANCEL or a CLOSE of a session waits for the step boundary (R396, R397). -/
def ending (x : Sess) : Bool := !x.armed.isEmpty || x.urgent.any (fun f => f.type != 8)

/-- R390: the in-order frame of a session that starts to act now, if it has this TYPE. Nothing of a queue pair in ERROR
goes on (R383). -/
def startFrame (s : State) (sid type : Nat) : Option Frame :=
  let x := getSess s sid
  match x.pend with
  | f :: _ => if f.type = type ∧ x.gen.isNone ∧ !x.busy ∧ !ending x ∧ qpLive (getQp s f.qp) then some f else none
  | [] => none

/-- Whether a frame's session is its own and open (R389, BAD_SESSION). -/
def ownOpen (s : State) (f : Frame) : Bool := (getSess s f.sid).isOpen && (getSess s f.sid).qp == f.qp

/-- R386: the bytes of the payload that the device reads. -/
def payLen (f : Frame) : Nat := min f.len 65536
/-- The payload operand of a row: as many bytes as the device reads, or none where the read fails. -/
def payOk (f : Frame) (p : Option (List Byte)) : Bool :=
  match p with | some bs => bs.length == payLen f | none => true

/-- A little-endian field of bytes 20 to 63 of the entry; `o` counts from byte 20. -/
def Frame.fld (f : Frame) (o n : Nat) : Nat := leNat ((f.body.drop o).take n)

/-- R391: OPEN. -/
def openFrame (s : State) (f : Frame) : Option State :=
  let x := getSess s f.sid
  let fail (r : Nat) : Option State := some (doneHead s f.sid r [])
  if x.isOpen || decide (sessLimit s ≤ f.sid) then fail 7
  else if !imgReady s || s.sec.zero.isSome then fail 0xB
  else if reg s Reg.sessCap ≤ openCount s then fail 6
  else
    let fresh (s : State) (seed : Nat) : State :=
      let inc := s.disp.nextInc
      let s := { s with disp := { s.disp with nextInc := inc + 1 } }
      let y : Sess := { inc := inc, isOpen := true, qp := f.qp, seed := seed, maxNew := (theImage s).ctxMax, 
                        pend := x.pend, urgent := x.urgent }
      doneHead (setSess s f.sid y) f.sid 0 (leBytes 8 seed)
    if f.rndSeed then (drbgTake s).map (fun g => fresh g.2 (Config.freeNat g.1 0 % 2 ^ 64))
    else some (fresh s (f.fld 0 8))

def execOpenSession (sid : Nat) (s : State) : Host.Outcome State Fault Refusal :=
  match startFrame s sid 1 with
  | some f => enabled s (openFrame s f)
  | none => .next s

-- CONFIG (R392, R393)

/-- Table 12.9: TEMP and TOP_P as FP32 codes. -/
def clampTemp (c : Nat) : Nat :=
  if c.testBit 31 ∨ 0x7F800000 < c then 0 else if 0x41800000 < c then 0x41800000 else c
def clampTopP (c : Nat) : Nat :=
  let a := c % 2 ^ 31
  if 0x7F800000 < a then 0x3F800000 else if c.testBit 31 then 0 else if 0x3F800000 < c then 0x3F800000 else c

/-- The mask numbers that bits [7:4] of MASK_EN name. -/
def maskNums (en : Nat) : List Nat := (List.range 4).filter (fun i => en.testBit (4 + i))

/-- Takes `n` stop strings from a payload; none where the layout breaks. -/
def takeStops : Nat → List Byte → Option (List (List Byte))
  | 0, _ => some []
  | n + 1, bs =>
    match bs with
    | [] => none
    | l :: t =>
      if l.toNat = 0 ∨ 48 < l.toNat ∨ t.length < l.toNat then none
      else (takeStops n (t.drop l.toNat)).map (fun r => t.take l.toNat :: r)

/-- Whether the Text Engine can serve text: present, and its tables loaded (R7, R449). -/
def textOk (s : State) : Bool := hasText s && s.text.loaded

/-- R392: applies a CONFIG whose payload is laid out well. -/
def applyConfig (s : State) (f : Frame) (masks : List (Nat × List Byte)) (stops : List (List Byte)) : State :=
  let set := f.fld 0 1
  let ctx := (theImage s).ctxMax
  let x := getSess s f.sid
  let x := if set.testBit 0 then
    { x with temp := clampTemp (f.fld 4 4), topP := clampTopP (f.fld 8 4), topK := min (f.fld 12 2) 1024 } else x
  let x := if set.testBit 1 then
    let lim := min (max 1 (f.fld 24 4)) 65536
    { x with maxNew := min (max 1 (f.fld 16 4)) ctx, truncLimit := lim, truncHead := min (min (f.fld 20 2) 4096) lim } else x
  let x := if set.testBit 2 then { x with stops := stops } else x
  let x := if set.testBit 3 then
    { x with maskEn := f.fld 28 1 % 16, masks := masks.foldl (fun t p => tabPut t p.1 p.2) x.masks } else x
  let x := if set.testBit 4 then { x with seed := f.fld 36 8 } else x
  doneHead (setSess s f.sid x) f.sid 0 (configData x)

/-- R392: CONFIG, with its payload where it needs one. -/
def configFrame (s : State) (f : Frame) (p : Option (List Byte)) : State :=
  let set := f.fld 0 1
  let fail (r : Nat) : State := doneHead s f.sid r []
  if !ownOpen s f then fail 7
  else if set.testBit 2 && !textOk s then fail 9
  else
    let mb := ceilDiv (theImage s).vocab 8
    let nums := if set.testBit 3 then maskNums (f.fld 28 1) else []
    let ns := if set.testBit 2 then min (f.fld 29 1) 8 else 0
    if nums.isEmpty ∧ ns = 0 then applyConfig s f [] []
    else
      match p with
      | none => fail 0x10
      | some bs =>
        if bs.length < nums.length * mb then fail 8
        else
          match takeStops ns (bs.drop (nums.length * mb)) with
          | none => fail 8
          | some stops => applyConfig s f (nums.mapIdx (fun k i => (i, (bs.drop (k * mb)).take mb))) stops

/-- R392: CONFIG. -/
def execConfig (sid : Nat) (payload : Option (List Byte)) (s : State) : Host.Outcome State Fault Refusal :=
  match startFrame s sid 2 with
  | some f => withOperand (payOk f payload) (.next (configFrame s f payload))
  | none => .next s

-- appends (R394, R427)

/-- L of a session. -/
def Sess.len (x : Sess) : Nat := x.tokens.length

/-- R394: puts tokens at the end of a session and completes the append: `drop` counts those truncated. -/
def addTokens (s : State) (f : Frame) (toks : List Nat) (drop cut : Nat) : State :=
  let x := getSess s f.sid
  let room := (theImage s).ctxMax - x.len
  let keep := toks.take room
  let extra := toks.length - keep.length
  let x := { x with tokens := x.tokens ++ keep, busy := false }
  let s := addReg (setSess s f.sid x) Reg.textTruncDrop drop
  wakeWork (doneHead s f.sid (if extra = 0 then 0 else 4)
    (leBytes 4 keep.length ++ leBytes 4 (drop + extra) ++ leBytes 4 x.len ++ leBytes 4 cut))

/-- The tokens an APPEND_TOKENS carries. -/
def tokenList (bs : List Byte) : List Nat := (List.range (bs.length / 4)).map (fun i => leNat ((bs.drop (4 * i)).take 4))

/-- R394: APPEND_TOKENS with the tokens it carries. -/
def appendTokens (s : State) (f : Frame) (bs : List Byte) : State :=
  let ts := tokenList bs
  let x := getSess s f.sid
  if ts.any (fun t => decide ((theImage s).vocab ≤ t)) then doneHead s f.sid 8 []
  else
    let k := truncateTokens x.truncHead x.truncLimit ts
    addTokens s f k.1 k.2 0

/-- R394: APPEND_TOKENS. -/
def execAppendTokens (sid : Nat) (payload : Option (List Byte)) (s : State) : Host.Outcome State Fault Refusal :=
  match startFrame s sid 4 with
  | some f => withOperand (payOk f payload) (.next (
      if !ownOpen s f then doneHead s sid 7 []
      else if f.inl then appendTokens s f (f.body.take (min f.len 44))
      else if payLen f < 4 then appendTokens s f []
      else match payload with
        | some bs => appendTokens s f bs
        | none => doneHead s sid 0x10 []))
  | none => .next s

/-- R414: an append starts: it takes a free pipe, or waits in the order of fetching. -/
def insertJob (j : TextJob) : List TextJob → List TextJob
  | [] => [j]
  | k :: t => if j.frame.no < k.frame.no then j :: k :: t else k :: insertJob j t
def startJob (s : State) (j : TextJob) : State :=
  let t := { s.text with wait := insertJob j s.text.wait }
  modSess { s with text := fillPipe (fillPipe t 0) 1 } j.frame.sid (fun x => { x with busy := true })

/-- R423: the text that is kept, and the bytes cut, given the bytes stored and those as written beyond them. -/
def cutText (text : List Byte) (beyond : Nat) : List Byte × Nat :=
  if beyond = 0 then (text, 0)
  else
    let tail := (unitsOf8 text).2.length
    (text.take (text.length - tail), beyond + tail)

/-- R394, R423: APPEND_TEXT with the bytes stored: checks its spans, cuts it, and gives it to the Text Engine. -/
def appendText (s : State) (f : Frame) (nspans : Nat) (bs : List Byte) (beyond : Nat) : State :=
  let spans := (List.range nspans).map (fun i => (leNat ((bs.drop (8 * i)).take 4), leNat ((bs.drop (8 * i + 4)).take 4)))
  let text := bs.drop (8 * nspans)
  if !spansOk (text.length + beyond) 0 spans then doneHead s f.sid 8 []
  else
    let c := cutText text beyond
    startJob s ⟨f, c.1, if beyond = 0 then spans else clipSpans c.1.length spans, c.2⟩

/-- R394: APPEND_TEXT. -/
def appendTextFrame (s : State) (f : Frame) (p : Option (List Byte)) : State :=
  let fail (r : Nat) : State := doneHead s f.sid r []
  if !ownOpen s f then fail 7
  else if !textOk s then fail 9
  else if f.inl then appendText s f 0 (f.body.take (min f.len 44)) (f.len - 44)
  else
    let n := f.fld 0 2
    if 64 < n ∨ f.len < 8 * n then fail 8
    else if f.len = 0 then appendText s f 0 [] 0
    else match p with
      | none => fail 0x10
      | some bs => appendText s f n bs (f.len - 65536)
def execAppendText (sid : Nat) (payload : Option (List Byte)) (s : State) : Host.Outcome State Fault Refusal :=
  match startFrame s sid 3 with
  | some f => withOperand (payOk f payload) (.next (appendTextFrame s f payload))
  | none => .next s

-- reads of Text SRAM (R419)

/-- Reads 64-bit words in order: single-bit errors are corrected and counted; the first uncorrectable one, if any. -/
def textReads (s : State) : List Nat → State × Option Nat
  | [] => (s, none)
  | w :: t =>
    match s.text.err.find? (fun p => p.1 == w) with
    | none => textReads s t
    | some (_, .single) => textReads (addReg { s with text := { s.text with err := tabDel s.text.err w } } Reg.textCe 1) t
    | some (_, .bad _) => (s, some w)

/-- R419: an uncorrectable word is counted and recorded, and its rewrite falls due. -/
def textUe (s : State) (w sid : Nat) : State :=
  let s := addReg s Reg.textUe 1
  pushRec { s with text := { s.text with repair := s.text.repair ++ [w] } } ⟨8, 0, 8, leBytes 4 (8 * w) ++ leBytes 2 sid⟩

/-- Marks that can be met: with none, no read has an error. -/
def textReadsOf (s : State) (ws : List Nat) : State × Option Nat := if s.text.err.isEmpty then (s, none) else textReads s ws

/-- R424, R419: the append of pipe `k` is divided into matches, truncated and appended. -/
def execTokenizeAppend (k : Nat) (s : State) : Host.Outcome State Fault Refusal :=
  match s.text.pipes.find? (fun p => p.1 == k) with
  | some (_, j) =>
    let f := j.frame
    let r := tokensOf s.text.sram j.spans j.text
    let c := textReadsOf s r.2
    let t := dropJob c.1 f.sid f.qp
    guard s s.text.repair.isEmpty
      (match c.2 with
       | some w => faultSess (textUe t w f.sid) f.sid
       | none =>
         let x := getSess t f.sid
         let kept := truncateTokens x.truncHead x.truncLimit r.1
         let t := addReg (addReg (addReg t Reg.textInBytes j.text.length) Reg.textTokens r.1.length) Reg.textCutBytes j.cut
         addTokens t f kept.1 kept.2 j.cut)
  | none => .next s

/-- R419: the Supervisor rewrites the failing word from the copy of the tokenizer section. -/
def textRepair (s : State) : State :=
  match s.text.repair with
  | w :: t =>
    let bs := (List.range 8).map (fun i => s.text.copy.getD (8 * w + i) 0)
    { s with text := { s.text with repair := t, err := tabDel s.text.err w, sram := memWrite s.text.sram (8 * w) bs } }
  | [] => s
def execTextSramRepair (s : State) : Host.Outcome State Fault Refusal := guard s (!s.tap.scan) (textRepair s)

/-- R419: patrol scrub reads all of Text SRAM. The manual names no session for an uncorrectable word it meets: the
record's SID is a free value (log entry 35). -/
def execTextScrub (s : State) : Host.Outcome State Fault Refusal :=
  let singles := (s.text.err.filter (fun p => p.2 == .single)).map (·.1)
  let bads := (s.text.err.filter (fun p => p.2 != .single)).map (·.1)
  let s' := (textReads s singles).1
  let t := bads.foldl (fun s w =>
    if s.text.repair.contains w then s
    else
      let g := takeFree s
      textUe g.2 w (Config.freeNat g.1 0 % 4096)) s'
  guard s (hasText s && s.gov.ps != .p4) t

-- GENERATE (R395)

/-- A session in GENERATE whose C has reached L − 1 becomes ready for a row (R401). -/
def markReady (s : State) (sid : Nat) : State :=
  let x := getSess s sid
  if x.gen.isSome ∧ x.row.isNone ∧ x.ready.isNone ∧ x.len ≤ x.comp + 1 then
    let n := s.disp.nextReady
    setSess { s with disp := { s.disp with nextReady := n + 1 } } sid { x with ready := some n }
  else s

/-- R395: GENERATE. A session already at CTX_MAX can hold no further token: it completes with CONTEXT_FULL (DEDUCED,
log entry 36). -/
def generateFrame (s : State) (f : Frame) : State :=
  let x := getSess s f.sid
  let ctx := (theImage s).ctxMax
  let mx := if f.fld 0 4 = 0 then x.maxNew else min (f.fld 0 4) ctx
  if !ownOpen s f then doneHead s f.sid 7 []
  else if x.len = 0 then doneHead s f.sid 0xE []
  else if ctx ≤ x.len then doneHead s f.sid 4 []
  else
    let g : Gen := { frame := f, maxNew := mx, outTok := f.fld 4 1 != 0 || !textOk s }
    wakeWork (markReady (setSess s f.sid { x with gen := some g }) f.sid)
def execGenerate (sid : Nat) (s : State) : Host.Outcome State Fault Refusal :=
  match startFrame s sid 5 with
  | some f => .next (generateFrame s f)
  | none => .next s

-- CANCEL, CLOSE, QUERY (R396 to R399)

/-- The oldest at-once frame of a SID: a QUERY never waits for a CANCEL or CLOSE that waits for the step boundary
(R390). -/
def urgentFrame (s : State) (sid type : Nat) (dev : Bool) : Option Frame :=
  match (getSess s sid).urgent.find? (fun f => (f.type == 8) == (type == 8)) with
  | some f => if f.type = type ∧ (f.type ≠ 8 ∨ f.device = dev) then some f else none
  | none => none
/-- A frame leaves the at-once frames of its SID. -/
def popUrgent (s : State) (f : Frame) : State :=
  modSess s f.sid (fun x => { x with urgent := x.urgent.filter (fun g => g.no != f.no) })

/-- R396: CANCEL is taken at once, and waits for the step boundary. -/
def execCancel (sid : Nat) (s : State) : Host.Outcome State Fault Refusal :=
  match urgentFrame s sid 6 false with
  | some f =>
    let t := popUrgent s f
    .next (if !ownOpen s f then done t f 7 []
      else if (getSess s sid).faulted then done t f 0xD []
      else modSess t sid (fun x => { x with armed := x.armed ++ [f] }))
  | none => .next s

/-- R396, R397: ends a session's GENERATE with CANCELLED and its queued frames with `reason`; the state and the number
of frames completed. -/
def cancelFrames (s : State) (sid reason : Nat) : State × Nat :=
  let s1 := endGen s sid 5 0xFFFFFFFF
  let q := (getSess s1 sid).pend
  (doneList (modSess s1 sid (fun x => { x with pend := [] })) reason q, b2n (getSess s sid).gen.isSome + q.length)

/-- R396: at a step boundary, with no append in progress, the oldest CANCEL applies. -/
def execCancelApply (sid : Nat) (s : State) : Host.Outcome State Fault Refusal :=
  let x := getSess s sid
  match x.armed with
  | f :: t =>
    let c := cancelFrames (modSess s sid (fun x => { x with armed := t })) sid 5
    guard s (s.disp.step.isNone && !x.busy) (done c.1 f 0 (leBytes 4 c.2))
  | [] => .next s

/-- R397: CLOSE acts at a step boundary, after the CANCELs taken before it. -/
def execClose (sid : Nat) (s : State) : Host.Outcome State Fault Refusal :=
  let x := getSess s sid
  match urgentFrame s sid 7 false with
  | some f =>
    if !ownOpen s f then .next (done (popUrgent s f) f 7 [])
    else
      let c := cancelFrames (popUrgent s f) sid 0x11
      let y := freePages c.1 (getSess c.1 sid)
      let y := modSess y sid (fun x => { x with isOpen := false, closing := true, faulted := false, pages := [], masks := [], tokens := [], comp := 0 })
      guard s (s.disp.step.isNone && !x.busy && x.armed.isEmpty)
        (done y f 0 (leBytes 4 c.2))
  | none => .next s

/-- Table 12.10. -/
def sessState (x : Sess) : Nat := if !x.isOpen then 0 else if x.faulted then 3 else if x.gen.isSome then 2 else 1

/-- R398: QUERY of a session. -/
def execQuerySession (sid : Nat) (s : State) : Host.Outcome State Fault Refusal :=
  match urgentFrame s sid 8 false with
  | some f =>
    let x := getSess s sid
    let t := popUrgent s f
    .next (if !ownOpen s f then done t f 7 []
      else done t f 0 (leBytes 4 (sessState x) ++ leBytes 4 x.len ++ leBytes 4 x.comp ++ leBytes 4 x.pages.length ++
        leBytes 4 x.pend.length ++ leBytes 4 ((x.gen.map (·.count)).getD 0)))
  | none => .next s

/-- Pages of each group die, and the free ones (R403, R456). -/
def groupPages (s : State) : List Nat :=
  let own := (theImage s).pages
  if s.paired then (if s.roleNow then s.ldr.peerPages ++ own else own ++ s.ldr.peerPages) else own
def freeOf (s : State) (d : Nat) : List Nat :=
  let used := tabGet [] s.ldr.used d
  (List.range ((groupPages s).getD d 0)).filter (fun i => !used.contains i)
/-- DISP_FREE_PAGES (Table 12.12): the free pages of every die, or, for SPLIT, the least of them. -/
def freeTotal (s : State) : Nat :=
  let n := (List.range (groupPages s).length).map (fun d => (groupPages s).getD d 0 - (tabGet [] s.ldr.used d).length)
  if !imgReady s then 0
  else if (theImage s).split then n.foldl min (n.headD 0) else n.foldl (· + ·) 0

/-- R398: QUERY with DEVICE. -/
def execQueryDevice (sid : Nat) (s : State) : Host.Outcome State Fault Refusal :=
  match urgentFrame s sid 8 true with
  | some f =>
    let pair := if !s.paired then 0 else if s.roleNow then 2 else 1
    .next (done (popUrgent s f) f 0 (leBytes 4 (openCount s) ++ leBytes 4 (reg s Reg.sessCap) ++
      leBytes 4 (reg s Reg.rowsBusy % 1024) ++ leBytes 4 (freeTotal s) ++ leBytes 4 (reg s Reg.stepCntLo) ++ leBytes 4 pair))
  | none => .next s

end Sys2Proof.Machine
end

