-- ==== Sys2Proof/Machine/Load.lean ====
section
/-! DEFINITION. Machine/Load.lean: model images: their layout and checks, the fit, the load and its refusal, and the
unload (R435 to R458). -/

namespace Sys2Proof.Machine

/-- A little-endian field of bytes. -/
def bfld (bs : List Byte) (o n : Nat) : Nat := leNat ((bs.drop o).take n)
/-- A run of bytes. -/
def bsub (bs : List Byte) (o n : Nat) : List Byte := (bs.drop o).take n

/-- A section-table entry (Table 14.2). -/
structure Sect where
  idx : Nat
  type : Nat
  off : Nat
  len : Nat
  digest : List Byte
  deriving DecidableEq, Repr

-- BOOT_IMG_STATUS

/-- Sets STATE with the other fields, and signals the change (R451, Table 15.11). IGNORED stands until the next accepted
command (R455). -/
def setImgStatus (s : State) (v : Nat) : State :=
  let old := imgState s
  let s := setReg s Reg.imgStatus (v % 2 ^ 31 + 2 ^ 31 * b2n (regBit s Reg.imgStatus 31))
  if old = v % 8 then s else setEvt s 11
def imgIgnored (s : State) (b : Bool) : State := setField s Reg.imgStatus 31 31 (b2n b)

-- clearing (R452, R455, R498)

/-- Clears `[lo, lo + n)` of the well, with correct check bits. -/
def wellClear (s : State) (lo n : Nat) : State :=
  let s := rbForget s (entryKey true lo) n
  { s with well := memClear s.well lo n,
           wellErr := s.wellErr.filter (fun p => decide (p.1 * 32 + 32 ≤ lo ∨ lo + n ≤ p.1 * 32)),
           wellBad := s.wellBad.filter (fun b => decide (b * 32 + 32 ≤ lo ∨ lo + n ≤ b * 32)) }
/-- Clears the image and KV region of every die of the package. -/
def clearDies (s : State) (ds : List Nat) : State := ds.foldl (fun s d => wellClear s (d * 2 ^ 37) wellGeneral) s
def clearRegions (s : State) : State := clearDies s (List.range (dies s))
/-- Clears Text SRAM, which then holds no tables. -/
def clearText (s : State) : State := { s with text := { s.text with sram := [], err := [], loaded := false, repair := [] } }

/-- The Supervisor parks every thread before it writes programs (R179). -/
def parkAll (s : State) : State :=
  { s with stns := s.stns.map (fun p => (p.1, { p.2 with parkReq := true })) }

/-- R452: zeroizes the image and KV region of the dies named, Text SRAM and the content key, which float 4 reports, and
leaves no image. While a zeroize of the Security Block is under way, float 4 goes on reporting that one. -/
def removeDies (s : State) (ds : List Nat) : State :=
  let n := ds.length * wellGeneral + (if hasText s then textSize else 0)
  let own := s.sec.zero.isSome
  let s := if own then s else floatStart s 4 6 n
  let s := parkAll (clearText (hubSpend (clearDies s ds) (ds.length * wellGeneral)))
  let s := { s with ldr := { s.ldr with image := none, used := [], savedSlots := [] }, sec := { s.sec with keyGone := true },
                    disp := { s.disp with prime := .none, primeFails := 0 } }
  let s := setReg s Reg.sessCap 0
  if own then s else floatEnd s 4 true 0
/-- R455: removes the image from every die of the package. -/
def removeImage (s : State) : State := removeDies s (List.range (dies s))

/-- R452: a load, a priming or an image ends REFUSED with its reason: the dies of `wrote`, Text SRAM and the content key
are zeroized, and no image is loaded. The other package of a pair is told (R454). -/
def refuseImage (s : State) (reason idx : Nat) (id : List Byte) (wrote : List Nat) : State :=
  let s := removeDies s wrote
  let s := if (getFloat s 3).op = 4 then floatEnd s 3 false reason else s
  let s := setImgStatus s (4 + 256 * reason + 65536 * (idx % 1024))
  tellPeer (pushRec s ⟨0xC, 0, 0x50, leBytes 2 reason ++ leBytes 2 idx ++ leBytes 4 0 ++ (id ++ List.replicate 16 0).take 16⟩)

-- the file (R435 to R440)

def magicOk (bs : List Byte) : Bool :=
  bfld bs 0 4 == 0x4D4C5246 && bfld bs 4 1 == 1 && decide (bfld bs 7 1 ≤ 1) && decide (2 ≤ bfld bs 8 4) &&
  decide (bfld bs 8 4 ≤ 1024) && bfld bs 16 8 == bs.length && decide (128 ≤ bs.length)

/-- R451: the extent list. -/
def extentsOk : List (Nat × Nat) → Bool
  | [] => true
  | [e] => e.1 % 4096 == 0
  | e :: t => e.1 % 4096 == 0 && e.2 % 4096 == 0 && extentsOk t

def sectAt (bs : List Byte) (i : Nat) : Sect :=
  let e := bsub bs (128 + 80 * i) 80
  ⟨i, bfld e 0 2, bfld e 8 8, bfld e 16 8, bsub e 24 48⟩
def sections (bs : List Byte) : List Sect := (List.range (bfld bs 8 4)).map (sectAt bs)

/-- R437: the first section out of place: not after the one before, or beyond the image. -/
def badPlace (len : Nat) (lo : Nat) : List Sect → Option Nat
  | [] => none
  | s :: t => if s.off < lo ∨ len < s.off + s.len then some s.idx else badPlace len (s.off + s.len) t

/-- R438: whether the number of sections of a type is allowed. -/
def countOk (type n : Nat) : Bool :=
  if type = 1 ∨ type = 2 ∨ type = 3 ∨ type = 4 ∨ type = 9 then n == 1 else if type = 5 then decide (1 ≤ n) else if type = 8 then decide (n ≤ 1) else true

/-- R438: the first entry of a reserved type, or the entry that makes a type surplus; index 0 for a missing section. -/
def badCount (ss : List Sect) : Option Nat :=
  match ss.find? (fun s => s.type == 0 || decide (9 < s.type)) with
  | some s => some s.idx
  | none => ((List.range 10).drop 1).findSome? (fun ty =>
      let of := ss.filter (fun s => s.type == ty)
      if countOk ty of.length then none else some ((of.drop 1).head?.map (·.idx) |>.getD 0))

def sectOf (ss : List Sect) (type : Nat) : Option Sect := ss.find? (fun s => s.type == type)
def sectBytes (bs : List Byte) (s : Sect) : List Byte := bsub bs s.off s.len
/-- R440. -/
def digestOk (bs : List Byte) (s : Sect) : Bool := sha384 (sectBytes bs s) == s.digest

-- keys (R439, R441, R488, R491, R492, R513)

/-- A slot is valid when it is programmed and its revoke fuse is intact. -/
def slotKey (s : State) (k : Nat) : Option (List Byte) :=
  if s.fuses.revoked.testBit k then none else (s.fuses.slots.find? (fun p => p.1 == k)).map (·.2)
/-- R491: the owner key, where its kill fuse is intact and its SHA-384 check holds. -/
def ownerKey (s : State) : Option (List Byte) :=
  if s.fuses.killed then none else s.fuses.ownerKey.bind (fun k => if sha384 k == s.fuses.ownerCheck then some k else none)

/-- R439: the signature over the signed region. -/
def signatureOk (s : State) (bs : List Byte) (sig : List Byte) : Bool :=
  let k := bfld sig 0 2
  sig.length == 100 && decide (1 ≤ k) && decide (k ≤ 3) &&
  (match slotKey s k with
   | some pub => ecdsaVerify pub (sha384 (bs.take (128 + 80 * bfld bs 8 4))) (bsub sig 4 96)
   | none => false)

/-- The ASCII bytes "FRLM key wrap". -/
def wrapInfo : List Byte := ("FRLM key wrap".toList).map (fun c => BitVec.ofNat 8 c.toNat)

/-- R441: unwraps the content key. -/
def unwrapKey (s : State) (bs : List Byte) : Option (List Byte) :=
  match ownerKey s with
  | some ok => aesGcm (hkdf ok (bsub bs 24 16) wrapInfo 32) (bsub bs 48 12) (bs.take 48) (bsub bs 60 48)
  | none => none

/-- R488, Table 16.12: whether the lifecycle state and debug level admit a load. -/
def loadAdmitted (s : State) : Bool :=
  s.sec.lifecycle == 1 || (s.sec.lifecycle == 2 && decide (reg s Reg.dbgLevel % 4 < 2))

-- model sections (R444 to R448)

/-- R444: the CONTEXT section, or none where a field is out of its range. -/
def parseContext (s : State) (g : Nat) (c : List Byte) (im : Image) : Option Image :=
  let n := bfld c 13 1
  let v := bfld c 0 4
  let ends := (List.range 8).map (fun i => bfld c (16 + 4 * i) 4)
  let foot := (List.range 8).map (fun i => bfld c (64 + 8 * i) 8)
  let vs := bfld c 60 4
  let want := bfld c 52 4
  if c.length == 192 && decide (1 ≤ v) && decide (v ≤ 262144) && decide (1 ≤ bfld c 4 4) && decide (bfld c 4 4 ≤ 131072) &&
      bfld c 8 4 % 32 == 0 && decide (0 < bfld c 8 4) && decide (bfld c 12 1 ≤ 1) && decide (1 ≤ n) && decide (n ≤ 8) &&
      (ends.take n).all (fun t => decide (t < v)) && (ends.drop n).all (· == 0) && decide (1 ≤ bfld c 48 4) &&
      decide (1 ≤ bfld c 56 4) && decide (1 ≤ vs) && decide (ceilDiv v vs ≤ 32 * g) && (foot.drop g).all (· == 0) then
    some { im with vocab := v, ctxMax := bfld c 4 4, kvTok := bfld c 8 4, split := bfld c 12 1 == 1, sampleBase := bfld c 14 2,
                   ends := ends.take n, minPages := bfld c 48 4,
                   sessWant := if want = 0 then 1 else min want (sessLimit s), pagesPerSess := bfld c 56 4, vshard := vs, foot := foot }
  else none

/-- Row groups of a step (R400), and the bytes of a step-table buffer (R459). -/
def rowGroups (s : State) : Nat := if isT2 s then 4 else 8
def bufBytes (s : State) : Nat := 64 + 64 * 64 * rowGroups s
/-- PAGE_SHARE (R444). -/
def pageShare (im : Image) : Nat := 64 * im.kvTok

/-- R456: the group die of each die of this package. -/
def ownFoot (s : State) (im : Image) : List Nat := (List.range (dies s)).map (fun d => im.foot.getD (groupDie s d) 0)
def baseOf (foot : Nat) : Nat := ceilDiv foot 4096 * 4096
/-- The shortfall of the package, and the pages of each die. -/
def shortfall (s : State) (im : Image) : Nat :=
  let need := if im.split then im.minPages else ceilDiv im.minPages im.dies
  ((ownFoot s im).map (fun f => baseOf f + need * pageShare im - wellGeneral)).foldl (· + ·) 0
def pagesOf (s : State) (im : Image) : List Nat := (ownFoot s im).map (fun f => (wellGeneral - baseOf f) / pageShare im)

/-- The areas of the work area that the Dispatcher and the Supervisor write (R445). -/
def workAreas (s : State) (im : Image) : List (Nat × Nat) :=
  [(im.stepBase, 2 * bufBytes s), (im.ptBase, 16 * (pagesOf s im).foldl max 0),
   (im.maskBase, 64 * rowGroups s * ceilDiv im.vshard 8), (im.modeBase, im.entries.length)]

/-- R445: the SCHEDULE section. -/
def parseSchedule (s : State) (c : List Byte) (im : Image) : Option Image :=
  let n := bfld c 0 4
  let im := { im with workBytes := bfld c 4 4, stepBase := bfld c 8 4, ptBase := bfld c 12 4, maskBase := bfld c 16 4,
                      modeBase := bfld c 20 4, stepEvt := bfld c 24 1, doneEvt := bfld c 25 1,
                      entries := (List.range (min n 255)).map (fun i => (bfld c (64 + 16 * i) 4, bfld c (68 + 16 * i) 4)) }
  let areas := workAreas s im
  if decide (1 ≤ n) && decide (n ≤ 255) && c.length == 64 + 16 * n && decide (im.workBytes ≤ 5095424) &&
      areas.all (fun a => decide (a.1 + a.2 ≤ im.workBytes)) && apart areas &&
      decide (16 ≤ im.stepEvt) && decide (im.stepEvt < 32) && decide (im.doneEvt < 32) then some im
  else none

/-- R457: the layer modes (0 DOUBLE, 1 HALF, 2 SINGLE, 3 STREAM). -/
def cistAvail (s : State) (im : Image) : Nat :=
  let per := 5226496 - im.workBytes
  let us := (List.range (dies s)).map (fun d => dieCount s d * per)
  us.foldl min (us.headD 0)
def layerMode (u : Nat) (e n : Nat × Nat) : Nat :=
  if e.1 + e.2 + n.1 + n.2 ≤ u then 0 else if e.1 + e.2 ≤ u ∧ e.2 + n.1 ≤ u then 1 else if max e.1 e.2 ≤ u then 2 else 3
def layerModes (s : State) (im : Image) : List Nat :=
  let u := cistAvail s im
  im.entries.mapIdx (fun i e => layerMode u e (im.entries.getD ((i + 1) % im.entries.length) (0, 0)))

/-- R456: the pool of the group, from this package's pages and the peer's. -/
def poolOf (im : Image) (pages : List Nat) : Nat :=
  if im.split then pages.foldl min (pages.headD 0) else pages.foldl (· + ·) 0
/-- R458. -/
def capOf (im : Image) (pool : Nat) : Nat := min im.sessWant (max 1 (pool / im.pagesPerSess))

/-- R447: parses `n` blobs. -/
def parseBlobs : Nat → List Byte → Option (List (List Nat) × List Byte)
  | 0, bs => some ([], bs)
  | n + 1, bs =>
    let k := bfld bs 0 4
    if bs.length < 4 + 4 * k ∨ k = 0 ∨ 16384 < k then none
    else
      let ws := (List.range k).map (fun i => bfld bs (4 + 4 * i) 4)
      (parseBlobs n (bs.drop (4 + 4 * k))).map (fun r => (ws :: r.1, r.2))

/-- R447: the PROGRAMS section. -/
def parsePrograms (c : List Byte) (im : Image) : Option Image :=
  if c.length < 4 ∨ c.length < bfld c 0 4 then none
  else
    match parseBlobs (bfld c 0 4) (c.drop 4) with
    | none => none
    | some (blobs, rest) =>
      let recs := (List.range (32 * im.dies)).map (fun w =>
        let e := bsub rest (10 * w) 10
        ({ blob := bfld e 0 2, pcs := (List.range 4).map (fun t => bfld e (2 + 2 * t) 2) } : ProgRec))
      let ok (r : ProgRec) : Bool := decide (r.blob < blobs.length) &&
        r.pcs.all (fun pc => pc == 0xFFFF || decide (pc < (blobs.getD r.blob []).length))
      if rest.length == 320 * im.dies && recs.all ok then some { im with blobs := blobs, progs := recs } else none

/-- R448: the STATION_INIT section. -/
def parseInit (c : List Byte) (im : Image) : Option Image :=
  let n := bfld c 0 4
  if c.length < 4 ∨ c.length ≠ 4 + 1216 * n + 64 * im.dies then none
  else
    let recs := (List.range n).map (fun k =>
      let r := bsub c (4 + 1216 * k) 1216
      ({ psets := (List.range 16).map (fun p => (List.range 11).map (fun f => bfld r (44 * p + 4 * f) 4)),
         slots := (List.range 64).map (fun q => (List.range 5).map (fun f => bfld r (704 + 8 * q + f) 1)) } : InitRec))
    let map := (List.range (32 * im.dies)).map (fun w => bfld c (4 + 1216 * n + 2 * w) 2)
    if map.all (fun i => decide (i < n)) then some { im with inits := recs, initMap := map } else none

-- chunks (R442, R443)

/-- A chunk that has been checked: die, offset and data. -/
structure Chunk where
  die : Nat
  off : Nat
  data : List Byte
  deriving DecidableEq, Repr

/-- R442, R452: takes the chunks of one section, numbering the encrypted ones from `serial`; or the reason of the refusal
with the chunks taken before it. `stop` is the byte, counted from here, whose read fails. -/
def parseChunks (im : Image) (nonce : List Byte) (weights : Bool) : Nat → Nat → Option Nat → List Byte → List Chunk →
    Except (Nat × List Chunk) (List Chunk × Nat)
  | 0, serial, _, bs, acc => if bs.isEmpty then .ok (acc, serial) else .error (6, acc)
  | fuel + 1, serial, stop, bs, acc =>
    if bs.isEmpty then .ok (acc, serial)
    else
      let hd := bs.take 32
      let enc := (bfld hd 1 1).testBit 0
      let len := bfld hd 4 4
      let off := bfld hd 8 8
      let die := bfld hd 0 1
      let size := 32 + len + (if enc then 16 else 0)
      let body := bsub bs 32 (len + (if enc then 16 else 0))
      let fails (n : Nat) : Bool := match stop with | some k => decide (k < n) | none => false
      if fails 32 then .error (0xB, acc)
      else if bs.length < size ∨ (weights ∧ !enc) ∨ im.dies ≤ die ∨ len % 32 ≠ 0 ∨ off % 32 ≠ 0 ∨ len = 0 ∨ 2 ^ 24 < len ∨
          im.foot.getD die 0 < off + len ∨ acc.any (fun c => c.die == die && rangesMeet (c.off, c.data.length) (off, len)) then .error (6, acc)
      else if fails size then .error (0xB, acc)
      else
        match if enc then aesGcm im.key (nonce ++ leBytes 8 serial) hd body else some body with
        | some d => parseChunks im nonce weights fuel (if enc then serial + 1 else serial) (stop.map (· - size)) (bs.drop size)
            (acc ++ [⟨die, off, d⟩])
        | none => .error (6, acc)

/-- Whether the byte of the image whose read fails lies in `[off, off + n)`. -/
def readFails (bad : Option Nat) (off n : Nat) : Bool := match bad with | some k => decide (off ≤ k ∧ k < off + n) | none => false

/-- A refusal of steps 2 to 5 (R452): its reason and section index, the image bytes verified before it (R453), whether the
fit check has run, and the chunks taken, where step 5 had begun. -/
structure LoadErr where
  reason : Nat
  idx : Nat := 0
  seen : Nat := 0
  fit : Bool := false
  chunks : List Chunk := []
  deriving DecidableEq, Repr

/-- Takes the chunks of every placed section, in section-table order, checking each section's digest once it has been
read (R440). `seen` counts the image bytes verified before them. -/
def allChunks (im : Image) (bs : List Byte) (bad : Option Nat) : Nat → Nat → List Chunk → List Sect → Except LoadErr (List Chunk)
  | _, _, acc, [] => .ok acc
  | seen, serial, acc, x :: t =>
    if x.type = 5 ∨ x.type = 6 ∨ x.type = 7 then
      match parseChunks im (bsub bs 40 4) (x.type == 5) (x.len / 64 + 1) serial
          (bad.bind (fun k => if readFails bad x.off x.len then some (k - x.off) else none)) (sectBytes bs x) acc with
      | .ok r =>
        if digestOk bs x then allChunks im bs bad (seen + x.len) r.2 r.1 t
        else .error { reason := 4, idx := x.idx, seen := seen, fit := true, chunks := r.1 }
      | .error e => .error { reason := e.1, idx := x.idx, seen := seen, fit := true, chunks := e.2 }
    else allChunks im bs bad seen serial acc t

/-- The chunks of this package's dies (R454), each with its well address. -/
def ownChunks (s : State) (cs : List Chunk) : List (Nat × List Byte) :=
  cs.filterMap (fun c => ((List.range (dies s)).find? (fun d => groupDie s d == c.die)).map (fun d => (d * 2 ^ 37 + c.off, c.data)))
/-- How many bytes they hold. -/
def ownBytes (s : State) (cs : List Chunk) : Nat := ((ownChunks s cs).map (fun c => c.2.length)).foldl (· + ·) 0

/-- Writes the chunks of this package's dies into the image region, whose other bytes below FOOT are zero (R443). -/
def writeChunks (s : State) (cs : List Chunk) : State :=
  (ownChunks s cs).foldl (fun s c => { s with well := memWrite s.well c.1 c.2 }) (hubSpend (clearRegions s) (ownBytes s cs))

/-- The dies of this package that chunks are written to (R454). -/
def chunkDies (s : State) (cs : List Chunk) : List Nat :=
  (List.range (dies s)).filter (fun d => cs.any (fun c => groupDie s d == c.die))

/-- What a load that passes every check leaves to be installed. -/
structure Loaded where
  im : Image
  chunks : List Chunk
  text : Option (List Byte)

/-- Reads a section and checks its digest: the reason of a refusal, or none. -/
def readSect (bs : List Byte) (bad : Option Nat) (x : Sect) : Option Nat :=
  if readFails bad x.off x.len then some 0xB else if digestOk bs x then none else some 4

/-- Steps 2 to 4 of the load procedure (R452): the image as far as the fit check, with the bytes verified, or the
refusal. `bad` is the byte of the image whose read fails. -/
def checkModel (s : State) (bs : List Byte) (bad : Option Nat) : Except LoadErr (Image × Nat) :=
  let ss := sections bs
  let at_ (ty : Nat) : Sect := (sectOf ss ty).getD ⟨0, 0, 0, 0, []⟩
  let sec (ty : Nat) : List Byte := sectBytes bs (at_ ty)
  let im : Image := { id := bsub bs 24 16, dies := bfld bs 6 1, cls := bfld bs 7 1 }
  let ends : Nat := 128 + 80 * bfld bs 8 4
  if readFails bad 0 ends then .error { reason := 0xB }
  else if !magicOk bs then .error { reason := 1 }
  else if im.dies ≠ groupDies s then .error { reason := 2 }
  else match badPlace bs.length ends ss with
  | some i => .error { reason := 7, idx := i }
  | none => match badCount ss with
  | some i => .error { reason := 7, idx := i }
  | none =>
    if readFails bad (at_ 9).off (at_ 9).len then .error { reason := 0xB, idx := (at_ 9).idx }
    else if !signatureOk s bs (sec 9) then .error { reason := 3, idx := (at_ 9).idx }
    else
      let n := ends + (at_ 9).len
      match unwrapKey s bs with
      | none => .error { reason := 5, seen := n }
      | some key => match readSect bs bad (at_ 1) with
        | some r => .error { reason := r, idx := (at_ 1).idx, seen := n }
        | none =>
          let n := n + (at_ 1).len
          match parseContext s im.dies (sec 1) { im with key := key } with
          | none => .error { reason := 7, idx := (at_ 1).idx, seen := n }
          | some im => match readSect bs bad (at_ 2) with
            | some r => .error { reason := r, idx := (at_ 2).idx, seen := n }
            | none =>
              let n := n + (at_ 2).len
              match parseSchedule s (sec 2) im with
              | none => .error { reason := 9, idx := (at_ 2).idx, seen := n }
              | some im => if shortfall s im ≠ 0 then .error { reason := 0xA, idx := (at_ 1).idx, seen := n, fit := true } else .ok (im, n)

/-- Step 5 of the load procedure (R452), once steps 2 to 4 have verified `n` bytes. -/
def checkRest (s : State) (bs : List Byte) (bad : Option Nat) (im : Image) (n : Nat) : Except LoadErr Loaded :=
  let ss := sections bs
  let at_ (ty : Nat) : Sect := (sectOf ss ty).getD ⟨0, 0, 0, 0, []⟩
  let sec (ty : Nat) : List Byte := sectBytes bs (at_ ty)
  let fail (r ty n : Nat) : Except LoadErr Loaded := .error { reason := r, idx := (at_ ty).idx, seen := n, fit := true }
  let text := (sectOf ss 8).map (sectBytes bs)
  match (sectOf ss 8).bind (readSect bs bad) with
  | some r => fail r 8 n
  | none =>
    let n := n + (text.map (·.length)).getD 0
    if hasText s && (match text with | some t => !textTablesOk t im.vocab | none => false) then fail 8 8 n
    else match readSect bs bad (at_ 3) with
    | some r => fail r 3 n
    | none =>
      let n := n + (at_ 3).len
      match parsePrograms (sec 3) im with
      | none => fail 7 3 n
      | some im => match readSect bs bad (at_ 4) with
        | some r => fail r 4 n
        | none =>
          let n := n + (at_ 4).len
          match parseInit (sec 4) im with
          | none => fail 7 4 n
          | some im => match allChunks im bs bad n 0 [] ss with
            | .error e => .error e
            | .ok cs => .ok ⟨im, cs, if hasText s then text else none⟩

/-- Steps 2 to 5 of the load procedure (R452). -/
def checkImage (s : State) (bs : List Byte) (bad : Option Nat) : Except LoadErr Loaded :=
  match checkModel s bs bad with
  | .error e => .error e
  | .ok m => checkRest s bs bad m.1 m.2

/-- Counts the entries of a mode (BOOT_IMG_MODES). -/
def modeCount (ms : List Nat) (k : Nat) : Nat := (ms.filter (· == k)).length

/-- Writes BOOT_IMG_MODES and BOOT_IMG_POOL (R456, R457). -/
def fitRegs (s : State) (modes : List Nat) (pool : Nat) : State :=
  setReg (setReg s Reg.imgPool pool) Reg.imgModes
    (modeCount modes 0 + 2 ^ 8 * modeCount modes 1 + 2 ^ 16 * modeCount modes 2 + 2 ^ 24 * modeCount modes 3)
/-- What the fit check leaves in the load registers (R456, R457), of a load that a later step or its own shortfall
refuses. -/
def fitCheck (s : State) (bs : List Byte) : State :=
  let sec (ty : Nat) : List Byte := sectBytes bs ((sectOf (sections bs) ty).getD ⟨0, 0, 0, 0, []⟩)
  match (parseContext s (bfld bs 6 1) (sec 1) { dies := bfld bs 6 1 }).bind (parseSchedule s (sec 2)) with
  | some im =>
    let n := shortfall s im
    let s := setReg (setReg s Reg.imgShortLo (n % 2 ^ 32)) Reg.imgShortHi (n / 2 ^ 32)
    if n = 0 then fitRegs s (layerModes s im) (poolOf im (pagesOf s im ++ (if s.paired then s.ldr.peerPages else []))) else s
  | none => s

/-- R456, R458: the pool and the cap from the pages of both packages of a pair, which the primary forms while the image
is primed and once it is READY. -/
def pairFit (s : State) : State :=
  let im := theImage s
  let pool := poolOf im (groupPages s)
  let st := imgState s
  if st = 2 ∨ st = 3 then
    let s := setField (setReg s Reg.imgPool pool) Reg.imgStatus 4 4 (b2n (decide (capOf im pool < im.sessWant)))
    if st = 3 then setReg s Reg.sessCap (capOf im pool) else s
  else s

/-- R449: the copy of the tokenizer section in the well system area, whose place the manual does not give (log entry
67). -/
def sysAddr (k n : Nat) : Nat := wellGeneral + Config.sysPlace k % (wellEnd - wellGeneral - n)

/-- Writes the tokenizer section to Text SRAM, and its copy (R415, R449). -/
def installText (s : State) (t : List Byte) : State :=
  let a := sysAddr 0 textSize
  hubSpend { s with text := { s.text with sram := memWrite [] 0 t, err := [], loaded := true, copy := t, repair := [] },
                    well := memWrite s.well a t } t.length

/-- Installs what a load has checked, and leaves the image to be primed. -/
def installImage (s : State) (bs : List Byte) (l : Loaded) : State :=
  let im := { l.im with pages := pagesOf s l.im, base := (ownFoot s l.im).map baseOf, modes := layerModes s l.im }
  let s := writeChunks s l.chunks
  let s := match l.text with
    | some t => installText s t
    | none => s
  let s := { s with ldr := { s.ldr with image := some im, used := [] }, sec := { s.sec with keyGone := false },
                    disp := { s.disp with prime := .due .load, primeFails := 0 } }
  let pool := poolOf im (groupPages s)
  let s := floatPos (fitRegs s im.modes pool) 3 bs.length
  tellPeer (parkAll (setImgStatus s (2 + 8 * im.cls + 16 * b2n (decide (capOf im pool < im.sessWant)))))

/-- Whether the Supervisor takes load commands: READY, and no zeroize (R455, R499, R568). -/
def loaderUp (s : State) : Bool := reg s Reg.bootStatus % 16 == 7 && s.sec.zero.isNone && !s.tap.scan

/-- R455: a LOAD request is accepted or ignored; an accepted one first unloads any image. -/
def loadRequest (s : State) : State :=
  let st := imgState s
  if !loaderUp s ∨ st = 1 ∨ st = 2 ∨ (st = 3 ∧ openCount s ≠ 0) then imgIgnored s true
  else
    let s := if st = 3 then removeImage s else s
    imgIgnored (setImgStatus (floatStart s 3 4 0) 1) false

/-- R453: FLOAT_END once the header is verified: IMAGE_LEN and the priming bytes, whose number has no stated computation:
a free value (log entry 37). -/
def loadEnd (s : State) (bs : List Byte) : State :=
  let g := takeFree s
  if magicOk bs then floatFin g.2 3 (bs.length + Config.freeNat g.1 0 % 2 ^ 40) else s

/-- Whether steps 2 to 5 on an image's bytes write to the well: the first span of that traffic needs leave (R350). -/
def loadWrites (s : State) (bs : List Byte) (bad : Option Nat) : Nat :=
  match checkImage s bs bad with
  | .ok l => ownBytes s l.chunks
  | .error e => ownBytes s e.chunks

/-- Steps 2 to 6 of R452 on the image's bytes, as its extents give them; `bad` is the first byte of it whose read ends in
a PCIe error. -/
def runLoad (s : State) (extents : List (Nat × Nat)) (bytes : Option (List Byte)) (bad : Option Nat) : State :=
  if !loadAdmitted s then refuseImage s 0xC 0 [] []
  else match bytes with
  | none => refuseImage s 0xB 0 [] []
  | some bs =>
    if !extentsOk extents then refuseImage s 0xB 0 [] []
    else
      let s := loadEnd s bs
      match checkImage s bs bad with
      | .error e =>
        let s := floatPos (if e.fit then fitCheck s bs else s) 3 e.seen
        refuseImage (hubSpend s (ownBytes s e.chunks)) e.reason e.idx (bsub bs 24 16) (chunkDies s e.chunks)
      | .ok l => installImage (setReg (setReg s Reg.imgShortLo 0) Reg.imgShortHi 0) bs l

/-- R451, R452: a LOAD request is made, unless one was accepted already, and the load runs on what the device reads of the
host's memory: the extents, and the image's bytes, or none where the read of the list fails. -/
def execLoad (extents : List (Nat × Nat)) (image : ImageRead) (s : State) : Host.Outcome State Fault Refusal :=
  let s' := if imgState s = 1 then s else loadRequest s
  let lenOk := match image.bytes with
    | some bs => bs.length == (extents.map (·.2)).foldl (· + ·) 0
    | none => true
  let ready := granting s.gov.ps && hubReady s' ((image.bytes.map (fun bs => loadWrites s' bs image.badAt)).getD 0)
  withOperand (extents.length == reg s Reg.imgListCnt && lenOk)
    (.next (if imgState s' = 1 ∧ ready then runLoad s' extents image.bytes image.badAt else s'))

/-- What a load that is stopped in STATE `st` has written: every die, once it primes. -/
def imageDies (s : State) (st : Nat) : List Nat := if st = 2 then List.range (dies s) else []

/-- R455: UNLOAD. A zeroize of the Security Block refuses it in READY (R499). -/
def unloadRequest (s : State) : State :=
  let st := imgState s
  if reg s Reg.bootStatus % 16 ≠ 7 || s.tap.scan then imgIgnored s true
  else if st = 1 ∨ st = 2 then refuseImage (imgIgnored s false) 0xD 0 (theImage s).id (imageDies s st)
  else if s.sec.zero.isSome then imgIgnored s true
  else if st = 3 then
    (if openCount s ≠ 0 then imgIgnored s true else imgIgnored (tellPeer (setImgStatus (removeImage s) 0)) false)
  else imgIgnored s false
def execUnload (s : State) : Host.Outcome State Fault Refusal := .next (unloadRequest s)

/-- R454: the peer package's state and IMAGE_ID arrive over Extium link 0, with the pages of its dies (R456, R458). -/
def execPeerImageId (ready : Bool) (id : List Byte) (pages : List Nat) (s : State) : Host.Outcome State Fault Refusal :=
  let t := { s with ldr := { s.ldr with peer := if ready then some id else none, peerPages := pages } }
  withOperand (id.length == 16 && pages.length == 4) (guard s s.paired (if s.roleNow then t else pairFit t))

/-- PEER_OK (R454). -/
def peerOk (s : State) : Bool :=
  s.paired && imgReady s && (match s.ldr.peer with | some id => id == (theImage s).id | none => false)

end Sys2Proof.Machine
end

