-- ==== Sys2Proof/Machine/Steps.lean ====
section
/-! DEFINITION. Machine/Steps.lean: priming, and the model step: building it, its completion, its output, and its faults
(R400 to R411, R428 to R432, R459 to R463). -/

namespace Sys2Proof.Machine

/-- The work units of this package that have a host. -/
def liveUnits (s : State) : List Nat := (List.range (32 * dies s)).filter (fun u => (hostOf s u).isSome)
/-- The group's number of a unit of this package, and this package's unit of a group number. -/
def groupUnit (s : State) (u : Nat) : Nat := if s.paired then 128 * role s + u else u
def ownUnit (s : State) (w : Nat) : Option Nat :=
  let lo := if s.paired then 128 * role s else 0
  if lo ≤ w ∧ w < lo + 32 * dies s then some (w - lo) else none

/-- The hub writes a unit's cistern slice (R578 covers units that are not resident). -/
def hubWrite (s : State) (u a : Nat) (bs : List Byte) : State := (cistWrite s u a bs).1
/-- Address of the step-table buffer of a step (R459). -/
def bufAddr (s : State) (no : Nat) : Nat := (theImage s).stepBase + no % 2 * bufBytes s
/-- R311: what the hub sends to and takes from the stations goes over the spokes, all of which must be UP. -/
def spokesUp (s : State) : Bool := (List.range (dies s)).all (fun d => linkUp s d)
/-- The hub reads a word of a unit's cistern slice under its error code (R114). Table 15.8 names no access code for the
hub: it reads as a landing writes (log entry 68). -/
def hubRead (s : State) (u a : Nat) : State × Option Nat :=
  let r := cistRead s u a 4 3
  (r.1, r.2.map leNat)
/-- REPORT of a unit's buffer (Table 14.11), where its word can be read. -/
def reportAt (s : State) (no : Nat) : Nat := bufAddr s no + 12
def reportOf (s : State) (u no : Nat) : Option Nat := (hubRead s u (reportAt s no)).2
/-- The Dispatcher reads the REPORT of every unit's buffer: what the reads count and report. -/
def readReports (s : State) (us : List Nat) (no : Nat) : State := us.foldl (fun s u => (hubRead s u (reportAt s no)).1) s
/-- DONE_EVT of a unit. -/
def doneOf (s : State) (u : Nat) : Word := evGet (stn s u) (theImage s).doneEvt

-- priming (R462, R463)

/-- R448: a parameter set and a slot as the image's record gives them. -/
def psetOfRec (vs : List Nat) : PSet := (List.range 11).foldl (fun p f => (psetField p f (vs.getD f 0)).getD p) {}
def slotOfRec (vs : List Nat) : Slot := (List.range 5).foldl (fun sl f => slotWrite sl f (slotClamp f (vs.getD f 0))) {}

/-- R462 steps 1 and 2 for one unit. `saved` are the slots of a P3 exit (R371). -/
def primeUnit (s : State) (im : Image) (u : Nat) (saved : Option (Tab Slot)) : State :=
  let w := groupUnit s u
  let pr := im.progs.getD w {}
  let ir := im.inits.getD (im.initMap.getD w 0) {}
  let ps := (ir.psets.mapIdx (fun k v => (k, psetOfRec v))).foldl (fun t p => tabSet {} t p.1 p.2) []
  let sl := match saved with
    | some t => t
    | none => (ir.slots.mapIdx (fun k v => (k, slotOfRec v))).foldl (fun t p => tabPut t p.1 p.2) []
  let blob := im.blobs.getD pr.blob []
  let s := modStn s u (fun x =>
    let x := pmFlush { x with pmHeld := x.pmHeld ++ blob.mapIdx (fun k v => (k, BitVec.ofNat 32 v)) }
    let x := { x with psets := ps, slots := sl, slotSnap := sl, slotPend := [], ev := [] }
    resumeAll x (pr.pcs.map (fun pc => if pc = 0xFFFF then 0 else pc + 2)))
  let s := hubWrite s u im.modeBase (im.modes.map (BitVec.ofNat 8))
  hubWrite s u im.stepBase (List.replicate (2 * bufBytes s) 0)

/-- R462: the stations stand still before their programs are written. -/
def allParked (s : State) : Bool := (liveUnits s).all (fun u => allStopped (stn s u) && (stn s u).pipe.isEmpty && !(stn s u).inReset)

/-- R462: the Supervisor installs every station's state and resumes its threads, after an exit from P3 Standby once a
held pair's Extium Links have retrained (R341). Outside a load, the priming bytes are a free value (log entry 37). -/
def execPrimingStart (s : State) : Host.Outcome State Fault Refusal :=
  match s.disp.prime, s.ldr.image with
  | .due what, some im =>
    let s1 := (liveUnits s).foldl (fun s u =>
      primeUnit s im u (if what = .p3 then s.ldr.savedSlots.find? (fun p => p.1 == u) |>.map (·.2) else none)) s
    let g := takeFree s1
    let s2 := if what = .load then s1 else floatStart g.2 3 5 (Config.freeNat g.1 0 % 2 ^ 40)
    guard s (allParked s && granting s.gov.ps && s.sec.zero.isNone && !s.tap.scan && spokesUp s && !s.held)
      { s2 with disp := { s2.disp with prime := .running what, faultSeen := false } }
  | _, _ => .next s

/-- Every unit's DONE_EVT has risen since priming cleared it. -/
def primed (s : State) : Bool := (liveUnits s).all (fun u => doneOf s u != 0)
/-- A station has written REPORT 1 in a priming (R463). -/
def primeReport (s : State) : Bool := (liveUnits s).any (fun u => reportOf s u 0 == some 1 || reportOf s u 1 == some 1)
/-- The Dispatcher's reads of every REPORT after a priming. -/
def primeReads (s : State) : State := readReports (readReports s (liveUnits s) 0) (liveUnits s) 1

/-- R462: priming ends. After a load the image reaches READY, and the session cap takes its value (R458); after an exit
from P3 Standby the exit is complete (R370). A REPORT that cannot be read is a cause of R409. -/
def execPrimingComplete (s : State) : Host.Outcome State Fault Refusal :=
  match s.disp.prime with
  | .running what =>
    let r := primeReads s
    let t := floatEnd { r with disp := { r.disp with prime := .none, primeFails := 0 } } 3 true 0
    let t := if what = .load then tellPeer (pairFit (setImgStatus t (reg s Reg.imgStatus % 2 ^ 31 / 8 * 8 + 3))) else t
    guard s (primed s && !s.disp.faultSeen && !primeReport s && !s.tap.scan && spokesUp s)
      (if r.disp.faultSeen then r else retarget t)
  | _ => .next s

/-- A station reset of every logical station (R410, R462). -/
def resetAll (s : State) : State :=
  (List.range (stationsEnabled s)).foldl (fun s ls => if (unitsOf s ls).any (fun u => (stn s u).inReset) then s else beginReset s ls) s

/-- R463: a priming fails: a load is refused; otherwise it is tried again, up to two times, and then the image is
removed. -/
def primeFail (s : State) (what : PrimeOf) (res : Nat) : State :=
  let id := (theImage s).id
  if what = .load then refuseImage s 0xE 0 id (List.range (dies s))
  else
    let s := floatEnd s 3 false res
    let n := s.disp.primeFails + 1
    if 3 ≤ n then refuseImage (faultAll s) 0xE 0 id (List.range (dies s))
    else resetAll { s with disp := { s.disp with prime := .due what, primeFails := n } }

/-- Bits of the logical stations with a unit that `f` selects (Table 15.8). -/
def stationBits (s : State) (f : Nat → Bool) : Nat := maskOf (((liveUnits s).filter f).map (lstn s)).eraseDups
/-- R409, R463: the record of a timeout. -/
def timeoutRec (s : State) (no : Nat) (f : Nat → Bool) : State :=
  pushRec s ⟨7, 0, 0x30, leBytes 8 no ++ leBytes 16 (stationBits s f)⟩
/-- Time that the watchdog does not count (R364, R409). -/
def wdogPaused (s : State) : Bool := s.gov.stretch || s.gov.thermStop

/-- R463: a priming fails: a cause of R409 was reported or a station wrote REPORT 1, or it has not ended in time. -/
def execPrimingTimeout (s : State) : Host.Outcome State Fault Refusal :=
  match s.disp.prime with
  | .running what =>
    if s.disp.faultSeen || primeReport s then .next (retarget (primeFail (if primeReport s then primeReads s else s) what 1))
    else guard s (!wdogPaused s && !s.tap.scan)
      (retarget (primeFail (timeoutRec s (2 ^ 64 - 1) (fun u => doneOf s u == 0)) what 2))
  | _ => .next s

-- the draw (R406)

def rotl32 (v n : Nat) : Nat := (v * 2 ^ n % 2 ^ 32) ||| (v / 2 ^ (32 - n))
/-- One round. -/
def drawRound (k : List Nat) (w : Nat × Nat × Nat × Nat) (r : Nat) : Nat × Nat × Nat × Nat :=
  let m := 2 ^ 32
  let a := (w.1 + (k.getD (r % 4) 0 ^^^ w.2.1)) % m
  let d := rotl32 (w.2.2.2 ^^^ a) 11
  let c := (w.2.2.1 + d * 0x9E6C63D1) % m
  let b := (rotl32 (w.2.1 ^^^ c) 7 + r) % m
  (b, c, d, a)
/-- R406: the draw of a seed at a position, as an FP32 code: y / 2^24, exact. -/
def draw (seed pos : Nat) : Nat :=
  let lo := seed % 2 ^ 32
  let hi := seed / 2 ^ 32 % 2 ^ 32
  let k := [lo, hi, lo ^^^ 0x6D2B79F5, hi ^^^ 0xB5297A4D]
  let w := (List.range 12).foldl (drawRound k) (pos % 2 ^ 32, 0, 0, 0)
  let y := ((w.1 ^^^ k.getD 0 0) + rotl32 (w.2.2.1 ^^^ k.getD 2 0) 5) % 2 ^ 32 / 256
  if y = 0 then 0
  else
    let e := Nat.log2 y
    (e + 103) * 2 ^ 23 + (y * 2 ^ (23 - e) - 2 ^ 23)

-- building a step (R400 to R403)

/-- R403: allocates the page of a session's position, if it is not held; none where its die has none free. Which free
page is taken is not stated: a free choice (log entry 38). -/
def allocPage (s : State) (sid p : Nat) : Option State :=
  let x := getSess s sid
  if p < x.pages.length then some s
  else
    let n := (groupPages s).length
    let ds := if (theImage s).split then List.range n else [p % n]
    if ds.any (fun d => (freeOf s d).isEmpty) then none
    else
      let g := takeFree s
      let pick (d : Nat) : Nat := (freeOf s d).getD (Config.freeNat g.1 d % (freeOf s d).length) 0
      let page := ds.map (fun d => (d, pick d))
      let used := page.foldl (fun t q => tabPut t q.1 (tabGet [] t q.1 ++ [q.2])) s.ldr.used
      some (setSess { g.2 with ldr := { g.2.ldr with used := used } } sid { x with pages := x.pages ++ [page] })

/-- R402: a session's row is held idle in this step. -/
def skips (s : State) (x : Sess) : Bool :=
  let q := getQp s x.qp
  !qpLive q || decide (cqFree q < 2) || x.outq.any (fun i => i.type != 3)

/-- What a step under construction holds: the state, its rows, and whether a GENERATE ended with NO_PAGES. -/
abbrev Build := State × List RowRec × Bool

/-- The decode row of a session at row `r` (R400, R403). -/
def decodeRow (b : Build) (sid r : Nat) : Build :=
  let x := getSess b.1 sid
  let rec' (skip : Bool) : RowRec := ⟨r, sid, x.inc, 2, skip, x.len - 1, x.tokens.getD (x.len - 1) 0⟩
  if skips b.1 x then (b.1, b.2.1 ++ [rec' true], b.2.2)
  else
    match allocPage b.1 sid ((x.len - 1) / 64) with
    | some s => (s, b.2.1 ++ [rec' false], b.2.2)
    | none => (endGen b.1 sid 0xC 0xFFFFFFFF, b.2.1, true)

/-- Sessions that steps can serve. -/
def servable (x : Sess) : Bool := x.isOpen && !x.faulted
/-- R401 step 1: the sessions that keep their rows. -/
def keepers (s : State) : List (Nat × Nat) :=
  s.sess.filterMap (fun p => match p.2.row with
    | some r => if servable p.2 && p.2.gen.isSome then some (p.1, r) else none
    | none => none)
/-- R401 step 2: the sessions that wait for a row, in the order in which they became ready. -/
def insertReady (a : Nat × Nat) : List (Nat × Nat) → List (Nat × Nat)
  | [] => [a]
  | b :: t => if a.2 < b.2 then a :: b :: t else b :: insertReady a t
def joiners (s : State) : List Nat :=
  ((s.sess.filterMap (fun p => match p.2.ready with
    | some n => if servable p.2 && p.2.gen.isSome && p.2.row.isNone then some (p.1, n) else none
    | none => none)).foldl (fun l a => insertReady a l) []).map (·.1)

/-- The rows in use, as sessions hold them. -/
def rowsUsed (s : State) : List Nat := (keepers s).map (·.2)
/-- A session joins at the lowest free row while the rows used stay within the bound (R401 step 2, R412). -/
def joinRow (cap : Nat) (b : Build) (sid : Nat) : Build :=
  let used := rowsUsed b.1
  if cap ≤ used.length then b
  else
    match (List.range (rowLimit b.1)).find? (fun r => !used.contains r) with
    | some r => decodeRow (modSess b.1 sid (fun x => { x with row := some r, ready := none }), b.2) sid r
    | none => b

/-- R401 step 3: the sessions with prefill work, round robin from after the one served last. -/
def prefillers (s : State) (rows : List RowRec) : List Nat :=
  let ids := s.sess.filterMap (fun p =>
    let x := p.2
    if servable x && qpLive (getQp s x.qp) && !(rows.any (fun r => r.sid == p.1)) &&
        (decide (x.comp + 1 < x.len) || (decide (x.comp < x.len) && x.gen.isNone)) then some p.1 else none)
  match s.disp.lastPrefill with
  | some k => ids.filter (fun i => decide (k < i)) ++ ids.filter (fun i => decide (i ≤ k))
  | none => ids

/-- One prefill chunk in row group `g` (R400, R403). -/
def chunkRows (s : State) (sid g : Nat) : List RowRec :=
  let x := getSess s sid
  let hi := min (x.len - 1) (64 * (x.comp / 64) + 63)
  (List.range (hi + 1 - x.comp)).map (fun i => ⟨64 * g + i, sid, x.inc, 1, false, x.comp + i, x.tokens.getD (x.comp + i) 0⟩)

/-- Gives the remaining row groups their chunks. -/
def prefill (b : Build) : List Nat → List Nat → Build
  | [], _ => b
  | _, [] => b
  | g :: gs, sid :: t =>
    let x := getSess b.1 sid
    match allocPage b.1 sid (x.comp / 64) with
    | some s => prefill ({ s with disp := { s.disp with lastPrefill := some sid } }, b.2.1 ++ chunkRows s sid g, b.2.2) gs t
    | none =>
      if x.gen.isSome then prefill (endGen b.1 sid 0xC 0xFFFFFFFF, b.2.1, true) (g :: gs) t
      else prefill b (g :: gs) t

/-- R401: builds the next step. -/
def buildStep (s : State) : Build :=
  let r := rowGroups s
  let cap := 64 * (r - bits (reg s Reg.dispCtl) 3 1)
  let b := (keepers s).foldl (fun b p => decodeRow b p.1 p.2) (s, [], false)
  let b := (joiners s).foldl (joinRow cap) b
  let groups := (List.range r).filter (fun g => !(b.2.1.any (fun x => x.row / 64 == g)) && !((rowsUsed b.1).any (fun x => x / 64 == g)))
  prefill b groups (prefillers b.1 b.2.1)

-- the step table (R459, R460)

/-- Sessions of a step in the order of their rows, each with its last position in the step. -/
def stepSessions (rows : List RowRec) : List (Nat × Nat) :=
  rows.foldl (fun l r =>
    if l.any (fun p => p.1 == r.sid) then l.map (fun p => if p.1 = r.sid then (p.1, max p.2 r.pos) else p) else l ++ [(r.sid, r.pos)]) []

/-- A page-table entry (Table 09.10). Where a page's share holds K and where V is not stated: free offsets within the
share (log entry 39). -/
def pageEntry (im : Image) (d page idx last : Nat) : List Byte :=
  let a := d * 2 ^ 37 + im.base.getD d 0 + idx * pageShare im
  leBytes 5 (a + Config.kvOffset false (pageShare im) % pageShare im) ++
  leBytes 5 (a + Config.kvOffset true (pageShare im) % pageShare im) ++ leBytes 4 page ++ leBytes 2 (min 64 (last + 1 - 64 * page))

/-- The entries of one session on local die `d` (R460). -/
def sessEntries (s : State) (d : Nat) (p : Nat × Nat) : List (List Byte) :=
  let g := groupDie s d
  (getSess s p.1).pages.mapIdx (fun k sh => (sh.find? (fun q => q.1 == g)).map (fun q => pageEntry (theImage s) d k q.2 p.2))
    |>.filterMap id

/-- The page-table area of a die, and each session's offset and count in it. -/
def pageArea (s : State) (d : Nat) : List (Nat × Nat) → List Byte × List (Nat × Nat × Nat)
  | ps => ps.foldl (fun a p =>
    let es := sessEntries s d p
    (a.1 ++ es.flatten, a.2 ++ [(p.1, a.1.length, es.length)])) ([], [])

/-- The bytes of one row (Table 14.11) on a die whose sessions' page tables stand at `pt`. -/
def stepRowBytes (s : State) (pt : List (Nat × Nat × Nat)) (r : RowRec) : List Byte :=
  let x := getSess s r.sid
  let q := ((pt.find? (fun p => p.1 == r.sid)).map (·.2)).getD (0, 0)
  let dec := r.kind == 2
  leBytes 2 r.sid ++ leBytes 1 r.kind ++ leBytes 1 (b2n r.skipped + 2 * b2n (dec && x.maskEn != 0)) ++ leBytes 4 r.pos ++ leBytes 4 r.tok ++
  leBytes 4 q.1 ++ leBytes 4 q.2 ++
  (if dec then leBytes 4 x.temp ++ leBytes 4 x.topP ++ leBytes 4 x.topK ++ leBytes 4 (draw x.seed x.len) else (List.replicate 16 0 : List Byte)) ++
  (List.replicate 28 0 : List Byte)

/-- A step-table buffer. -/
def bufferBytes (s : State) (no : Nat) (rows : List RowRec) (pt : List (Nat × Nat × Nat)) : List Byte :=
  leBytes 8 no ++ leBytes 2 (64 * rowGroups s) ++ (List.replicate 54 0 : List Byte) ++
  (List.range (64 * rowGroups s)).flatMap (fun r => (match rows.find? (fun x => x.row == r) with
    | some x => stepRowBytes s pt x
    | none => List.replicate 64 0 : List Byte))

/-- R393: a byte of a session's mask `i`; what a mask never stored holds is open, but one and the same for every session
and run, so that tokens depend on nothing but their session (R40, log entry 33). -/
def maskByte (x : Sess) (i b : Nat) : Byte :=
  match x.masks.find? (fun p => p.1 == i) with
  | some p => p.2.getD b 0
  | none => Config.unstoredMask i b
/-- R393: a token is allowed by every active mask. -/
def allowed (x : Sess) (t : Nat) : Bool := (List.range 4).all (fun i => !x.maskEn.testBit i || (maskByte x i (t / 8)).toNat.testBit (t % 8))
/-- The AND of the active masks over a shard (R460). -/
def shardMask (im : Image) (x : Sess) (k : Nat) : List Byte :=
  (List.range (ceilDiv im.vshard 8)).map (fun b => BitVec.ofNat 8
    ((List.range 8).foldl (fun v i =>
      let o := 8 * b + i
      let t := k * im.vshard + o
      if o < im.vshard ∧ t < im.vocab ∧ allowed x t then v + 2 ^ i else v) 0))

/-- R460: writes the masks of a decode row to the units that hold the shards. -/
def writeMasks (s : State) (r : RowRec) : State :=
  let im := theImage s
  let x := getSess s r.sid
  if r.kind ≠ 2 ∨ x.maskEn = 0 then s
  else (List.range (ceilDiv im.vocab im.vshard)).foldl (fun s k => match ownUnit s k with
    | some u => hubWrite s u (im.maskBase + r.row * ceilDiv im.vshard 8) (shardMask im x k)
    | none => s) s

/-- R459, R460: writes every station's tables. -/
def writeTables (s : State) (no : Nat) (rows : List RowRec) : State :=
  let ps := stepSessions rows
  let areas := (List.range (dies s)).map (fun d =>
    let a := pageArea s d ps
    (a.1, bufferBytes s no rows a.2))
  let s := (liveUnits s).foldl (fun s u =>
    let a := areas.getD (u / 32) ([], [])
    hubWrite (hubWrite s u (bufAddr s no) a.2) u (theImage s).ptBase a.1) s
  rows.foldl writeMasks s

/-- R461, R170: signals STEP_EVT to every unit over the spokes, where a unit that is not resident has it held (R188); the
DONE_EVT values that the step counts from. -/
def startStep (s : State) (no : Nat) (rows : List RowRec) (sec : Bool) : State :=
  let im := theImage s
  let base := (liveUnits s).map (fun u => (u, doneOf s u))
  let s := (liveUnits s).foldl (fun s u => hubSignal s u im.stepEvt) s
  { s with disp := { s.disp with step := some ⟨no, rows, base, sec⟩, faultSeen := false } }

/-- R396, R397: a CANCEL or CLOSE acts at the boundary before the next step, unless an append of its session is still in
progress. -/
def boundaryDue (s : State) : Bool := s.sess.any (fun p => ending p.2 && !p.2.busy)

/-- Whether the Dispatcher may start a step at all (R368, R396, R413, R454, R462, R499). -/
def mayStep (s : State) : Bool :=
  imgReady s && s.disp.step.isNone && s.disp.prime == .none && regBit s Reg.dispCtl 0 && s.sec.zero.isNone &&
  granting s.gov.ps && (match s.gov.busy with | none | some .p0 | some .p1 => true | _ => false) &&
  !s.boot.ctrlRun && !s.boot.stnWait && !s.tap.scan && !isSecondary s && (!s.paired || peerOk s) && spokesUp s &&
  !boundaryDue s

/-- The number of the next step: the low 64 bits of DISP_STEP_CNT + 1 (Table 14.11). -/
def nextStep (s : State) : Nat := (reg64 s Reg.stepCntLo + 1) % 2 ^ 64

/-- R411: what the primary's Dispatcher tells of a row: its row of the step table (Table 14.11), with the pages its
session holds in the secondary's dies and, of a masked row, the masks over the shards that the secondary holds. -/
def peerRow (s : State) (r : RowRec) : List Nat :=
  let x := getSess s r.sid
  let im := theImage s
  let shards := if r.kind = 2 ∧ x.maskEn ≠ 0 then
      (List.range (ceilDiv im.vocab im.vshard)).filter (fun k => (ownUnit s k).isNone) else []
  let pages := x.pages.flatMap (fun sh => (sh.filter (fun q => decide (4 ≤ q.1))).flatMap (fun q => [q.1, q.2]))
  r.row :: (stepRowBytes s [] r).map (·.toNat) ++ pages.length :: pages ++
    shards.flatMap (fun k => (shardMask im x k).map (·.toNat))

/-- R461: the Dispatcher builds and starts the next step. A step that would compute nothing is not run (DEDUCED, log
entry 40); a GENERATE that finds no page ends all the same. -/
def execStepStart (s : State) : Host.Outcome State Fault Refusal :=
  let b := buildStep s
  let no := nextStep s
  let works := b.2.1.any (fun r => !r.skipped)
  let t := startStep (writeTables b.1 no b.2.1) no b.2.1 false
  let t := if s.paired then { t with out := t.out ++ [.peer "STEP" (no :: b.2.1.flatMap (peerRow b.1))] } else t
  if mayStep s then (if works then .next t else guard s b.2.2 b.1) else .next s

/-- R411: the secondary's Dispatcher receives a step's rows from the primary, with the tables for its dies, and runs
them. `bufs` and `pts` give each die's buffer and page-table bytes, `masks` the mask bytes by row and shard. -/
def execSecondaryStepRows (no : Nat) (bufs pts : List (List Byte)) (masks : List (Nat × Nat × List Byte)) (s : State) :
    Host.Outcome State Fault Refusal :=
  let im := theImage s
  let s1 := (liveUnits s).foldl (fun s u =>
    hubWrite (hubWrite s u (bufAddr s no) (bufs.getD (u / 32) [])) u im.ptBase (pts.getD (u / 32) [])) s
  let s2 := masks.foldl (fun s m => match ownUnit s m.2.1 with
    | some u => hubWrite s u (im.maskBase + m.1 * ceilDiv im.vshard 8) m.2.2
    | none => s) s1
  withOperand (bufs.length == dies s && bufs.all (fun b => b.length == bufBytes s) && pts.length == dies s)
    (guard s (isSecondary s && imgReady s && s.disp.step.isNone && s.disp.prime == .none && granting s.gov.ps && spokesUp s)
      (startStep s2 no [] true))

-- the end of a step (R395, R405, R408, R428 to R430, R461)

/-- Every unit's part of the step is done, and none reports a fault. -/
def stepDone (s : State) (st : StepRec) : Bool := (liveUnits s).all (fun u => doneOf s u != tabGet 0 st.base u)
def stepReport (s : State) (st : StepRec) : Bool := (liveUnits s).any (fun u => reportOf s u st.no == some 1)

/-- The unit of this package that samples a row, and the rows that this package samples. -/
def sampler (s : State) (r : Nat) : Option Nat := ownUnit s ((theImage s).sampleBase + r / 64)
def outAddr (s : State) (no r : Nat) : Nat := bufAddr s no + 64 + 64 * r + 36
/-- The Dispatcher reads OUT of the rows that this package samples, under the error code (R114): the state, and the
values read. -/
def readOuts (s : State) (no : Nat) (rows : List Nat) : State × Tab Nat :=
  rows.foldl (fun q r => match sampler s r with
    | some u =>
      let v := hubRead q.1 u (outAddr s no r)
      (v.1, match v.2 with | some n => tabPut q.2 r n | none => q.2)
    | none => q) (s, [])
/-- OUT of a row: as read of the unit that samples it, or as the secondary sent it. -/
def outOf (s : State) (own peer : Tab Nat) (r : Nat) : Nat :=
  if (sampler s r).isSome then tabGet 0xFFFFFFFF own r else tabGet 0xFFFFFFFF peer r

/-- The 64-bit words of Text SRAM that a token's detokenization reads (R417, R429). -/
def detokWords (s : State) (t : Nat) : List Nat :=
  let e := detokEnt s.text.sram t
  [(textDetok s.text.sram + 8 * t) / 8] ++ wordsOf 8 e.1 e.2

/-- R430: a session's standpipe takes a token's bytes. -/
def standpipe (s : State) (sid t : Nat) : State :=
  let c := textReadsOf s (detokWords s t)
  let x := getSess c.1 sid
  match c.2, x.gen with
  | some w, _ =>
    -- the rewrite of R419 ends before any other read
    textRepair (faultSess (textUe c.1 w sid) sid)
  | none, none => c.1
  | none, some g =>
    let e := detokEnt s.text.sram t
    let sp := g.pipe ++ memRead s.text.sram e.1 e.2
    match findStop x.stops sp with
    | some (i, k) =>
      let s := addReg (textOut c.1 sid (sp.take i)) Reg.textStop 1
      let s := modSess s sid (fun x => { x with gen := some { g with pipe := [], disc := g.disc + (sp.length - i) } })
      endGen s sid 1 k
    | none =>
      let r := releaseLen x.stops sp
      modSess (textOut c.1 sid (sp.take r)) sid (fun x => { x with gen := some { g with pipe := sp.drop r } })

/-- R395: the endings that follow the standpipe. -/
def endByLength (s : State) (sid : Nat) : State :=
  let x := getSess s sid
  match x.gen with
  | none => s
  | some g =>
    if (theImage s).ctxMax ≤ x.len then endGen s sid 4 0xFFFFFFFF
    else if g.maxNew ≤ g.count then endGen s sid 3 0xFFFFFFFF
    else s

/-- R395, R408: a session takes the token of its decode row. An OUT that is no token of the image has no stated meaning:
the token is then a free value of that OUT alone, for tokens depend on nothing else (R40; log entry 41). -/
def decoded (s : State) (sid pos out : Nat) : State :=
  let v := (theImage s).vocab
  let s := modSess s sid (fun x => { x with comp := max x.comp (pos + 1) })
  if out = 0xFFFFFFFF then endGen s sid 0x12 0xFFFFFFFF
  else
    let t := if out < v then out else Config.strayToken out % v
    let x := getSess s sid
    match x.gen with
    | none => s
    | some g =>
      let s := setSess s sid { x with tokens := x.tokens ++ [t], gen := some { g with count := g.count + 1 } }
      let s := if g.outTok then pushOut s sid ⟨x.qp, sid, 2, leBytes 4 t⟩ else s
      if (theImage s).ends.contains t then endGen s sid 2 0xFFFFFFFF
      else endByLength (if g.outTok then s else standpipe s sid t) sid

/-- The session of a row is the one the row was built for, and still generates or prefills. -/
def rowLive (s : State) (r : RowRec) : Bool := let x := getSess s r.sid; x.inc == r.inc && servable x

/-- What a completed step does for one row: C moves past the positions written; a decode row yields its token. -/
def finishRow (own peer : Tab Nat) (s0 s : State) (r : RowRec) : State :=
  if r.skipped || !rowLive s r then s
  else if r.kind = 1 then markReady (modSess s r.sid (fun x => { x with comp := max x.comp (r.pos + 1) })) r.sid
  else if (getSess s r.sid).gen.isNone then s
  else decoded s r.sid r.pos (outOf s0 own peer r.row)

/-- DISP_ROWS_BUSY of a step (Table 12.12). -/
def rowsBusyOf (rows : List RowRec) : Nat :=
  (rows.filter (fun r => r.kind == 2)).length + 2 ^ 16 * ((rows.filter (fun r => r.kind == 1)).map (fun r => r.row / 64)).eraseDups.length

/-- The rows whose OUT the Dispatcher of this package reads at the end of a step: its decode rows, or on the secondary all
that it samples. -/
def outRows (s : State) (st : StepRec) : List Nat :=
  if st.secondary then (List.range (64 * rowGroups s)).filter (fun r => (sampler s r).isSome)
  else (st.rows.filter (fun r => r.kind == 2 && !r.skipped)).map (·.row)

/-- R461: on a pair, the primary's step completes once the secondary's has: `peer` then gives the OUT fields that the
secondary's stations wrote, and has one for every row sampled there. -/
def peerDone (s : State) (st : StepRec) (peer : Option (Tab Nat)) : Bool :=
  !s.paired || st.secondary || (match peer with
    | some t => (outRows s st).all (fun r => (sampler s r).isSome || t.any (fun p => p.1 == r))
    | none => false)

/-- R461: every DONE_EVT has risen: the Dispatcher reads the chosen tokens and writes the step's output. A word that it
cannot read is a cause of R409. -/
def execStepComplete (peer : Option (Tab Nat)) (s : State) : Host.Outcome State Fault Refusal :=
  match s.disp.step with
  | some st =>
    let q := readOuts (readReports s (liveUnits s) st.no) st.no (outRows s st)
    let t := addReg64 { q.1 with disp := { q.1.disp with step := none } } Reg.stepCntLo 1
    let t := setReg t Reg.rowsBusy (rowsBusyOf st.rows)
    let t := if st.secondary then { t with out := t.out ++ [.peer "STEP_DONE" (q.2.flatMap (fun p => [p.1, p.2]))] } else t
    guard s (stepDone s st && !stepReport s st && !s.disp.faultSeen && peerDone s st peer && s.text.repair.isEmpty &&
        granting s.gov.ps && spokesUp s)
      (if q.1.disp.faultSeen then q.1 else retarget (st.rows.foldl (finishRow q.2 (peer.getD []) s) t))
  | none => .next s

-- faulted steps (R409, R410)

/-- R410: a faulted step. The other package of a pair is told of it, unless it was the one to tell (`told`; R411). -/
def stepFault (s : State) (st : StepRec) (told : Bool) : State :=
  let s := abortChains { s with disp := { s.disp with step := none } }
  let s := ((st.rows.filter (rowLive s)).map (·.sid)).eraseDups.foldl faultSess s
  let s := setEvt (addReg s Reg.faultCnt 1) 5
  let s := if s.paired && !told then { s with out := s.out ++ [.peer "STEP_FAULT" [st.no]] } else s
  retarget (resetAll { s with disp := { s.disp with prime := .due .fault } })

/-- R410: a cause of R409 has been reported in the step, by this package, or by the other of a pair (`peer`). -/
def execStepFault (peer : Bool) (s : State) : Host.Outcome State Fault Refusal :=
  match s.disp.step with
  | some st =>
    let own := s.disp.faultSeen || stepReport s st
    guard s (own || (peer && s.paired))
      (stepFault (if stepReport s st then readReports s (liveUnits s) st.no else s) st (!own))
  | none => .next s

/-- R409: the step watchdog. -/
def execStepWatchdog (s : State) : Host.Outcome State Fault Refusal :=
  match s.disp.step with
  | some st => guard s (!wdogPaused s)
      (stepFault (timeoutRec s st.no (fun u => doneOf s u == tabGet 0 st.base u)) st false)
  | none => .next s

end Sys2Proof.Machine
end

