-- ==== Sys2Proof/Machine/Memory.lean ====
section
/-! DEFINITION. Machine/Memory.lean: write-back of corrected cistern words, the hub's well reads with their re-reads,
refresh and recalibration, and patrol scrub (R114, R121, R152 to R154). -/

namespace Sys2Proof.Machine

/-- R114: a corrected word is written back. -/
def execCistCeWriteback (w : Nat) (s : State) : Host.Outcome State Fault Refusal :=
  guard s (s.cistWb.contains w) { s with cistWb := s.cistWb.filter (· != w), cistErr := tabDel s.cistErr w }

/-- Whether the well controllers run: in P3 Standby the stacks refresh themselves (R367). -/
def wellOn (s : State) : Bool := s.gov.ps != .p3 && s.gov.ps != .p4

/-- R121: the well controller answers the hub's read of the beat at well address `a`, with leave that the hub has in hand
(R350). An uncorrectable beat waits for its re-reads. -/
def execWellRead (a : Nat) (s : State) : Host.Outcome State Fault Refusal :=
  let b := a / 32
  withOperand (decide (a % 32 = 0) && decide (wellDie a < dies s) && decide (wellOff a < wellEnd))
    (guard s (s.reread.isNone && wellOn s && hubReady s 32)
      (let s := hubSpend s 32
      match s.wellErr.find? (fun p => p.1 == b) with
      | none => s
      | some (_, .stack) => addReg s Reg.stackEcc 1
      | some (_, .single) => addReg { s with wellErr := tabDel s.wellErr b } Reg.wellCe 1
      | some (_, .bad _) => { s with reread := some (b, 0, 2) }))

/-- R121: one re-read of the waiting beat. -/
def execWellReread (s : State) : Host.Outcome State Fault Refusal :=
  match s.reread with
  | none => .next s
  | some (b, n, acc) =>
    match s.wellErr.find? (fun p => p.1 == b) with
    | some (_, .bad rr) =>
      if rr.getD n .bad != .bad then .next (addReg { s with reread := none, wellErr := tabDel s.wellErr b } Reg.wellRetry 1)
      else if n = 0 then .next { s with reread := some (b, 1, acc) }
      else .next (wellUeReport { s with reread := none } b { acc := acc })
    | _ => .next { s with reread := none }

/-- R152, R358: scheduled refresh takes its channel at once and is debited to MAINT. The manual states no size for the
debit: it is a free value (log entry 23). -/
def execWellRefresh (s : State) : Host.Outcome State Fault Refusal :=
  let g := takeFree s
  guard s (wellOn s) (maintDebit g.2 (Config.freeNat g.1 0 * costEntry 5 false))

/-- R152, R358: periodic recalibration, likewise. -/
def execWellRecal (s : State) : Host.Outcome State Fault Refusal :=
  let g := takeFree s
  guard s (wellOn s) (maintDebit g.2 (Config.freeNat g.1 0 * costEntry 5 false))

/-- Cistern scrub runs in P0 Run, P1 Eco and P2 Idle (R154); so does well scrub. -/
def scrubOn (s : State) : Bool := s.gov.ps == .p0 || s.gov.ps == .p1 || s.gov.ps == .p2

/-- A scrub float advances, and at the end of a pass it records DONE; the next update starts the next pass (R474). -/
def scrubFloat (s : State) (n op pos total cnt : Nat) : State :=
  let s := if (getFloat s n).st = 1 then s else floatStart s n op total
  let s := floatPos s n pos
  if pos < total then s else setReg (floatEnd s n true 0) cnt ((reg s cnt + 1) % 2 ^ 32)

/-- R153: scrub of one marked cistern word: a correctable error is corrected and written back at once. -/
def scrubWord (s : State) (w : Nat) : State :=
  match s.cistErr.find? (fun p => p.1 == w) with
  | some (_, .single) => addReg { s with cistErr := tabDel s.cistErr w, cistWb := s.cistWb.filter (· != w) } Reg.cistCe 1
  | some (_, .bad _) => cistUeReport s w 4
  | none => s

/-- R153: one 64-byte line of every slice. -/
def execScrubCistLine (s : State) : Host.Outcome State Fault Refusal :=
  let k := s.scrubCist
  let ws := (s.cistErr.map (·.1)).filter (fun w => decide (w % 2 ^ 20 / 8 = k) && isResident s (w / 2 ^ 20))
  let s' := ws.foldl scrubWord s
  guard s (scrubOn s) (scrubFloat { s' with scrubCist := (k + 1) % 81920 } 6 8 (k + 1) 81920 Reg.scrubCist)

/-- The well address of beat `k` of a stack (R119). -/
def stackBeat (st k : Nat) : Nat :=
  let d := 32 * k
  st / 2 * 2 ^ 37 + d / 4096 * 8192 + st % 2 * 4096 + d % 4096

/-- R153, R358: one beat of every stack, debited to MAINT. -/
def execScrubWellBeat (s : State) : Host.Outcome State Fault Refusal :=
  let k := s.scrubWell
  let bs := (List.range (stackCount s)).map (fun st => stackBeat st k / 32)
  let s' := (bs.filter (fun b => s.wellErr.any (fun p => p.1 == b))).foldl (fun s b => (wellCheck s { acc := 3 } [b]).1) s
  let s' := maintDebit { s' with scrubWell := (k + 1) % 1509949440 } (stackCount s * costEntry 5 false)
  guard s (scrubOn s) (scrubFloat s' 7 9 (k + 1) 1509949440 Reg.scrubWell)

end Sys2Proof.Machine
end

