-- ==== Sys2Proof/Machine/Links.lean ====
section
/-! DEFINITION. Machine/Links.lean: the rows of the siphons, die links and Extium Links (chapter 10). -/

namespace Sys2Proof.Machine

-- signals (R170, R322)

/-- R170, R322: the oldest signal of a unit's outbound queue leaves on its fixed route; on its own die it reaches the
station directly. A signal whose route is down is dropped (R340). -/
def execSignalSend (u : Nat) (s : State) : Host.Outcome State Fault Refusal :=
  match (stn s u).outq with
  | [] => .next s
  | q :: rest =>
    let s' := fillNotes (modStn s u (fun x => { x with outq := rest })) u
    let r := route s (u / 32) (q.toUnit / 32) q.xpkg
    let a : Arrival := { hop := 100 + u / 32, src := gOf s (u / 32) false, die := u / 32, what := .signal q.toUnit q.ev }
    let f : Flit := { way := b2n q.xpkg, type := 3, srcDie := gOf s (u / 32) false, dstDie := gOf s (q.toUnit / 32) q.xpkg,
                      payload := signalPayload q.toUnit q.ev q.xpkg }
    match r with
    | [] => .next { s' with arrivals := s'.arrivals ++ [a] }
    | h :: _ => .next (if routeUp s r then hopSend s' h [f] else s')

/-- The arrival at position `n` is behind a tile of the same source that came on the same way (R322). -/
def behindTile (s : State) (n : Nat) (a : Arrival) : Bool :=
  (s.arrivals.take n).any (fun b => b.xp == a.xp && b.hop == a.hop && b.src == a.src && b.die == a.die &&
    (match b.what with | .tile _ => true | _ => false))

/-- Removes an arrival. -/
def dropArrival (s : State) (n : Nat) : State := { s with arrivals := s.arrivals.eraseIdx n }

/-- A signal takes effect at its station: it is counted, discarded while the station is in reset (R186), or held while
its unit is not resident (R188, R578). -/
def applySignal (s : State) (v ev : Nat) : State :=
  if (hostOf s v).isNone ∨ (stn s v).inReset then s
  else if isResident s v then evBump s v ev
  else { s with heldSig := s.heldSig ++ [⟨v, v, false, ev⟩] }

/-- R322: an arrived signal is applied once every earlier tile of its way is visible. -/
def execSignalApply (n : Nat) (s : State) : Host.Outcome State Fault Refusal :=
  match s.arrivals[n]? with
  | some a =>
    match a.what with
    | .signal v ev => guard s (!behindTile s n a) (applySignal (dropArrival s n) v ev)
    | _ => .fault .badOperand
  | none => .fault .badOperand

-- tiles (R314 to R319)

/-- The siphon work of requester `req` of unit `u`: 0 to 3 a pump channel, 4 or 5 the chain of window half 0 or 1 (a
HALF 2 chain is 4). -/
def chainHalf (c : ChainRec) : Nat := if cHalf c.raw = 1 then 5 else 4
def sipOf (x : Station) (req : Nat) : Option Sip :=
  if req < 4 then (getChan x req).active.map (·.sip)
  else (x.chains.find? (fun c => c.started && chainHalf c == req)).map (·.sip)
def modSip (s : State) (u req : Nat) (f : Sip → Sip) : State :=
  if req < 4 then modActive s u req (fun a => { a with sip := f a.sip })
  else modStn s u (fun x => { x with chains := x.chains.map (fun c =>
    if c.started && chainHalf c == req then { c with sip := f c.sip } else c) })

/-- Whether requester `req` of unit `u` has a tile to send on hop `h`: its credit and leave are in hand, its route is UP,
and no tile of it is outstanding (R316). -/
def sendReady (s : State) (u req h : Nat) : Bool :=
  match sipOf (stn s u) req with
  | some q =>
    match q.tiles with
    | [] => false
    | t :: _ =>
      let r := route s (u / 32) (t.dst / 32) t.xpkg
      q.phase == 2 && r.head? == some h && routeUp s r && !s.orphans.any (fun o => o.1 == u && o.2.1 == req)
  | none => false

/-- The six siphon requesters of a unit (Table 10.3). -/
def requesters : List Nat := [0, 1, 2, 3, 4, 5]

/-- R312: the logical station whose turn it is to send a whole tile on hop `h`, round robin over the stations of the die
that have one. -/
def linkTurn (s : State) (h : Nat) : Option Nat :=
  roundRobin 128 (hop s h).turn (fun ls => decide (ls < stationsEnabled s) &&
    requesters.any (fun req => sendReady s (residentUnit s ls) req h))

/-- R316, R312: a requester with no tile outstanding, its credit and its leave, sends its next tile, in its station's
turn and once the tile before it has left whole. -/
def execSiphonTileSend (u req : Nat) (s : State) : Host.Outcome State Fault Refusal :=
  match sipOf (stn s u) req with
  | some q =>
    match q.tiles with
    | [] => .next s
    | t :: _ =>
      match route s (u / 32) (t.dst / 32) t.xpkg with
      | [] => .next s
      | h :: _ =>
        let s' := modSip s u req (fun q => { q with phase := 3 })
        guard s (isResident s u && sendReady s u req h && (hop s h).sendq.isEmpty && linkTurn s h == some (lstn s u))
          (hopSend (setHop s' h { hop s' h with turn := lstn s u }) h
            (tileToFlits t (gOf s (u / 32) false) (gOf s (t.dst / 32) t.xpkg)))
  | none => .next s

/-- The hops back from a landing die to the source die of a tile, of this package or (`xp`) the paired one (R318, R331). -/
def backRoute (s : State) (die src : Nat) (xp : Bool) : List Nat :=
  if xp then [2 * die, 16 + 2 * (src % 2)] else route s die (src % 4) false

/-- R282: a pump's tile has been written over what chains of its own program use. -/
def tileTouch (s : State) (t : Tile) : State :=
  let s := (List.range t.rows).foldl (fun s i =>
    chainTouch s t.src t.dst (unsigned 23 (t.addr + i * t.stride)) t.rowBytes) s
  chainTouch s t.src t.dst t.spl t.scale.length

/-- R317, R318: the tile at position `n` of the arrivals is written, and LANDED goes back. -/
def execTileLand (n : Nat) (s : State) : Host.Outcome State Fault Refusal :=
  match s.arrivals[n]? with
  | some a =>
    match a.what with
    | .tile t =>
      let l := landTile (dropArrival s n) t
      let m := if l.2 && decide (t.req < 4) then primeBytes l.1 (t.data.length + t.scale.length) else l.1
      let w := (if a.xp || decide (4 ≤ t.req) then m else tileTouch m t, l.2)
      let st := if w.2 then 0 else 0x10
      let f : Flit := { way := b2n a.xp, type := 4, srcDie := gOf s a.die false, dstDie := a.src,
                        payload := trimZeros [BitVec.ofNat 8 t.src, BitVec.ofNat 8 t.req, BitVec.ofNat 8 st] }
      let r := backRoute s a.die a.src a.xp
      match r with
      | [] => .fault .badOperand
      | h :: _ => .next (if routeUp w.1 r then hopSend w.1 h [f] else w.1)
    | _ => .fault .badOperand
  | none => .fault .badOperand

/-- R318, R138: the tile in hand of a requester has landed with a status. -/
def landedAt (s : State) (u req st : Nat) : State :=
  match sipOf (stn s u) req with
  | none => s
  | some q =>
    let rest := q.tiles.drop 1
    if req < 4 then
      if (stn s u).inReset then modStn s u (fun x => setChan x req { getChan x req with active := none })
      else if st ≠ 0 then modActive s u req (fun a => { a with sip := {}, ended := some (a.ended.getD 0x10) })
      else modActive s u req (fun a =>
        { a with sip := { tiles := rest, phase := 0 }, pos := a.marks.headD a.pos, marks := a.marks.drop 1 })
    else
      match (stn s u).chains.find? (fun c => c.started && chainHalf c == req) with
      | none => s
      | some c =>
        if st ≠ 0 then endChain (modSip s u req (fun _ => {})) u c.thread 0x10
        else if rest.isEmpty then tileDone s u c.thread c
        else modSip s u req (fun _ => { tiles := rest, phase := 0 })

/-- R318, R319: a LANDED flit completes the tile's writes at the source and returns its credit. -/
def execLandedReceive (n : Nat) (s : State) : Host.Outcome State Fault Refusal :=
  match s.arrivals[n]? with
  | some a =>
    match a.what with
    | .landed u req st =>
      let s' := dropArrival s n
      let e := farDie (a.src % 4) a.xp
      let o := (u, req, e)
      let here := match sipOf (stn s u) req with
        | some q => q.phase == 3 && (q.tiles.head?.map tileDie) == some e
        | none => false
      if s.orphans.contains o then .next { returnCredit s' a.die e with orphans := s.orphans.erase o }
      else guard s' here (landedAt (returnCredit s' a.die e) u req st)
    | _ => .fault .badOperand
  | none => .fault .badOperand

-- flits (R324 to R330)

/-- The die a hop ends at, or none at the hub. -/
def hopEnd (s : State) (h : Nat) : Option Nat :=
  if h < 8 then (if h % 2 = 1 then some (h / 2) else none)
  else if h < 16 then (if h % 2 = 0 then some (if isT2 s then 1 else ((h - 8) / 2 + 1) % 4) else some ((h - 8) / 2))
  else none

/-- The hop by which the hub sends on a flit, if any (R310, R331): out on an Extium Link where it is bound for the paired
package (the link by the parity of the die that sent the tile), else to the die that DST_DIE names in this package. Once
PAIRED has fallen nothing crosses any more (R336). -/
def hubNext (s : State) (f : Flit) : Option Nat :=
  if f.way = 1 then
    if s.paired then some (16 + 2 * ((if f.type = 4 then f.dstDie else f.srcDie) % 2)) else none
  else if f.way = 2 && (!s.paired || f.dstDie / 4 != role s) then none
  else some (2 * (f.dstDie % 4) + 1)

/-- Flits of the tile that a DATA_HEAD begins. -/
def headLen (f : Flit) : Nat :=
  let h := headTile (padTo 32 f.payload)
  tileFlits (h.1.rows * h.1.rowBytes + h.2.1)

/-- R310, R311, R312: the hub sends on flits whose link is UP, whole tiles back to back; others are lost. -/
def forward (s : State) (fs : List Flit) : State :=
  match fs with
  | [] => s
  | f :: _ =>
    match hubNext s f with
    | some n => if linkUp s (linkOf n) then hopSend s n fs else s
    | none => s

/-- What a landing die keeps of a complete tile, signal or LANDED flit. -/
def arrive (s : State) (h die : Nat) (f : Flit) (w : ArrKind) : State :=
  { s with arrivals := s.arrivals ++ [{ xp := f.way == 2, hop := h, src := f.srcDie, die := die, what := w }] }

/-- The die links a part has (Table 10.7). -/
def dieLinks (s : State) : List Nat := if isT2 s then [0, 1, 4] else [0, 1, 2, 3, 4, 5, 6, 7]

/-- Extium Link `l` begins to train (Table 10.5). -/
def trainStart (s : State) (l : Nat) : State :=
  putExt (clearLink s (8 + l)) l { getExt s l with st := .detect, peer := none }

/-- Training of the links of a mask begins: the ROLE takes effect, and float 5 starts (R342, R475). -/
def trainLinks (s : State) (mask : Nat) : State :=
  let s := { s with roleNow := regBit s Reg.pairCtl 1, trainLinks := mask }
  let s := if mask.testBit 0 then trainStart s 0 else s
  let s := if mask.testBit 1 then trainStart s 1 else s
  floatStart s 5 7 (4 * popc 2 mask)

/-- R475: the LINK_TRAIN operation ends DONE once every link in it is UP and the pair is formed. -/
def trainDone (s : State) : State :=
  let up (l : Nat) : Bool := !s.trainLinks.testBit l || (getExt s l).st == .up
  if s.trainLinks ≠ 0 ∧ up 0 ∧ up 1 ∧ s.paired then floatEnd { s with trainLinks := 0 } 5 true 0 else s

/-- R335, R336: link `l` comes UP: both directions number from 0, and the credits of its routes are whole. -/
def extUp (s : State) (l : Nat) (maps : List Nat) : State :=
  let s := clearLink (clearCredits s (8 + l)) (8 + l)
  let s := putExt s l { getExt s l with st := .up, event := false, peer := some maps }
  let s := if s.trainLinks.testBit l then floatPos s 5 ((getFloat s 5).pos + 1) else s
  let both := (getExt s 0).st == .up && (getExt s 1).st == .up
  let s := if both then tellPeer { s with paired := true, held := false, peerEn := (List.range 4).map (fun d => (d, maps.getD d 0)) } else s
  trainDone s

/-- R335: what the peer's PAIR_INFO says is checked: its ROLE, variant and station map. -/
def pairCheck (s : State) (l peerRole variant : Nat) (maps : List Nat) : State :=
  if peerRole = role s then extDown s l 5
  else if variant ≠ 0 then extDown s l 6
  else match (getExt s (1 - l)).peer with
    | some m => if m = maps then extUp s l maps else extDown s l 6
    | none => extUp s l maps

/-- R338, R341: the peer's CTRL DOWN, with the reason it gives. Reason STANDBY is the pair's own entry to P3, and the
pairing is held; any other takes the link down with PEER_DOWN. -/
def peerDown (s : State) (l reason : Nat) : State :=
  if reason = 8 ∧ s.paired then extDown { s with held := true } l 8 false else extDown s l 4 false

/-- R325: a CTRL flit that Extium Link `l` accepts takes the effect of its code. STANDBY is carried out by PAIR_STANDBY. -/
def ctrlEffect (s : State) (l : Nat) (f : Flit) : State :=
  let c := Config.ctrlRead f.payload
  let b (n : Nat) : Nat := c.2.getD n 0
  if c.1 = 0 then
    if (getExt s l).st = .pair then
      pairCheck s l (b 0) (b 1) ((List.range 4).map (fun d => b (d + 2) % 2 ^ 32)) else s
  else if c.1 = 1 then peerDown s l (b 0)
  else s

/-- A sequenced flit accepted at the end of hop `h` (R317, R326): DATA flits are gathered until their tile is whole; at
the hub whole tiles go on back to back, and CTRL flits take effect. A SIGNAL names one of the counters 16 to 31
(Table 10.3); with another it has none to count (log entry 19). -/
def deliver (s : State) (h : Nat) (f : Flit) : State :=
  let x := hop s h
  let b (n : Nat) : Nat := ((f.payload.getD n 0).toNat)
  match f.type with
  | 1 | 2 =>
    let part := if f.type = 1 then [f] else if x.part.isEmpty then [] else x.part ++ [f]
    match part with
    | [] => s
    | hd :: _ =>
      let die := hopEnd s h
      if die.isSome ∧ (headTile (padTo 32 hd.payload)).2.2 then linkDownAt (setHop s h { x with part := [] }) (opp h) 3
      else if part.length < headLen hd then setHop s h { x with part := part }
      else
        let s := setHop s h { x with part := [] }
        match die with
        | some d => arrive s h d hd (.tile (joinTile part))
        | none => forward s part
  | 3 =>
    match hopEnd s h with
    | some d => if 16 ≤ b 1 % 32 then arrive s h d f (.signal (b 0 % 128) (b 1 % 32)) else s
    | none => forward s [f]
  | 4 =>
    match hopEnd s h with
    | some d => arrive s h d f (.landed (b 0 % 128) (b 1 % 8) (b 2))
    | none => forward s [f]
  | 6 => if 16 ≤ h then ctrlEffect s ((h - 16) / 2) f else s
  | _ => s

/-- 1 µs, in units of the Timebase (2^−16 ns). -/
def microsecond : Nat := 1000 * 65536

/-- R329: a NAK for the expected number, once in any 1 µs. -/
def sendNak (s : State) (h : Nat) : State :=
  let x := hop s h
  let early := match x.nak with | some t => decide (t ≤ s.time.time) && decide (s.time.time < t + microsecond) | none => false
  if early then s
  else onWire (setHop s h { x with nak := some s.time.time }) (opp h) { type := 5, payload := leBytes 2 x.expect }

/-- The flit at the head of a hop: from the wire inside the package, or the bytes that arrive on an Extium Link. -/
def headFlit (s : State) (h : Nat) (bytes : List Byte) : Option (Flit × Bool) :=
  if 16 ≤ h then (if bytes.length = 256 then some ({ parseFlit bytes with way := 2 }, crcGood bytes) else none)
  else match (hop s h).wire with
    | [] => none
    | f :: _ => some (f, true)

/-- Takes the head of a hop's wire. -/
def popWire (s : State) (h : Nat) : State :=
  if 16 ≤ h then s else let x := hop s h; setHop s h { x with wire := x.wire.drop 1 }

/-- Whether flits can arrive on a hop: its link carries flits, and on an Extium Link only inward. -/
def canReceive (s : State) (h : Nat) : Bool := decide (h < 20) && carries s h && (decide (h < 16) || h % 2 == 1)

/-- R329: the acceptance rule for one flit. -/
def receive (s : State) (h : Nat) (f : Flit) (good : Bool) : State :=
  if !good || decide (6 < f.type) then sendNak (addReg s Reg.linkCrc 1) h
  else
    let s := if f.ackV then hopAck s (opp h) f.ack else s
    if !sequenced f.type then s
    else
      let x := hop s h
      let ahead := (f.seq + 4096 - x.expect) % 4096
      if ahead = 0 then
        deliver (setHop s h { x with expect := (x.expect + 1) % 4096, lastAcc := some f.seq, nak := none, ackDue := true }) h f
      else if 2048 ≤ ahead then s
      else sendNak (addReg s Reg.linkCrc 1) h

/-- R333: codewords that an Extium Link's FEC corrected, and those it could not. -/
def fecCount (s : State) (h corr uncorr : Nat) : State :=
  if h < 16 then s else addReg (addReg s Reg.fecCorr corr) Reg.fecUncorr uncorr

/-- R329, R333: one flit arrives at the end of hop `h`, after what its way has done to it. A good NAK is NAK_RECEIVE's. -/
def execFlitReceive (h : Nat) (noise : Noise) (bytes : List Byte) (s : State) : Host.Outcome State Fault Refusal :=
  match headFlit s h bytes with
  | none => .next s
  | some (f, ok) =>
    let good := ok && !noise.bad && (decide (h < 16) || noise.uncorr == 0)
    guard s (canReceive s h && !(good && f.type == 5)) (receive (fecCount (popWire s h) h noise.corr noise.uncorr) h f good)

/-- R330: replays the unacknowledged flits of a hop from position `k`; a fourth replay takes the link down. -/
def replay (s : State) (h k : Nat) : State :=
  let x := hop s h
  let again := x.unacked.drop k
  if again.any (fun p => decide (3 ≤ p.2)) then hopDown s h 1
  else
    let s := addReg (setHop s h { x with unacked := x.unacked.take k ++ again.map (fun p => (p.1, p.2 + 1)),
                                         replays := stick32 x.replays 1 }) Reg.linkReplay 1
    again.foldl (fun s p => onWire s h p.1) s

/-- R330: a NAK arrives on hop `h`: the other direction replays from EXPECT. -/
def execNakReceive (h : Nat) (bytes : List Byte) (s : State) : Host.Outcome State Fault Refusal :=
  match headFlit s h bytes with
  | none => .next s
  | some (f, ok) =>
    let s' := popWire s h
    let s' := if f.ackV then hopAck s' (opp h) f.ack else s'
    let e := leNat (f.payload.take 2) % 4096
    guard s (canReceive s h && ok && f.type == 5)
      (match (hop s' (opp h)).unacked.findIdx? (fun p => p.1.seq == e) with
      | some k => replay s' (opp h) k
      | none => s')

/-- R330: 1 µs without an ACK that advances: hop `h` replays from its oldest unacknowledged flit. -/
def execReplayTimeout (h : Nat) (s : State) : Host.Outcome State Fault Refusal :=
  guard s (decide (h < 20) && carries s h && !(hop s h).unacked.isEmpty) (replay s h 0)

/-- R330: a flit of hop `h` is still unacknowledged 4 µs after its first transmission. -/
def execLinkAckTimeout (h : Nat) (s : State) : Host.Outcome State Fault Refusal :=
  guard s (decide (h < 20) && carries s h && !(hop s h).unacked.isEmpty) (hopDown s h 1)

/-- R329: an IDLE flit leaves on hop `h` to carry the ACK that its receiver owes. -/
def execIdleAckFlit (h : Nat) (s : State) : Host.Outcome State Fault Refusal :=
  guard s (decide (h < 20) && carries s h && (hop s (opp h)).ackDue && (decide (h < 16) || h % 2 == 0)) (onWire s h {})

-- link faults and training (R334 to R341)

/-- R338: loss of signal, lane lock or FEC alignment, seen at the end of hop `h`. -/
def execLossOfLock (h : Nat) (s : State) : Host.Outcome State Fault Refusal :=
  if h < 16 then guard s (linkUp s (linkOf h)) (linkDownAt s (opp h) 2)
  else
    let l := (h - 16) / 2
    withOperand (decide (h < 20))
      (guard s ((getExt s l).st == .up || training (getExt s l))
        (extDown s l 2))

/-- The next flit in sequence of Extium Link `l` has been accepted (R329). -/
def acceptNext (s : State) (l : Nat) : State :=
  let x := hop s (17 + 2 * l)
  setHop s (17 + 2 * l) { x with expect := (x.expect + 1) % 4096, lastAcc := some x.expect, nak := none, ackDue := true }

/-- R338, R341: the next flit in sequence of an Extium Link is the peer's CTRL DOWN, with its reason (log entry 17). -/
def execCtrlDownReceive (down : LinkDown) (s : State) : Host.Outcome State Fault Refusal :=
  let l := down.link
  withOperand (decide (l < 2) && decide (down.reason < 16))
    (guard s ((getExt s l).st == .up || (getExt s l).st == .pair) (peerDown (acceptNext s l) l down.reason))

/-- R334: a die link that went down trains again by itself, while the dies have power. -/
def execDieLinkRetrain (l : Nat) (s : State) : Host.Outcome State Fault Refusal :=
  withOperand ((dieLinks s).contains l)
    (guard s (!s.dieUp.testBit l && s.gov.ps != .p3 && s.gov.ps != .p4 && reg s Reg.bootStatus % 16 == 7)
      (clearLink { s with dieUp := s.dieUp + 2 ^ l } l))

/-- An Extium Link becomes DISABLED because ENABLE is written 0; requesters on its routes end with LINK_DOWN. -/
def extDisable (s : State) (l : Nat) : State :=
  let s := if (getExt s l).st = .up then (s.stns.map (·.1)).foldl (fun s u => failUnit s (8 + l) u) s else s
  putExt (clearLink (clearCredits s (8 + l)) (8 + l)) l { getExt s l with st := .disabled, event := false, peer := none }

/-- LINK_PAIR_CTL (R334, R342, R475). -/
def execLinkPairCtlWrite (v : Nat) (s : State) : Host.Outcome State Fault Refusal :=
  if !hasExt s then .next s
  else
    let was := regBit s Reg.pairCtl 0
    let s := setReg s Reg.pairCtl (v % 8)
    if v % 2 = 1 ∧ !was then .next (trainLinks s 3)
    else if v % 2 = 0 ∧ was then
      let s := if (getFloat s 5).st = 1 then floatEnd { s with trainLinks := 0 } 5 false 0x11 else s
      .next (unpair (extDisable (extDisable s 0) 1))
    else .next s

/-- LINK_RETRAIN (R338, R475): the named links go down with HOST_RETRAIN and train again. -/
def execLinkRetrain (v : Nat) (s : State) : Host.Outcome State Fault Refusal :=
  if !hasExt s ∨ !regBit s Reg.pairCtl 0 ∨ v % 4 = 0 then .next s
  else
    let s := if (getFloat s 5).st = 1 then floatEnd { s with trainLinks := 0 } 5 false 0xFE else s
    let go (s : State) (l : Nat) : State :=
      if !v.testBit l then s
      else extDown s l 7
    .next (trainLinks (go (go s 0) 1) (v % 4))

/-- R334, R475: a link in training completes DETECT, EQUALIZE or ALIGN. On entering PAIR it sends PAIR_INFO. -/
def execExtLinkTrainState (l : Nat) (s : State) : Host.Outcome State Fault Refusal :=
  let e := getExt s l
  let step (st : ExtSt) : State :=
    let s := putExt s l { e with st := st }
    if s.trainLinks.testBit l then floatPos s 5 ((getFloat s 5).pos + 1) else s
  match e.st with
  | .detect => .next (step .equalize)
  | .equalize => .next (step .align)
  | .align =>
    let s := step .pair
    .next (sendCtrl s l 0 ([role s, s.part.variant] ++ (List.range 4).map (dieMask s)))
  | _ => .next s

/-- R335: the next flit in sequence of Extium Link `l` is the peer's PAIR_INFO: its ROLE, variant and station map, one
mask per die (log entry 17). -/
def execPairInfo (l peerRole variant : Nat) (maps : List Nat) (s : State) : Host.Outcome State Fault Refusal :=
  withOperand (decide (l < 2) && maps.length == 4 && maps.all (fun m => decide (m < 2 ^ 32)))
    (guard s ((getExt s l).st == .pair) (pairCheck (acceptNext s l) l peerRole variant maps))

/-- R334, R341: a DOWN link with AUTO_RETRAIN set trains again, and so does one whose pairing is held, outside P3. -/
def execExtAutoRetrain (l : Nat) (s : State) : Host.Outcome State Fault Refusal :=
  withOperand (decide (l < 2))
    (guard s ((getExt s l).st == .down && regBit s Reg.pairCtl 0 && (regBit s Reg.pairCtl 2 || s.held) &&
        s.gov.ps != .p3 && s.gov.ps != .p4)
      (if (getFloat s 5).st = 1 ∧ s.trainLinks ≠ 0 ∧ !s.trainLinks.testBit l ∧ s.held then
        -- the second link of a held pair joins the training that its exit has started
        let f := getFloat s 5
        putFloat (trainStart { s with trainLinks := s.trainLinks + 2 ^ l } l) 5 { f with fin := 8 }
      else trainLinks s (2 ^ l)))

/-- R475: the links are not all UP within 1 s; they go on training. -/
def execLinkTrainTimeout (s : State) : Host.Outcome State Fault Refusal :=
  guard s ((getFloat s 5).st == 1 && s.trainLinks != 0) (floatEnd { s with trainLinks := 0 } 5 false 0x10)

/-- R341: a held pairing whose links are not both UP within 200 ms of the P3 exit ends. -/
def execPairHoldExpire (s : State) : Host.Outcome State Fault Refusal :=
  guard s (s.held && s.gov.ps != .p3 && !((getExt s 0).st == .up && (getExt s 1).st == .up)) (unpair s)

end Sys2Proof.Machine
end

