-- ==== Sys2Proof/Machine/Power.lean ====
section
/-! DEFINITION. Machine/Power.lean: the Power Governor: windows, budgets, requests and grants of leave, and droop
(R343 to R361). -/

namespace Sys2Proof.Machine

/-- BASE and MAINT of Table 11.2 in units of 2^−16 µJ; T2 takes 0.55 of BASE, rounded down (R348). -/
def baseCost (s : State) (eco : Bool) (band : Nat) : Nat :=
  let b := ((if eco then [30, 35, 41, 49] else [48, 56, 66, 78] : List Nat).getD band 0) * 65536
  if isT2 s then b * 55 / 100 else b
def maintCost : Nat := 5 * 65536

/-- Whether a P-state's cost column is P1's. -/
def isEco (p : PState) : Bool := p == .p1

/-- R349: the band of temperature `t` (in 0.25 °C), coming from band `b`: up at a threshold, down 2 °C below it. -/
def bandOf (throttle b t : Nat) : Nat :=
  let up (k : Nat) : Nat := if k = 1 then 280 else if k = 2 then 340 else 4 * throttle
  if up 3 ≤ t ∨ (b = 3 ∧ up 3 < t + 8) then 3
  else if up 2 ≤ t ∨ (2 ≤ b ∧ up 2 < t + 8) then 2
  else if up 1 ≤ t ∨ (1 ≤ b ∧ up 1 < t + 8) then 1
  else 0

/-- R363: f_therm in units of 2^−16, truncated. -/
def fThermOf (throttle t : Nat) : Nat :=
  if t ≤ 4 * throttle then 65536 else if 420 ≤ t then 0 else 65536 * (420 - t) / (420 - 4 * throttle)

/-- R365: a WELL request that a stopped stack holds back. -/
def stackHeld (s : State) (q : LReq) : Bool :=
  q.cls == 2 && (match q.what with
    | .hub m _ => s.gov.stackStop.any (fun st => m.testBit st)
    | _ => s.gov.stackStop.any (fun st => st / 2 == q.unit / 32))

/-- The head of a class queue: stopped requests let others of their class pass (R353, R365). -/
def headOf (s : State) (cls : Nat) : Option LReq := s.gov.reqs.find? (fun q => q.cls == cls && !stackHeld s q)
def heads (s : State) : List LReq := (List.range 5).filterMap (headOf s)

/-- R354: heads that have waited across LEAVE_STARVE boundaries become starved. -/
def markStarved (s : State) : State :=
  let ids := ((heads s).filter (fun q => q.starved.isNone && decide (reg s Reg.leaveStarve ≤ q.waited))).map (·.id)
  { s with gov := { s.gov with reqs := s.gov.reqs.map (fun q => if ids.contains q.id then { q with starved := some s.gov.window } else q) } }

/-- What is left of the window's budget. -/
def remaining (s : State) : Nat := s.gov.budget - s.gov.spent

/-- R358: the link calibration traffic of a window, a free number of flits within the MAINT allowance while a link is UP;
the manual gives its schedule no figure (log entry 62). -/
def calibrate (s : State) : State :=
  if s.dieUp = 0 ∧ (getExt s 0).st ≠ .up ∧ (getExt s 1).st ≠ .up then s
  else
    let g := takeFree s
    let c := costEntry 6 (isEco s.gov.psWindow)
    maintDebit g.2 (Config.freeNat g.1 0 % ((maintCost - s.gov.maint) / c + 1) * c)

/-- The close of a window: its energy, and whether a request waited for budget (Table 11.8). -/
def windowClose (s : State) : State :=
  let s := calibrate s
  let g := s.gov
  let e := g.spent + g.maint + baseCost s (isEco g.psWindow) g.band
  let wait := granting g.psWindow && (heads s).any (fun q => decide (remaining s < costOf q.units (isEco g.ps)))
  let s := if wait then addReg s Reg.leaveWaitCnt 1 else s
  { s with gov := { s.gov with history := (e :: g.history).take 1000, energy := (g.energy + e) % 2 ^ 80 } }

/-- R344: the grantable budget of a window, from the values latched at its start. -/
def windowOpen (s : State) : State :=
  let g := s.gov
  let tt := reg s Reg.thermThrottle
  let t := reg s Reg.thermMax
  let band := bandOf tt g.band t
  let f := fThermOf tt t
  let eco := isEco g.ps
  let x : Int := (reg s Reg.pkgLimit * 65536 : Nat) - (baseCost s eco band : Int) - (maintCost : Int)
  let full : Nat := (f * x / 65536).toNat
  let on := granting g.ps
  let s := if 0 < g.debt then addReg s Reg.leaveDebtCnt 1 else s
  let w := g.window + 1
  let lead := (heads s).map (·.id)
  let debt := if on then g.debt - full else g.debt
  let gov := { s.gov with window := w, budget := if on then full - g.debt else 0, budgetNoDebt := if on then full else 0,
                          debt := debt, spent := 0, maint := 0, granted := false, band := band, tMax := t, fTherm := f,
                          psWindow := g.ps, droopWait := g.droopWait && g.stretch,
                          reqs := g.reqs.map (fun q => { q with waited := q.waited + 1, lead := lead.contains q.id }) }
  markStarved { s with gov := gov }

/-- R343, R344: a window ends and the next begins. -/
def execWindowStart (s : State) : Host.Outcome State Fault Refusal := .next (windowOpen (windowClose s))

-- requests (R348 to R352, Table 11.4)

/-- Source bytes of a descriptor's WELL leave, and the next span (R148). -/
def spanNext (u : Nat) (x : Station) (a : Active) : Nat :=
  let c := activeConv x u a
  min 65536 (byteOfElem c.sf (dD0 a.raw) (dTotal a.raw) - a.leaveAsked)

/-- R148: a pump span. The next is requested once the span in hand is half done. -/
def reqSpan (s : State) (u ch : Nat) : Option State :=
  let x := stn s u
  match (getChan x ch).active with
  | some a =>
    let n := spanNext u x a
    if a.ended.isSome || a.cancel || !needsWell a.raw || n == 0 || decide (32768 < a.leaveBytes) ||
        s.gov.reqs.any (reqOfSpan u ch) || decide (2 ≤ outstanding s (lstn s u)) then none
    else
      let p := placeReq s 2 (lstn s u) u (.span ch n) [(5, ceilDiv n 1024)]
      some (modActive p.1 u ch (fun a => { a with leaveAsked := a.leaveAsked + n }))
  | none => none

/-- Whether a requester of unit `u` has a tile that waits for a credit of destination `e`. -/
def wantsCredit (s : State) (u e : Nat) : Bool :=
  requesters.any (fun req => match sipOf (stn s u) req with
    | some q => q.phase == 0 && (q.tiles.head?.map tileDie) == some e
    | none => false)

/-- R319: the logical station of die `d` whose turn it is to take a credit of destination `e`: round robin, one tile at a
time, over the stations with a tile that waits for one and a leave request to place. -/
def creditTurn (s : State) (d e : Nat) : Option Nat :=
  roundRobin 128 (tabGet 127 s.credTurn (creditKey d e)) (fun ls =>
    decide (ls < stationsEnabled s) && dieOf s ls == d && decide (outstanding s ls < 2) && wantsCredit s (residentUnit s ls) e)

/-- R319, Table 11.4: the tile at the head of a requester takes a credit of its destination die, and its leave is
requested. -/
def reqTile (s : State) (u req : Nat) (what : Purpose) : Option State :=
  match sipOf (stn s u) req with
  | some q =>
    match q.tiles with
    | [] => none
    | t :: _ =>
      let d := u / 32
      let e := tileDie t
      if q.phase ≠ 0 ∨ 2 ≤ outstanding s (lstn s u) ∨ !creditLeft s d e ∨ creditTurn s d e ≠ some (lstn s u) then none
      else
        let n := tileFlits (t.data.length + t.scale.length)
        let units : Tab Nat := if t.xpkg then [(6, n), (7, n)] else [(6, n)]
        let s := { takeCredit s d e with credTurn := tabPut s.credTurn (creditKey d e) (lstn s u) }
        let p := placeReq s (if t.xpkg then 4 else 3) (lstn s u) u what units
        some (modSip p.1 u req (fun q => { q with phase := 1 }))
  | none => none

/-- Passes of `k` reduction positions in a mode. -/
def passesOf (mode k : Nat) : Nat := ceilDiv k (modeK mode)

/-- The ARRAY units of a chain's next burst: one output tile, one first-stage tile of PAIR and GLU, or one tile of keys
(R302). `held` is the number of ARRAY bursts it already has in hand or on request. -/
def arrayBurst (s : State) (u : Nat) (c : ChainRec) (held : Nat) : Tab Nat :=
  let r := c.raw
  let wf := cF (cWfmt r)
  let m1 := (chainMode wf (cF (cAfmt r))).getD 0
  let unit (m n : Nat) : Tab Nat := [(modeCost m, n), (3, n)]
  let first := (tileNeeds s u c).1 - 1
  match cId r with
  | 3 => if held < first then unit m1 (passesOf m1 (cK r)) else let m2 := (chainMode wf (cF (cMfmt r))).getD 0; unit m2 (passesOf m2 (cN2 r))
  | 4 => if held < first then unit m1 (2 * passesOf m1 (cK r)) else let m2 := (chainMode wf (cF (cMfmt r))).getD 0; unit m2 (passesOf m2 (cN2 r))
  | 5 | 6 => unit 0 (cK r / 64 + cN r / 64)
  | 7 => unit m1 (groupDies s * passesOf m1 (cK r / groupDies s))
  | _ => unit m1 (passesOf m1 (cK r))

/-- Requests of a thread's chain of a class. -/
def chainAsked (s : State) (u t cls : Nat) : Nat :=
  (s.gov.reqs.filter (fun q => q.unit == u && q.cls == cls && q.what == .chain t)).length

/-- R302: a chain requests leave for its next burst of a class, once the burst's operands are there. The cost of a
VECTOR burst is a free value: the manual gives a chain's vector work no occupancy (log entry 24). -/
def reqChain (s : State) (u t cls : Nat) : Option State :=
  match chainOf (stn s u) t with
  | some c =>
    let held := burstsHeld c cls + chainAsked s u t cls
    let n := tileNeeds s u c
    let need := if cls = 2 then b2n (pageDue c && stagingFree c)
      else if pageDue c then b2n (c.page != 0) else if cls = 0 then n.1 else n.2
    let here := pageDue c || operandsHere s u c
    if !chainRuns s u c || !here || decide (need ≤ held) || decide (2 ≤ outstanding s (lstn s u)) || decide (2 < cls) then none
    else
      let g := takeFree s
      let units : Tab Nat := if cls = 0 then arrayBurst s u c held
        else if cls = 1 then [(4, Config.freeNat g.1 0)] else [(5, ceilDiv (256 * cN c.raw) 1024)]
      some (placeReq (if cls = 1 then g.2 else s) cls (lstn s u) u (.chain t) units).1
  | none => none

/-- Stacks that a run of well addresses reaches. -/
def stackMask (a n : Nat) : Nat :=
  (wordsOf 4096 a n).foldl (fun m k => m ||| 2 ^ wellStack (k * 4096)) 0

/-- R352: a requester places a leave request. `kind` 0: the next span of channel `x` of unit `u`; 1: the tile of
channel `x`; 2: the next burst of class `y` of thread `x`'s chain; 3: the tile of thread `x`'s chain; 4: a hub access
to `y` bytes of the well from address `x`. -/
def execLeaveRequest (kind u x y : Nat) (s : State) : Host.Outcome State Fault Refusal :=
  let runs := engineOn s u
  match kind with
  | 0 => if runs ∧ x < 4 then enabled s (reqSpan s u x) else .next s
  | 1 => if runs ∧ x < 4 then enabled s (reqTile s u x (.pumpTile x)) else .next s
  | 2 => if runs then enabled s (reqChain s u x y) else .next s
  | 3 => match chainOf (stn s u) x with
    | some c => if runs then enabled s (reqTile s u (chainHalf c) (.chainTile x)) else .next s
    | none => .next s
  | 4 => withOperand (decide (0 < y) && decide (y ≤ 65536) && decide (wellDie x < dies s) && decide (wellOff x + y ≤ wellEnd))
      (guard s (decide (outstanding s hubReq < 2)) (placeReq s 2 hubReq 0 (.hub (stackMask x y) y) [(5, ceilDiv y 1024)]).1)
  | _ => .fault .badOperand

-- grants (R353 to R356)

/-- A granted command of an array or of the vector engine may start. -/
def grantArr (id : Nat) (eco : Bool) (a : Arr) : Arr :=
  { a with q := a.q.map (fun c => if c.req = some id then { c with req := none, paid := costEntry c.entry eco } else c) }
def grantVec (id : Nat) (eco : Bool) (q : List VCmd) : List VCmd :=
  q.map (fun c => if c.req = some id then { c with req := none, paid := c.occ * costEntry 4 eco } else c)

/-- What a grant gives its requester. -/
def grantTo (s : State) (q : LReq) (cost : Nat) (eco : Bool) : State :=
  match q.what with
  | .array => modStn s q.unit (fun x => { x with arrs := x.arrs.map (fun p => (p.1, grantArr q.id eco p.2)) })
  | .vector => modStn s q.unit (fun x => { x with vq := grantVec q.id eco x.vq })
  | .span ch n => modActive s q.unit ch (fun a => { a with leaveBytes := a.leaveBytes + n })
  | .pumpTile ch => modSip s q.unit ch (fun x => { x with phase := 2, paid := cost })
  | .chain t => modChain s q.unit t (fun c => { c with leave := c.leave ++ [(q.cls, cost)] })
  | .chainTile t => match chainOf (stn s q.unit) t with
    | some c => modSip s q.unit (chainHalf c) (fun x => { x with phase := 2, paid := cost })
    | none => s
  | .hub _ n => { s with gov := { s.gov with hubLeave := s.gov.hubLeave + n } }

/-- R355: a request larger than the budget with no debt. -/
def isLarge (s : State) (q : LReq) : Bool := decide (s.gov.budgetNoDebt < costOf q.units (isEco s.gov.ps))

/-- R354: of two starved heads, the one that became starved first, then the lower class. -/
def starvedBefore (a b : LReq) : Bool :=
  let x := a.starved.getD 0
  let y := b.starved.getD 0
  decide (x < y) || (x == y && decide (a.cls ≤ b.cls))
def firstStarved (l : List LReq) : Option LReq :=
  (l.filter (fun q => q.starved.isSome)).foldl (fun best q => match best with
    | none => some q
    | some b => if starvedBefore b q then some b else some q) none

/-- R353 to R355: the head that the Governor grants next, if any. -/
def grantPick (s : State) : Option LReq :=
  let hs := heads s
  let fits (q : LReq) : Bool := decide (costOf q.units (isEco s.gov.ps) ≤ remaining s)
  let large (q : LReq) : Bool := isLarge s q && q.lead && !s.gov.granted
  let order := [1, 2, 3, 4, 5].map (fun k => (s.gov.lastClass + k) % 5)
  let inOrder := order.filterMap (fun c => hs.find? (fun q => q.cls == c))
  match firstStarved hs with
  | some q => if fits q || large q then some q else none
  | none =>
    match inOrder.find? large with
    | some q => some q
    | none => inOrder.find? (fun q => fits q && !isLarge s q)

/-- Whether the Governor grants at all (R344, R360, R361, R364). -/
def mayGrant (s : State) : Bool :=
  granting s.gov.ps && !s.gov.stretch && !s.gov.droopWait && !s.gov.thermStop

/-- The grant of a request: it leaves its queue, its cost is debited to the window, and an excess over the budget of
the window becomes debt (R345, R355). -/
def grant (s : State) (q : LReq) : State :=
  let eco := isEco s.gov.ps
  let cost := costOf q.units eco
  let overWin := if isLarge s q then cost - s.gov.budget else 0
  let gov := { s.gov with reqs := s.gov.reqs.filter (fun p => p.id != q.id), spent := s.gov.spent + cost,
                          debt := s.gov.debt + overWin, lastClass := q.cls,
                          lastReq := tabPut s.gov.lastReq q.cls q.requester, granted := true }
  markStarved (grantTo { s with gov := gov } q cost eco)

/-- R353, R354: one grant. A head that has become one since the window began, or that a new LEAVE_STARVE has made starved,
counts as starved from now on. -/
def execLeaveGrant (s : State) : Host.Outcome State Fault Refusal :=
  match grantPick (markStarved s) with
  | some q => guard s (mayGrant s) (grant (markStarved s) q)
  | none => .next s

-- droop (R360, R361)

/-- R360: DROOP_N (source 0) or a droop detector (1 to 5: compute dies 0 to 3, hub) is asserted. A source asserted while
the stretch is in force continues the same event. -/
def execDroopAssert (src : Nat) (s : State) : Host.Outcome State Fault Refusal :=
  let g := s.gov
  let g' := { g with droopSrc := if g.droopSrc.contains src then g.droopSrc else g.droopSrc ++ [src], stretch := true, droopWait := true }
  withOperand (decide (src < 6))
    (.next (if g.stretch then { s with gov := g' } else addReg { s with gov := g' } Reg.droopCnt 1))

/-- R361: 1 µs after every source was deasserted the stretch ends; grants resume at the next window boundary. -/
def execDroopStretchEnd (s : State) : Host.Outcome State Fault Refusal :=
  guard s s.gov.stretch { s with gov := { s.gov with droopSrc := [], stretch := false } }

end Sys2Proof.Machine
end

