-- ==== Sys2Proof/Machine/Time.lean ====
section
/-! DEFINITION. Machine/Time.lean: the Timebase, the sump's intake, and the event mask (chapter 15; R464 to R470,
R476, R477, R484). -/

namespace Sys2Proof.Machine

/-- TIME_NS. -/
def timeNs (s : State) : Nat := s.time.time / 65536
/-- ±500 ppm in units of 2^−48 (R464). -/
def rhoMax : Nat := 140737488355

/-- R464: one tick of 1 ns nominal adds 65,536 × (1 + ρ) units; the time is held to 2^−48 of a unit. -/
def tick (b : TimeB) : TimeB :=
  let x : Int := ((b.time * 2 ^ 48 + b.sub + 65536 * 2 ^ 48 : Nat) : Int) + 65536 * b.rho
  let y := (x % ((2 ^ 128 : Nat) : Int)).toNat
  { b with time := y / 2 ^ 48, sub := y % 2 ^ 48 }

/-- R464. P4 Off loses the time (R465). -/
def execTimeTick (s : State) : Host.Outcome State Fault Refusal :=
  guard s (s.gov.ps != .p4) { s with time := tick s.time }

/-- A transition of the servo (R468): the count restarts, and TIME_STATE is signalled. -/
def servoGo (s : State) (t : Servo) : State :=
  setEvt { s with time := { s.time with servo := t, count := 0, good := 0 } } 10

/-- SRC of TIME_CTL. -/
def timeSrc (s : State) : Nat := bits (reg s Reg.timeCtl) 1 0

/-- TIME_OFFSET: θ in ns, sticking at ±(2^31 − 1) (Table 15.3). -/
def offsetWord (th : Int) : Nat := unsigned 32 (satI th (-2147483647) 2147483647)

/-- R467: a step sets the time to device time + θ. The time of the last PPS edge moves with it, so that the distance to
the next stays what it is (R466). -/
def timeStep (s : State) (th : Int) : State :=
  let t := unsigned 80 ((s.time.time : Int) + th)
  let last := s.time.ppsLast.map (fun p => unsigned 64 ((t / 65536 : Nat) + (p : Int) - (s.time.time / 65536 : Nat)))
  let s := { s with time := { s.time with time := t, stepDue := false, offset := 0, ppsLast := last } }
  setEvt (addReg (setField s Reg.timeCtl 2 2 0) Reg.timeStepCnt 1) 10

/-- The interval between measurements, in ns (R468). -/
def interval (s : State) : Nat := if timeSrc s = 1 then reg s Reg.timePtmMs * 1000000 else 1000000000

/-- R467: any other measurement is slewed by a proportional-integral law: ρ moves by the gains on the change of θ and on
θ, both over the interval, and is held within ±500 ppm. The gains are not stated; they are taken within bounds (in
units of 1/128) for which a constant offset is gone within 20 measurements (log entry 30). -/
def timeSlew (s : State) (th : Int) : State :=
  let kp : Int := (112 + Config.servoGain false % 33 : Nat)
  let ki : Int := (64 + Config.servoGain true % 65 : Nat)
  let d : Int := (kp * (th - s.time.offset) + ki * th) * 2 ^ 48 / ((128 * 65536 * interval s : Nat) : Int)
  { s with time := { s.time with rho := satI (s.time.rho + d) (-(rhoMax : Int)) rhoMax, offset := th } }

/-- Table 15.1: the transition a valid measurement makes, if any; `good` counts the measurements within the window. -/
def servoNext (b : TimeB) (inWin : Bool) : Option Servo :=
  match b.servo with
  | .free => some .locking
  | .locking => if inWin ∧ 15 ≤ b.good then some .locked else none
  | .locked => if inWin then none else some .locking
  | .holdover => some (if inWin then .locked else .locking)

/-- A valid measurement of the offset θ, in units of 2^−16 ns (R467, R468). TIME_OFFSET holds its whole ns, truncated
(log entry 52). -/
def measure (s : State) (th : Int) : State :=
  let inWin := decide (th.natAbs ≤ 65536 * reg s Reg.timeLockNs)
  let next := servoNext s.time inWin
  let s := setReg s Reg.timeOffset (offsetWord (Int.tdiv th 65536))
  let s := if s.time.stepDue then timeStep s th else timeSlew s th
  match next with
  | some t => servoGo s t
  | none => { s with time := { s.time with count := stick (2 ^ 24 - 1) (s.time.count + 1), good := if inWin then s.time.good + 1 else 0 } }

/-- R466, R469: a PTM dialogue ends, with the master time (ns) where it succeeded, and the device time is latched with its
fraction. One that fails gives no measurement. -/
def execPtmMeasure (master : Option Nat) (s : State) : Host.Outcome State Fault Refusal :=
  guard s (timeSrc s == 1 && s.gov.ps != .p4)
    (match master with
     | some m => if regBit s Reg.hostLink 13 then measure s ((m % 2 ^ 64 * 65536 : Nat) - (s.time.time : Int)) else s
     | none => s)

/-- R466: whether an edge lies 1 s ± 100 µs after the one before. -/
def ppsGood (s : State) : Bool :=
  match s.time.ppsLast with
  | some p =>
    let d : Int := Int.bmod ((timeNs s : Int) - p - 1000000000) (2 ^ 64)
    decide (d.natAbs ≤ 100000)
  | none => true

/-- R466: a rising edge of PPS_IN. A bad edge is counted and otherwise ignored: it is not the edge that a time of day
was given for, and the expected time stands. Without a time of day no edge is expected, and it gives no measurement
(DEDUCED, log entry 31). -/
def execPpsEdge (s : State) : Host.Outcome State Fault Refusal :=
  let now := timeNs s
  let good := ppsGood s
  let want := if s.time.todArmed then some (reg64 s Reg.timeTodLo) else s.time.ppsNext
  let b := if good then { s.time with todArmed := false, ppsNext := want.map (fun e => (e + 1000000000) % 2 ^ 64) } else s.time
  let t := setReg (setReg { s with time := { b with ppsLast := some now } } Reg.timePpsLo (now % 2 ^ 32)) Reg.timePpsHi (now / 2 ^ 32)
  guard s (s.gov.ps != .p4)
    (if timeSrc s ≠ 2 then t
     else if !good then addReg t Reg.timePpsBadCnt 1
     else match want with
       | some e => measure t (((e : Int) - now) * 65536)
       | none => t)

/-- R468: three intervals without a valid measurement. -/
def execServoHoldover (s : State) : Host.Outcome State Fault Refusal :=
  guard s (s.time.servo == .locking || s.time.servo == .locked) (servoGo s .holdover)

/-- R468, Table 15.3: a write of TIME_CTL. It writes SRC, so it enters FREE whatever its value; STEP_REQ reads 1 until the
step is made, so a 0 written to it clears nothing. -/
def writeTimeCtl (v : Nat) (s : State) : State :=
  let src := if v % 4 = 3 then 0 else v % 4
  let s := setReg s Reg.timeCtl (src + 4 * b2n (v.testBit 2 || regBit s Reg.timeCtl 2))
  servoGo { s with time := { s.time with stepDue := true } } .free

/-- R468: the host writes TIME_CTL, selecting the source. -/
def execTimeSrcSelect (v : Nat) (s : State) : Host.Outcome State Fault Refusal :=
  withOperand (decide (v < 2 ^ 32)) (.next (writeTimeCtl v s))

/-- R467: the host writes TIME_CTL with STEP_REQ set. -/
def execStepReq (v : Nat) (s : State) : Host.Outcome State Fault Refusal :=
  withOperand (decide (v < 2 ^ 32) && v.testBit 2) (.next (writeTimeCtl v s))

/-- R467: a write of TIME_TOD_HI arms a step at the next PPS edge. -/
def writeTodHi (v : Nat) (s : State) : State :=
  let s := setReg s Reg.timeTodHi v
  { s with time := { s.time with todArmed := true, stepDue := true } }
def execTimeTodHiWrite (v : Nat) (s : State) : Host.Outcome State Fault Refusal :=
  withOperand (decide (v < 2 ^ 32)) (.next (writeTodHi v s))

-- the sump (R476, R477)

/-- The codes that set FAULT_RECORD (Table 15.11). -/
def faultCode (c : Nat) : Bool := c == 1 || c == 2 || c == 8 || c == 0x10 || c == 0x41

/-- R476, R477: a record enters the sump. -/
def sumpEnter (s : State) (r : RecIn) : State :=
  let seq := reg s Reg.sumpWr
  let rec' : Rec := { time := s.time.time, kind := r.kind, index := r.index, code := r.code, seq := seq, ctx := r.ctx }
  let s := { s with sump := { s.sump with slots := tabPut s.sump.slots (seq % 64) rec' } }
  let s := setEvt (setReg s Reg.sumpWr ((seq + 1) % 2 ^ 32)) 0
  if faultCode r.code then setEvt s 13 else s

/-- R476: the sump accepts the oldest record of its intake queue. -/
def execSumpIntake (s : State) : Host.Outcome State Fault Refusal :=
  match s.sump.intake with
  | [] => .next s
  | r :: t => .next (sumpEnter { s with sump := { s.sump with intake := t } } r)

/-- Every record of the intake queue enters, in order. -/
def sumpDrain (s : State) : State := s.sump.intake.foldl sumpEnter { s with sump := { s.sump with intake := [] } }

/-- A record as its 64 bytes (Table 15.6). -/
def recBytes (r : Rec) : List Byte :=
  leBytes 8 (r.time / 65536) ++ leBytes 2 (r.time % 65536) ++ leBytes 2 (r.kind * 4096 + r.index) ++ leBytes 2 r.code ++
  leBytes 2 0 ++ leBytes 4 r.seq ++ leBytes 4 0 ++ (r.ctx ++ List.replicate 40 0).take 40

/-- R484: a write of EVT_MASK: a bit that is already set and becomes unmasked counts as a rise. Reserved bits are
stored as 0. -/
def writeEvtMask (v : Nat) (s : State) : State :=
  let old := reg s Reg.evtStatus &&& reg s Reg.evtMask
  evtRise (setReg s Reg.evtMask (v % 2 ^ 14)) old
def execEvtMaskWrite (v : Nat) (s : State) : Host.Outcome State Fault Refusal :=
  withOperand (decide (v < 2 ^ 32)) (.next (writeEvtMask v s))

end Sys2Proof.Machine
end

