-- ==== Sys2Proof/Machine/Reset.lean ====
section
/-! DEFINITION. Machine/Reset.lean: the kinds of reset, what each clears and keeps, and the pins that cause them
(R377, R558, R561 to R564, R571, R572, R590, R593, R600). -/

namespace Sys2Proof.Machine

/-- BOOT_STATUS.STAGE (Table 18.5). -/
def stage (s : State) : Nat := reg s Reg.bootStatus % 16
def setStage (s : State) (n : Nat) : State := setField s Reg.bootStatus 3 0 n
/-- Firmware runs (READY), the hub is not off, and the TAP has not ended the Supervisor (R511). -/
def supervisor (s : State) : Bool := stage s == 7 && s.gov.ps != .p4 && !s.tap.scan

-- zeroize on float 4 (R473, R499, R500)

/-- Bytes in the scope of a MODEL or FULL zeroize (R499): the wells' two regions, the stations, Text SRAM. -/
def zeroBytes (s : State) : Nat :=
  dies s * wellEnd + stationsEnabled s * 5623808 + (if hasText s then textSize else 0)

/-- R500: a zeroize that a reset interrupts ends its float with RESET, and is to start again from its first byte. -/
def restartZero (s : State) : State :=
  match s.sec.zero with
  | none => s
  | some z => floatEnd { s with sec := { s.sec with zero := some { z with result := 0xFD, begun := false } } } 4 false 0xFD

-- what the resets share (R377, Table 19.2)

/-- A load in progress ends with UNLOADED; its float, which the reset ends, with RESET (R474). -/
def endLoad (s : State) : State :=
  let st := imgState s
  if st = 1 ∨ st = 2 then refuseImage (floatEnd s 3 false 0xFD) 0xD 0 (theImage s).id (imageDies s st) else s

/-- R377: the function level reset's own effects: queue pairs, MSI-X and the configuration space at their reset values,
sessions and frames gone without completions, the model step aborted. -/
def hostReset (s : State) : State :=
  let s := (sids s).foldl dropSess (endLoad s)
  let s := abortChains { s with disp := { s.disp with step := none } }
  setField { s with qps := [], msix := {}, sess := [] } Reg.hostLink 13 13 0

/-- R562: every logical station is reset, and the image in READY is primed after it; in P3 Standby both wait for the
exit. -/
def stationsReset (s : State) : State :=
  let s := if s.disp.prime = .none then s else floatEnd s 3 false 0xFD
  let s := { s with disp := { s.disp with prime := .none, primeFails := 0 } }
  if s.gov.ps = .p3 then { s with boot := { s.boot with stnWait := true } }
  else retarget <| resetAll (if imgReady s then { s with disp := { s.disp with prime := .due .reset } } else s)

/-- Returns the words of some address ranges to their reset values, except those of `keep` (R563). -/
def resetWords (s : State) (ranges : List (Nat × Nat)) (keep : List Nat) : State :=
  let covered (a : Nat) : Bool := ranges.any (fun r => decide (r.1 ≤ a ∧ a ≤ r.2)) && !keep.contains a
  let s := ((s.regs.map (·.1)).filter covered).foldl (fun s a => setReg s a 0) s
  ((coldRegs []).filter (fun p => covered p.1)).foldl (fun s p => setReg s p.1 p.2.toNat) s

/-- Words that report the image, a link, a temperature or a state, or that are kept by their own rule (R563). -/
def stateWords : List Nat :=
  [Reg.bootStatus, Reg.bootCtl, Reg.imgStatus, Reg.imgShortLo, Reg.imgShortHi, Reg.imgModes, Reg.imgPool, Reg.sessCap,
   Reg.hostLink, Reg.thermMax, Reg.thermStackMax] ++ (List.range 5).map (Reg.thermDie + ·) ++ (List.range 8).map (Reg.thermStack + ·)

/-- R510: SCAN acts as BYPASS once D3 has ended. -/
def tapEndScan (s : State) : State := if s.tap.ir = 0x20 then { s with tap := { s.tap with ir := 0xFF } } else s

/-- R507, R509: the debug unit after a reset that sets the level to D0: no challenge, no unlock under way, no operation
(log entry 43). -/
def debugReset (s : State) : State :=
  { tapEndScan s with dbg := {}, sec := { s.sec with chal := none, unlock := none, waits := s.sec.waits.filter (·.isNone) } }

/-- R564: effects of a function level reset (R377, Table 19.2). -/
def execFlr (s : State) : Host.Outcome State Fault Refusal :=
  guard s (regBit s Reg.hostLink 12 && s.gov.ps != .p4) (voidChal (stationsReset (hostReset s)))

-- warm reset (R562, R563, R572)

def warmReset (s : State) : State :=
  let s := setReg { s with tap := { s.tap with scan := false } } Reg.hostLink 0
  let s := stationsReset (hostReset s)
  let s := resetWords s [(0x100, 0x17F), (0x2C0, 0x2FF)] stateWords
  restartZero (debugReset { s with wins := [] })

/-- PERST_N is held low for 1 µs or more. Before the register map is ready, and in P4 Off, nothing acts but the pin. -/
def execWarmReset (s : State) : Host.Outcome State Fault Refusal :=
  let t := { s with pins := { s.pins with perstLow := true } }
  guard s s.pins.pwrOk (if s.boot.mapReady && s.gov.ps != .p4 then warmReset t else t)

/-- R600, R572: PERST_N is high and the register map ready: the link trains to a rate and width (Table 18.9). -/
def execPcieLinkTrain (rate width : Nat) (s : State) : Host.Outcome State Fault Refusal :=
  withOperand (decide (1 ≤ rate ∧ rate ≤ 5) && [1, 2, 4, 8, 16].contains width)
    (guard s (s.boot.mapReady && s.pins.pwrOk && !s.pins.refLost && s.gov.ps != .p4 && !s.tap.scan && !regBit s Reg.hostLink 12)
      (setReg { s with pins := { s.pins with perstLow := false } } Reg.hostLink (rate + 16 * width + 4096)))

-- control reset (R544, R562, R563, R571)

/-- A control reset ends the passes of the patrol scrub, which report on floats 6 and 7 (R474), and empties the known-bad
tables, whose entries MEM_BADBEAT_CNT counts (R22, R155; log entry 69). -/
def ctrlScrub (s : State) : State :=
  floatEnd (floatEnd { s with scrubCist := 0, scrubWell := 0, wellBad := [], cistBad := [] } 6 false 0xFD) 7 false 0xFD

/-- A control reset's steps 3 to 5, once every station has been reset. -/
def ctrlFinish (s : State) : State :=
  let s := if imgState s = 3 then removeImage s else s
  let s := imgIgnored (setImgStatus s 0) false
  let s := if (getFloat s 5).st = 1 then floatEnd { s with trainLinks := 0 } 5 false 0xFD else s
  let s := unpair (extDisable (extDisable s 0) 1)
  let s := (dieLinks s).foldl clearLink { s with dieUp := 0 }
  let again := stage s == 7
  let s := resetWords s [(0x040, 0x0BF), (0x100, 0x27F), (0x2C0, 0x2FF), (0x340, 0x37F)] stateWords
  let gov : Gov := { s.gov with busy := none, again := false, autoIdle := false, history := [], budget := 0, budgetNoDebt := 0 }
  let s := debugReset { ctrlScrub s with
    wins := [], gov := gov, ldr := { s.ldr with savedSlots := [] },
    boot := { s.boot with ctrlRun := false, ctrlWait := false, ctrlBoot := again, fw := none, tryB := false } }
  restartZero (setReg s Reg.bootStatus (if regBit s Reg.bootCtl 1 then 2 else 1))

/-- A control reset is asked for: it waits for a lifecycle transition, and adds nothing to one in progress; FAILED is
left by a cold reset only. -/
def ctrlReset (s : State) : State :=
  if s.boot.ctrlRun || (s.boot.ctrlBoot && stage s != 7) || stage s == 8 || s.gov.ps == .p4 then s
  else if s.sec.lcTo.isSome then { s with boot := { s.boot with ctrlWait := true } }
  else
    let s := if s.disp.prime = .none then s else floatEnd s 3 false 0xFD
    let s := hostReset { s with boot := { s.boot with ctrlRun := true } }
    let s := { s with disp := { s.disp with prime := .none, primeFails := 0 } }
    let s := if s.gov.ps = .p3 then s else resetAll s
    if anyReset s then s else ctrlFinish s

/-- R187: after the drain, the station's state is cleared and it accepts signals again. The last release of a control
reset lets it go on. -/
def execStationResetRelease (ls : Nat) (s : State) : Host.Outcome State Fault Refusal :=
  let t := mapDone (endReset s ls) ls
  withOperand (decide (ls < stationsEnabled s))
    (guard s ((unitsOf s ls).all (fun u => (stn s u).inReset && drained (stn s u) && delivered s u))
      (if t.boot.ctrlRun && !anyReset t then ctrlFinish t else t))

/-- BOOT_CTL (Table 18.5, R544): SRC_SEL is stored; a confirmed CTRL_RESET comes before GO; GO acts in FW_WAIT only. -/
def writeBootCtl (v : Nat) (s : State) : State :=
  let s := setReg s Reg.bootCtl (2 * b2n (v.testBit 1))
  if v.testBit 8 && bits v 31 16 == 0x4C43 then ctrlReset s
  else if v.testBit 0 && stage s == 2 then
    setStage { s with boot := { s.boot with fw := some (3, memRead s.boot.stage 0 (reg s Reg.bootFwLen)) } } 3
  else s

/-- The host writes BOOT_CTL with GO set. -/
def execBootGo (v : Nat) (s : State) : Host.Outcome State Fault Refusal :=
  withOperand (decide (v < 2 ^ 32) && v.testBit 0) (guard s s.boot.mapReady (writeBootCtl v s))
/-- The host writes BOOT_CTL with CTRL_RESET set. -/
def execCtrlReset (v : Nat) (s : State) : Host.Outcome State Fault Refusal :=
  withOperand (decide (v < 2 ^ 32) && v.testBit 8) (guard s s.boot.mapReady (writeBootCtl v s))

-- a station's reset by the host (R558, R564)

/-- MAP_STN_RESET. -/
def writeStnReset (v : Nat) (s : State) : State :=
  let ls := v % 128
  if bits v 31 16 = 0x4C43 ∧ ls < stationsEnabled s ∧ !anyReset s ∧ !regBit s Reg.dispCtl 0 ∧ s.disp.step.isNone ∧
      stage s = 7 ∧ !s.boot.ctrlRun ∧ !s.boot.stnWait then beginReset (setField s Reg.mapStatus 1 1 0) ls
  else setField s Reg.mapStatus 1 1 1
def execMapStnReset (v : Nat) (s : State) : Host.Outcome State Fault Refusal :=
  withOperand (decide (v < 2 ^ 32)) (guard s s.boot.mapReady (writeStnReset v s))

-- power and clock (R561, R590, R593, R595)

/-- What remains once every volatile content is lost: the part and its fuses, and the pins. The fuse work of a FULL
zeroize that was under way is left for the next boot (R500). -/
def lostState (s : State) (pins : Pins) : State :=
  let full := s.boot.fullZero || (match s.sec.zero with | some z => z.kind == 2 | none => false)
  { coldState s.part s.fuses with
    free := s.free, out := s.out, pending := s.pending, pins := pins, boot := { fullZero := full } }

/-- R593: PWR_OK falls for 1 µs or more. -/
def execPwrOkFall (s : State) : Host.Outcome State Fault Refusal :=
  guard s s.pins.pwrOk (lostState s { s.pins with pwrOk := false, refLost := false, vid := 30, vidTo := 30, miso := [] })

/-- R561: PWR_OK rises after a low period of 1 µs or more: a cold reset. -/
def execColdReset (s : State) : Host.Outcome State Fault Refusal :=
  guard s (!s.pins.pwrOk && s.pins.vddIo) (lostState s { s.pins with pwrOk := true, refLost := false, vid := 30, vidTo := 30, miso := [] })

/-- R590: VDD_IO reaches 90 % of nominal, with PWR_OK held low: the VID outputs are valid and carry code 30. -/
def execVddIoValid (s : State) : Host.Outcome State Fault Refusal :=
  guard s (!s.pins.pwrOk) { s with pins := { s.pins with vddIo := true, vid := 30, vidTo := 30 } }

/-- R593: a rail leaves its tolerance while PWR_OK is high: the part stands until a cold reset. -/
def execRailOutOfTolerance (s : State) : Host.Outcome State Fault Refusal :=
  let t := lostState s { s.pins with refLost := true, miso := [] }
  guard s s.pins.pwrOk { t with gov := { t.gov with ps := .p4 } }

/-- R595: REFCLK stops, or leaves ±1,000 ppm: CCLK stops, the dies are gated, and code 10 is driven until a cold reset. -/
def execRefclkLoss (s : State) : Host.Outcome State Fault Refusal :=
  guard s (s.pins.pwrOk && !s.pins.refLost)
    { s with pins := { s.pins with refLost := true, vid := 10, vidTo := 10, miso := [] },
             gov := { s.gov with ps := .p4, busy := none, again := false, thermTrip := false }, boot := { s.boot with mapReady := false } }

/-- CP_ALERT_N is driven low (R484, R530, R595), unless the boundary register drives it (R511). -/
def alertLow (s : State) : Bool := s.boot.mapReady && !s.pins.refLost && s.pins.pwrOk && !s.tap.scan && alertAsserted s
/-- THERMTRIP_N is driven low (R366, R600), unless the boundary register drives it (R511). -/
def thermTripLow (s : State) : Bool := s.gov.thermTrip && !s.tap.scan

end Sys2Proof.Machine
end

