-- ==== Sys2Proof/Machine/Boot.lean ====
section
/-! DEFINITION. Machine/Boot.lean: the VID code, and the stages of boot (R489, R493, R495, R500, R565 to R570, R590, R591). -/

namespace Sys2Proof.Machine

-- VID (R590, R591)

/-- Table 20.8: the lowest code of a state's range and the number of codes above it. -/
def vidRange : PState → Nat × Nat
  | .p0 => (20, 20)
  | .p1 | .p2 => (0, 20)
  | .p3 | .p4 => (10, 0)

/-- The part takes a code of the state's range: from fused calibration and the temperature band, which the manual does
not quantify, so a free value within the range (log entry 44). A lowering is made at once; a raise goes by VID_STEP. -/
def vidGo (s : State) (p : PState) : State :=
  let r := vidRange p
  let g := takeFree s
  let v := r.1 + Config.freeNat g.1 0 % (r.2 + 1)
  { g.2 with pins := { g.2.pins with vidTo := v, vid := min g.2.pins.vid v } }

/-- R591: a raise moves by one code, and pauses while a droop source is asserted. -/
def execVidStep (s : State) : Host.Outcome State Fault Refusal :=
  guard s (decide (s.pins.vid < s.pins.vidTo) && s.gov.droopSrc.isEmpty)
    { s with pins := { s.pins with vid := s.pins.vid + 1 } }

-- stage ROM (R489, R493, R500, R565)

/-- R489: the highest state with at least two of its three fuses blown. -/
def lifeOf (f : Fuses) : Nat := if 2 ≤ f.retiredF then 3 else if 2 ≤ f.sealedF then 2 else if 2 ≤ f.openF then 1 else 0

/-- The ASCII bytes "Thopopin identity". -/
def idInfo : List Byte := ("Thopopin identity".toList).map (fun c => BitVec.ofNat 8 c.toNat)
/-- R493: the identity key's private scalar, as 48 little-endian bytes. -/
def idScalar (dus : List Byte) : List Byte :=
  leBytes 48 (leNat (hkdf dus (List.replicate 48 0) idInfo 56) % (p384n - 1) + 1)

/-- The fuse work of a FULL zeroize: the kill fuse, and the revoke fuses of slots 1 to 5 (Table 16.7). -/
def fullFuses (f : Fuses) : Fuses := { f with killed := true, revoked := f.revoked ||| 0x3E }

/-- R565: stage ROM. -/
def execBootRom (s : State) : Host.Outcome State Fault Refusal :=
  let f := if s.boot.fullZero then fullFuses s.fuses else s.fuses
  let key := idScalar f.dus
  let pub := ecdsaPublic key
  let t := { s with fuses := f, boot := { s.boot with fullZero := false, mapReady := true },
                    sec := { s.sec with lifecycle := lifeOf f, idKey := key, idPub := pub, devId := (sha384 pub).take 16 } }
  guard s (s.pins.pwrOk && !s.pins.refLost && stage s == 0 && !s.boot.mapReady)
    (vidGo (setStage t (if regBit s Reg.bootCtl 1 then 2 else 1)) .p0)

-- firmware (R495, R566 to R568)

/-- R567: stage FLASH reads a copy: the bytes that the flash answers, from the copy's first on. -/
def execBootFlash (bytes : List Byte) (s : State) : Host.Outcome State Fault Refusal :=
  withOperand (decide (bytes.length ≤ 4194304))
    (guard s (s.boot.mapReady && stage s == 1 && !s.tap.scan)
      (setStage { s with boot := { s.boot with fw := some (if s.boot.tryB then 2 else 1, bytes) } } 3))

/-- BODY_LEN of a firmware image, and whether step 1 of R566 passes. A flash byte that is not answered reads 0xFF. -/
def fwBody (bs : List Byte) : Nat := bfld bs 4 4
def fwFormatOk (s : State) (src : Nat) (bs : List Byte) : Bool :=
  let n := fwBody bs
  decide (16 ≤ bs.length) && bfld bs 0 4 == 0x5746504F && n % 4 == 0 && decide (4 ≤ n ∧ n ≤ 4194144) &&
  (src != 3 || reg s Reg.bootFwLen == 160 + n)
/-- The image, as long as its header says. -/
def fwImage (bs : List Byte) : List Byte :=
  let n := 160 + fwBody bs
  bs.take n ++ List.replicate (n - bs.length) 0xFF

/-- R566: the code of the first check that fails, or 0. -/
def fwCheck (s : State) (src : Nat) (bytes : List Byte) : Nat :=
  if !fwFormatOk s src bytes then 1
  else
    let bs := fwImage bytes
    let n := fwBody bs
    let sig := bsub bs (64 + n) 96
    let good := match slotKey s 0 with
      | some pub => ecdsaVerify pub (sha384 (bs.take 64)) sig
      | none => false
    if !good then 2
    else if sha384 (bsub bs 64 n) ≠ bsub bs 16 48 then 3
    else if bfld bs 8 1 < s.fuses.svn then 4
    else 0

/-- R566 to R568: stage FW_AUTH, on float 0. -/
def fwAuth (s : State) (src : Nat) (bytes : List Byte) : State :=
  let code := fwCheck s src bytes
  let n := if fwFormatOk s src bytes then 160 + fwBody bytes else 0
  let s := floatPos (floatStart { s with boot := { s.boot with fw := none } } 0 1 n) 0 n
  if code = 0 then
    let v := bfld bytes 11 1 + 2 ^ 8 * bfld bytes 10 1 + 2 ^ 16 * bfld bytes 9 1 + 2 ^ 24 * bfld bytes 8 1
    setStage (setField (setReg (floatEnd s 0 true 0) Reg.idFwVer v) Reg.bootStatus 5 4 (if src = 3 then 2 else 1)) 4
  else
    let s := if code = 2 then pushRec s ⟨0xB, 0, 0x72, leBytes 1 2 ++ leBytes 1 0 ++ leBytes 1 s.sec.fails⟩ else s
    let s := setField (floatEnd s 0 false code) Reg.bootStatus 15 8 code
    if src = 1 then setStage { s with boot := { s.boot with tryB := true } } 1 else setStage s 2
def execFwAuth (s : State) : Host.Outcome State Fault Refusal :=
  match s.boot.fw with
  | some (src, bytes) => guard s (stage s == 3 && !s.tap.scan) (fwAuth s src bytes)
  | none => .next s

-- hardware stages (R565, R568 to R570)

/-- A hardware code stops the boot in FAILED. -/
def bootFail (s : State) (code : Nat) : State := setStage (setField s Reg.bootStatus 15 8 code) 8

/-- A boot reaches READY in P0 Run. -/
def bootReady (s : State) : State :=
  let s := vidGo { s with gov := { s.gov with ps := .p0 }, boot := { s.boot with ctrlBoot := false } } .p0
  setStage s 7

/-- R565: stage LINK_TRAIN: `result` is 0, or 0x10 DIE_POWER, or 0x11 LINK_FAIL. After a control reset READY follows. -/
def execBootLinkTrain (result : Nat) (s : State) : Host.Outcome State Fault Refusal :=
  let t := (dieLinks s).foldl (fun s l => clearLink { s with dieUp := s.dieUp ||| 2 ^ l } l) s
  withOperand (result == 0 || result == 0x10 || result == 0x11)
    (guard s (stage s == 4 && !s.tap.scan)
      (if result ≠ 0 then bootFail s result else if s.boot.ctrlBoot then bootReady t else setStage t 5))

/-- R116, R569: what training found of stack `st`: its failed channels, of which number 16 is the spare. -/
def mapSpare (failed : List (Nat × Nat)) (st : Nat) : Nat :=
  match (failed.filter (fun p => p.1 == st)).map (·.2) with
  | [] => 0
  | [c] => if c = 16 then 0 else 1 + 2 * c
  | _ => 2 ^ 8

/-- R569: stage MEM_TRAIN. `failed` lists the channels that fail, as stack and physical channel. -/
def execMemTrain (failed : List (Nat × Nat)) (s : State) : Host.Outcome State Fault Refusal :=
  let n := 17 * stackCount s
  let bad := (List.range (stackCount s)).filter (fun st => (mapSpare failed st).testBit 8)
  let t := floatPos (floatStart s 1 2 n) 1 n
  let t := (List.range (stackCount s)).foldl (fun s st => setReg s (Reg.mapSpare + st) (mapSpare failed st)) t
  let t := setField t Reg.mapSummary 11 8 (stackCount s - bad.length)
  withOperand (failed.all (fun p => decide (p.1 < stackCount s ∧ p.2 < 17)) && failed.eraseDups.length == failed.length)
    (guard s (stage s == 5 && !s.tap.scan)
      (if bad.isEmpty then setStage (floatEnd t 1 true 0) 6 else bootFail (floatEnd t 1 false 0x12) 0x12))

/-- MAP_SUMMARY.DEGRADED (R570). -/
def degraded (s : State) : Bool :=
  decide (stationsEnabled s < stationsTotal s) || (List.range (stackCount s)).any (fun st => regBit s (Reg.mapSpare + st) 0)

/-- R570: stage SELF_TEST. The stations that fail leave the map; `badStacks` and `hubBad` (hub SRAMs, Text SRAM and
die-link loopback) end the boot. Where several codes apply, that of the stations comes first (log entry 45). -/
def execSelfTest (badStations : List (Nat × Nat)) (badStacks : List Nat) (hubBad : Bool) (s : State) : Host.Outcome State Fault Refusal :=
  let n := stationsEnabled s + stackCount s + 1 + b2n (hasText s)
  let t := floatPos (floatStart s 2 3 n) 2 n
  let t := badStations.foldl (fun s p =>
    if (dieMask s p.1).testBit p.2 then setReg s (Reg.mapDieEn + p.1) (dieMask s p.1 - 2 ^ p.2) else s) t
  let code := if (List.range (dies s)).any (fun d => decide (dieCount t d < 30)) then 0x13
    else if !badStacks.isEmpty then 0x12 else if hubBad then 0x14 else 0
  let t := setField t Reg.mapSummary 16 16 (b2n (degraded t))
  withOperand (badStations.all (fun p => decide (p.1 < dies s ∧ p.2 < 32)) && badStacks.all (fun k => decide (k < stackCount s)))
    (guard s (stage s == 6 && !s.tap.scan)
      (if code = 0 then bootReady (floatEnd t 2 true 0) else bootFail (floatEnd t 2 false code) code))

end Sys2Proof.Machine
end

