-- ==== Sys2Proof/Machine/Security.lean ====
section
/-! DEFINITION. Machine/Security.lean: lifecycle, signing slots, attestation, the DRBG and its entropy source, zeroize,
and the unlock of debug levels (R488 to R500, R506 to R509). -/

namespace Sys2Proof.Machine

/-- A value written to a register. -/
def isWord (v : Nat) : Bool := decide (v < 2 ^ 32)
/-- CONFIRM 0x4C43. -/
def confirmed (v : Nat) : Bool := bits v 31 16 == 0x4C43
/-- DBG_LEVEL. -/
def debugLevel (s : State) : Nat := reg s Reg.dbgLevel % 4

-- the end of a lifecycle transition (R490)

/-- A transition completes: one record, SECURITY, and the debug level at D0. -/
def lcDone (s : State) (new : Nat) (full : Bool) : State :=
  let old := s.sec.lifecycle
  let s := { s with sec := { s.sec with lifecycle := new, lcTo := none, keyStep := 0, retireAsked := false, retireOk := false } }
  let s := setReg (setReg (tapEndScan s) Reg.dbgLevel 0) Reg.lcStatus 0
  let s := setEvt (pushRec s ⟨0xB, 0, 0x73, leBytes 1 old ++ leBytes 1 new ++ leBytes 1 (b2n full)⟩) 12
  if s.boot.ctrlWait then ctrlReset { s with boot := { s.boot with ctrlWait := false } } else s

-- unlock granted (R508)

/-- The DEBUG_UNLOCK record (Table 16.15). -/
def unlockRec (s : State) (level old slot cnt : Nat) (jtag : Bool) : State :=
  pushRec s ⟨0xB, 0, 0x70, leBytes 1 level ++ leBytes 1 old ++ leBytes 1 (b2n jtag) ++ leBytes 1 slot ++ leBytes 4 cnt⟩
def setDbgStatus (s : State) (v : Nat) : State := setField s Reg.dbgStatus 3 0 v
/-- Steps 2 and 3 of R508. -/
def unlockDone (s : State) (u : Unlock) : State :=
  let old := debugLevel s
  let s := setReg { s with sec := { s.sec with unlock := none } } Reg.dbgLevel (u.level + 4 * b2n u.jtag)
  setEvt (unlockRec (setDbgStatus s 4) u.level old u.slot u.cnt u.jtag) 12

-- zeroize (R498 to R500)

/-- One session ends with NO_MODEL: its in-order frames complete in order, and it is closed (R499 step 1). -/
def zeroSess (s : State) (sid : Nat) : State :=
  let x := getSess s sid
  if !x.isOpen then s
  else
    let s := endGen s sid 0xB 0xFFFFFFFF
    let s := if x.busy then dropJob s sid x.qp else s
    let x := getSess s sid
    let s := doneList (modSess s sid (fun x => { x with busy := false, pend := [] })) 0xB x.pend
    let s := x.armed.foldl (fun s f => done s f 0 (leBytes 4 0)) s
    let s := freePages s (getSess s sid)
    let s := modSess s sid (fun x => { x with
      isOpen := false, closing := true, faulted := false, pages := [], masks := [], tokens := [], comp := 0, row := none,
      ready := none, armed := [] })
    flushSess s sid

/-- The RESULT of a load (UNLOADED), or of a priming of its own, that a zeroize ends: for the latter Table 15.13 has none,
so it is a free value (log entry 46). -/
def zeroLoad (s : State) : State :=
  let g := takeFree s
  if (getFloat s 3).op = 5 then floatEnd g.2 3 false (Config.freeNat g.1 0 % 256) else floatEnd s 3 false 0xD

/-- Steps 1 and 2 of R499, once no model step is in progress. A load or priming under way ends (log entry 46). One that a
reset has interrupted reports anew (R500). -/
def zeroBegin (s : State) (z : Zero) : State :=
  let s := (sids s).foldl zeroSess s
  let s := zeroLoad (if (getFloat s 4).st = 1 then s else floatStart s 4 6 (zeroBytes s))
  let s := { s with ldr := { s.ldr with image := none, used := [], savedSlots := [] }, disp := { s.disp with prime := .none, primeFails := 0 },
                    sec := { s.sec with zero := some { z with begun := true } } }
  parkAll (setImgStatus (setReg s Reg.sessCap 0) 0)

/-- A unit with everything of R498's scope that it holds cleared. -/
def zeroStn (x : Station) : Station :=
  { x with trf := [], side := [], trfErr := [], trfFree := [], masks := [], pm := [], pmErr := [], pmHeld := [] }

/-- Whether a unit stands still: its threads stopped, its engines and queues empty. -/
def unitQuiet (x : Station) : Bool :=
  allStopped x && x.pipe.isEmpty && x.chains.isEmpty && drained x && x.vq.isEmpty && x.chans.all (fun p => p.2.queue.isEmpty) && x.closing.isNone

/-- Steps 3 and 4 of R499, the fuse work of FULL, and what waits for the zeroize: an unlock; a transition to RETIRED goes
on with its state fuses. -/
def zeroFinish (s : State) (z : Zero) : State :=
  let n := zeroBytes s
  let s := clearText { hubSpend s (dies s * wellEnd) with
    cist := [], cistErr := [], cistWb := [], cistBad := [], well := [], wellErr := [], wellBad := [], reread := none, rbLen := [],
    telem := { s.telem with bufs := [] }, stns := s.stns.map (fun p => (p.1, zeroStn p.2)) }
  let s := { s with text := { s.text with copy := [] }, sec := { s.sec with keyGone := true, zero := none },
                    fuses := if z.kind = 2 then fullFuses s.fuses else s.fuses }
  let s := setEvt (pushRec (floatEnd s 4 true 0) ⟨0xB, 0, 0x71,
    leBytes 1 z.kind ++ leBytes 1 z.cause ++ leBytes 1 z.result ++ leBytes 5 0 ++ leBytes 8 n⟩) 12
  retarget (match s.sec.unlock with | some u => unlockDone s u | none => s)

/-- A zeroize starts: its float, and step 1 at once where no model step is in progress. -/
def startZero (s : State) (kind cause : Nat) : State :=
  let z : Zero := { kind := kind, cause := cause }
  let s := floatStart { s with sec := { s.sec with zero := some z } } 4 6 (zeroBytes s)
  if s.disp.step.isNone && supervisor s then zeroBegin s z else s

/-- R500: a MODEL zeroize is asked for: in P3 Standby it is held pending. One that runs already covers it. -/
def askZero (s : State) (cause : Nat) : State :=
  if s.gov.ps = .p4 ∨ s.sec.zero.isSome ∨ s.sec.zpend.isSome then s
  else if s.gov.ps = .p3 then { s with sec := { s.sec with zpend := some { kind := 1, cause := cause } } }
  else startZero s 1 cause

/-- SEC_ZEROIZE. -/
def writeZeroize (v : Nat) (s : State) : State := if v.testBit 0 && confirmed v then askZero s 0 else s

/-- A step of a zeroize in progress. -/
def zeroStep (s : State) (z : Zero) : State :=
  if z.begun then zeroFinish s z else zeroBegin s z

/-- R499: the host writes SEC_ZEROIZE, or (none) a zeroize in progress goes on: it begins once the model step has ended,
and clears once every unit stands still and the hub has WELL leave (R350). -/
def execZeroize (w : Option Nat) (s : State) : Host.Outcome State Fault Refusal :=
  match w with
  | some v => withOperand (isWord v) (.next (writeZeroize v s))
  | none =>
    match s.sec.zero with
    | some z =>
      guard s (supervisor s && !s.boot.ctrlRun && s.gov.ps != .p3 && s.disp.step.isNone &&
        (!z.begun || (s.stns.all (fun p => unitQuiet p.2 && !p.2.inReset) && hubReady s (dies s * wellEnd)))) (zeroStep s z)
    | none => .next s

-- lifecycle (R488 to R490)

/-- The fuses of a lifecycle state that are blown. -/
def lifeFuses (f : Fuses) (k : Nat) : Nat := if k = 1 then f.openF else if k = 2 then f.sealedF else f.retiredF

/-- R490: the refusal of a transition, or 0. A request for the current state completes a transition to it that a loss of
power has cut short (R489). -/
def lcRefusal (s : State) (target : Nat) : Nat :=
  let cur := s.sec.lifecycle
  let st := imgState s
  let keyed (k : Nat) : Bool := (slotKey s k).isSome
  if s.sec.lcTo.isSome then 1
  else if s.gov.ps ≠ .p0 ∧ s.gov.ps ≠ .p1 then 5
  else if st = 1 ∨ st = 2 ∨ st = 3 then 4
  else if target = cur ∧ 1 ≤ cur ∧ lifeFuses s.fuses cur < 3 then 0
  else if target ≤ cur ∨ (cur = 0 ∧ target = 2) then 2
  else if target = 1 then (if s.sec.ownerStage.length = 32 then 0 else 3)
  else if target = 2 then (if keyed 4 && (keyed 1 || keyed 2 || keyed 3) then 0 else 3)
  else if cur = 2 && !s.sec.retireOk then 6
  else 0

/-- SEC_LC_REQ. A first request for RETIRED in SEALED finds no response; one given after it lets the next go on
(log entry 47). A transition that is not refused is in progress from then on. -/
def writeLcReq (v : Nat) (s : State) : State :=
  let target := v % 4
  if !confirmed v then s
  else
    let r := lcRefusal s target
    if r ≠ 0 then setReg { s with sec := { s.sec with retireAsked := s.sec.retireAsked || r == 6 } } Reg.lcStatus r
    else
      let t := { s with sec := { s.sec with lcTo := some target } }
      if target = 3 ∧ s.sec.lifecycle ≠ 3 then startZero t 2 2 else t

/-- Bytes of fuses blown onto others: a blown fuse stays so. -/
def orBytes (n : Nat) (x y : List Byte) : List Byte := (List.range n).map (fun i => x.getD i 0 ||| y.getD i 0)
/-- The staged owner key. -/
def stagedKey (s : State) : List Byte := (List.range 32).map (fun i => tabGet 0 s.sec.ownerStage i)

/-- R489: the next fuses that a transition to `target` blows: for BLANK to OPEN first the owner key and then its check,
what an interrupted transition has left of them staying blown (log entry 70); then the three fuses of the state, in
order. -/
def fuseStep (s : State) (target : Nat) : Fuses :=
  let f := s.fuses
  if target = 1 ∧ s.sec.lifecycle = 0 ∧ s.sec.keyStep = 0 then
    { f with ownerKey := some (orBytes 32 (f.ownerKey.getD []) (stagedKey s)) }
  else if target = 1 ∧ s.sec.lifecycle = 0 ∧ s.sec.keyStep = 1 then
    { f with ownerCheck := orBytes 48 f.ownerCheck (sha384 (stagedKey s)) }
  else if target = 1 then { f with openF := f.openF + 1 }
  else if target = 2 then { f with sealedF := f.sealedF + 1 }
  else { f with retiredF := f.retiredF + 1 }

/-- A transition in progress goes on by one step of its fuse work, after the zeroize of one to RETIRED. -/
def lcStep (s : State) (target : Nat) : State :=
  let keys := target == 1 && s.sec.lifecycle == 0 && decide (s.sec.keyStep < 2)
  let t := { s with fuses := fuseStep s target, sec := { s.sec with keyStep := if keys then s.sec.keyStep + 1 else s.sec.keyStep } }
  if !keys && decide (3 ≤ lifeFuses t.fuses target) then lcDone t target (target == 3 && s.sec.lifecycle != 3) else t

/-- R489, R490: the host writes SEC_LC_REQ, or (none) a transition in progress blows its next fuses. -/
def execLcTransition (w : Option Nat) (s : State) : Host.Outcome State Fault Refusal :=
  match w with
  | some v => withOperand (isWord v) (.next (writeLcReq v s))
  | none => enabled s (s.sec.lcTo.bind (fun t => if s.sec.zero.isNone && s.pins.pwrOk then some (lcStep s t) else none))

/-- R492: whether a confirmed write of SEC_SLOT_CTL asks for something its command admits. -/
def slotAllowed (s : State) (v : Nat) : Bool :=
  let k := v % 8
  let programmed := s.fuses.slots.any (fun p => p.1 == k)
  match v.testBit 8, v.testBit 9 with
  | true, false => decide (1 ≤ k ∧ k ≤ 4) && s.sec.lifecycle == 1 && !programmed
  | false, true => decide (1 ≤ k ∧ k ≤ 5) && (s.sec.lifecycle == 1 || s.sec.lifecycle == 2)
  | _, _ => false

/-- SEC_SLOT_CTL. Bytes of the staged key that were never written are 0 (log entry 48). -/
def writeSlotCtl (v : Nat) (s : State) : State :=
  let k := v % 8
  if !confirmed v then s
  else if !slotAllowed s v then setReg s Reg.lcStatus 2
  else
    let f := if v.testBit 8 then { s.fuses with slots := tabPut s.fuses.slots k ((List.range 96).map (fun i => tabGet 0 s.sec.slotStage i)) }
      else { s.fuses with revoked := s.fuses.revoked ||| 2 ^ k }
    setReg { s with fuses := f } Reg.lcStatus 0
/-- The host writes SEC_SLOT_CTL with PROGRAM. -/
def execSlotProgram (v : Nat) (s : State) : Host.Outcome State Fault Refusal :=
  withOperand (isWord v && v.testBit 8) (.next (writeSlotCtl v s))
/-- The host writes SEC_SLOT_CTL with REVOKE. -/
def execSlotRevoke (v : Nat) (s : State) : Host.Outcome State Fault Refusal :=
  withOperand (isWord v && v.testBit 9) (.next (writeSlotCtl v s))

/-- SVN of the running firmware (Table 18.3). -/
def runningSvn (s : State) : Nat := bits (reg s Reg.idFwVer) 31 24
/-- R495: SEC_SVN_ADVANCE. -/
def writeSvnAdvance (v : Nat) (s : State) : State :=
  let n := min (min (v % 128) (runningSvn s)) 64
  { s with fuses := { s.fuses with svn := max s.fuses.svn n } }
def execSvnAdvance (v : Nat) (s : State) : Host.Outcome State Fault Refusal :=
  withOperand (isWord v) (.next (writeSvnAdvance v s))

-- attestation, challenges and the DRBG (R494, R497, R506)

/-- Bytes of a staged table. -/
def stageBytes (t : List (Nat × BitVec 8)) (n : Nat) : List Byte := (List.range n).map (fun i => tabGet 0 t i)
/-- A staged table that holds these bytes from its first on. -/
def stagePut (t : List (Nat × BitVec 8)) (bs : List Byte) : List (Nat × BitVec 8) := memWrite t 0 bs

/-- R494, Table 16.5: the report replaces the table's contents. -/
def makeReport (s : State) (gen : Nat) : State :=
  let id := if imgReady s then (theImage s).id else List.replicate 16 0
  let body := stageBytes s.sec.attest 32 ++ (s.sec.devId ++ List.replicate 16 0).take 16 ++ (id ++ List.replicate 16 0).take 16 ++
    leBytes 1 s.sec.lifecycle ++ leBytes 1 (debugLevel s) ++ leBytes 1 s.fuses.svn ++ leBytes 1 (runningSvn s) ++
    leBytes 1 (b2n s.sec.keyGone) ++ leBytes 3 0
  let sig := (ecdsaSign gen s.sec.idKey (sha384 body) ++ List.replicate 96 0).take 96
  { s with sec := { s.sec with attest := stagePut s.sec.attest (body ++ sig) } }

/-- R506, Table 16.9: a challenge is issued. -/
def makeChal (s : State) (gen level : Nat) (jtag : Bool) : State :=
  let n := s.sec.unlockCnt + 1
  let nonce := (List.range 32).map (fun i => Config.freeByte gen i)
  let bs := (s.sec.devId ++ List.replicate 16 0).take 16 ++ nonce ++ leBytes 1 level ++ leBytes 1 s.sec.lifecycle ++ leBytes 2 0 ++
    leBytes 4 n ++ leBytes 8 0
  setDbgStatus { s with sec := { s.sec with chal := some { bytes := bs, level := level, start := timeNs s }, chalJtag := jtag, unlockCnt := n } } 1

/-- One request of the DRBG: an attestation (none) or a challenge. It waits where a reseed is due and cannot be made. -/
def drbgServe (s : State) (w : Option (Nat × Bool)) : State :=
  match drbgTake s with
  | none => { s with sec := { s.sec with waits := s.sec.waits ++ [w] } }
  | some g => match w with
    | none => makeReport g.2 g.1
    | some (l, j) => makeChal g.2 g.1 l j

/-- A reseed is made: what waited for it goes on, in order. -/
def reseed (s : State) : State :=
  s.sec.waits.foldl drbgServe { s with sec := { s.sec with drbg := 0, waits := [] } }

/-- R497: the DRBG reseeds from the entropy source. -/
def execDrbgReseed (s : State) : Host.Outcome State Fault Refusal := guard s s.sec.entOk (reseed s)
/-- R497: a health test fails. -/
def execEntropyHealthFail (s : State) : Host.Outcome State Fault Refusal :=
  .next (setEvt { s with sec := { s.sec with entOk := false } } 12)
/-- R497: the source passes its start-up tests. -/
def execEntropyStartupPass (s : State) : Host.Outcome State Fault Refusal :=
  .next (reseed { s with sec := { s.sec with entOk := true } })

/-- SEC_ATTEST_CTL; a request while one waits adds nothing. -/
def writeAttestCtl (v : Nat) (s : State) : State :=
  if v.testBit 0 && !s.sec.waits.contains none then drbgServe s none else s
def execAttest (v : Nat) (s : State) : Host.Outcome State Fault Refusal :=
  withOperand (isWord v) (.next (writeAttestCtl v s))

-- unlock (R506 to R509, Table 16.12)

/-- Table 16.12: the entry path of a level: whether it needs a challenge, and whether it zeroizes. -/
def unlockPath (life level : Nat) : Bool × Bool :=
  if life = 1 then (false, level == 3) else if life = 2 then (true, decide (2 ≤ level)) else (false, false)

/-- R508: an unlock is granted, after the zeroize that its path names. In P3 Standby a zeroizing one is deferred. -/
def grantUnlock (s : State) (u : Unlock) : State :=
  if !(unlockPath s.sec.lifecycle u.level).2 then unlockDone s u
  else
    let s := { s with sec := { s.sec with unlock := some u } }
    let s := setDbgStatus s (if s.gov.ps = .p3 then 9 else 3)
    askZero s 1

/-- A relock (R506, R508); from D3 a control reset follows. -/
def relock (s : State) (level : Nat) (jtag : Bool) : State :=
  let old := debugLevel s
  let s := unlockRec (setDbgStatus (setReg (tapEndScan s) Reg.dbgLevel (level + 4 * b2n jtag)) 0) level old 0xFF 0 jtag
  if old = 3 then ctrlReset s else s

/-- A write of DBG_REQ without GO: a new request ends the last challenge and an unlock under way (log entry 49). -/
def levelRequest (s : State) (level : Nat) (jtag : Bool) : State :=
  let s := { s with sec := { s.sec with chal := none, unlock := none, waits := s.sec.waits.filter (·.isNone) } }
  let cur := debugLevel s
  let locked := decide (8 ≤ s.sec.fails)
  if level < cur then relock s level jtag
  else if level = cur then setDbgStatus s (if locked then 7 else 0)
  else if s.gov.ps = .p4 then setDbgStatus s 8
  else if locked then setDbgStatus s 7
  else if level = 7 then (if s.sec.lifecycle = 2 then drbgServe (setDbgStatus s 0) (some (7, jtag)) else setDbgStatus s 0)
  else if (unlockPath s.sec.lifecycle level).1 then drbgServe (setDbgStatus s 0) (some (level, jtag))
  else grantUnlock s { level := level, slot := 0xFF, cnt := 0, jtag := jtag }

/-- R506, R507: GO: the response in table DBG_RESP is verified. Once 8 in a row have failed, every unlock is refused with
LOCKED, and what challenge was open is void. -/
def respond (s : State) : State :=
  if 8 ≤ s.sec.fails then setDbgStatus s 7
  else match s.sec.chal with
  | none => setDbgStatus s 6
  | some c =>
    let bs := stageBytes s.sec.resp 100
    let slot := bfld bs 0 2
    let admitted := slot == 4 || (slot == 5 && c.level != 7)
    let good := admitted && (match slotKey s slot with
      | some pub => ecdsaVerify pub (sha384 c.bytes) (bsub bs 4 96)
      | none => false)
    if good then
      let s := { s with sec := { s.sec with chal := none, fails := 0 } }
      if c.level = 7 then setDbgStatus { s with sec := { s.sec with retireOk := s.sec.retireAsked } } 4
      else grantUnlock s { level := c.level, slot := slot, cnt := s.sec.unlockCnt, jtag := s.sec.chalJtag }
    else
      let n := s.sec.fails + 1
      let s := addReg { s with sec := { s.sec with fails := n, chal := if 8 ≤ n then none else some c } } Reg.authFailCnt 1
      let s := pushRec s ⟨0xB, 0, 0x72, leBytes 1 (if c.level = 7 then 1 else 0) ++ leBytes 1 slot ++ leBytes 1 n⟩
      setDbgStatus s (if 8 ≤ n then 7 else 5)

/-- DBG_REQ (Table 16.14): GO acts on the response; without GO the LEVEL is requested. -/
def writeDbgReq (jtag : Bool) (v : Nat) (s : State) : State :=
  let l := v % 8
  let l := if 4 ≤ l ∧ l ≤ 6 then 0 else l
  let s := setReg s Reg.dbgReq l
  if v.testBit 8 then respond s else levelRequest s l jtag
/-- R506: DBG_REQ is written over the Control Port, or through DBG_ACCESS, without GO. -/
def execDbgReqWrite (jtag : Bool) (v : Nat) (s : State) : Host.Outcome State Fault Refusal :=
  withOperand (isWord v && !v.testBit 8) (.next (writeDbgReq jtag v s))
/-- R506: DBG_REQ is written with GO. -/
def execDbgResponse (jtag : Bool) (v : Nat) (s : State) : Host.Outcome State Fault Refusal :=
  withOperand (isWord v && v.testBit 8) (.next (writeDbgReq jtag v s))

/-- R507: 60 s pass from a challenge's issue. -/
def execChallengeExpire (s : State) : Host.Outcome State Fault Refusal := guard s s.sec.chal.isSome (voidChal s)

end Sys2Proof.Machine
end

