-- ==== Sys2Proof/Machine/PState.lean ====
section
/-! DEFINITION. Machine/PState.lean: temperatures, thermal stop and trip, and the power states (R341, R356, R362 to
R372, R500). -/

namespace Sys2Proof.Machine

-- leave that is not spent (R356)

/-- What a tile whose leave is granted has not spent. -/
def sipPaid (q : Sip) : Nat := if q.phase = 2 then q.paid else 0
def sipFree (q : Sip) : Sip := if q.phase = 2 then { q with paid := 0 } else q

/-- R356: unspent leave of one unit goes back to the window: of commands that have not begun, chain bursts, pump spans and
siphon tiles. What was granted may still start (log entry 50). -/
def creditUnit (s : State) (u : Nat) (x : Station) : State :=
  let s := x.chans.foldl (fun s p => match p.2.active with | some a => creditSpans s u p.1 a | none => s) s
  let n := arrLeave x + (x.chains.flatMap (fun c => c.leave.map (·.2))).foldl (· + ·) 0 +
    ((x.chains.map (fun c => sipPaid c.sip)).foldl (· + ·) 0) +
    ((x.chans.map (fun p => (p.2.active.map (fun a => sipPaid a.sip)).getD 0)).foldl (· + ·) 0)
  setStn (creditBack s n) u { x with
    arrs := x.arrs.map (fun a => (a.1, { a.2 with q := a.2.q.map (fun c => if c.phase = .queued then { c with paid := 0 } else c) })),
    vq := x.vq.map (fun c => { c with paid := 0 }),
    chans := x.chans.map (fun p => (p.1, { p.2 with active := p.2.active.map (fun a => { a with sip := sipFree a.sip }) })),
    chains := x.chains.map (fun c => { c with leave := c.leave.map (fun l => (l.1, 0)), sip := sipFree c.sip }) }

/-- R356: unspent leave of every unit, and of the hub, goes back to the window. -/
def creditAll (s : State) : State :=
  let s := s.stns.foldl (fun s p => creditUnit s p.1 p.2) s
  let n := ceilDiv s.gov.hubLeave 1024 * costEntry 5 (s.gov.ps == .p1)
  creditBack { s with gov := { s.gov with hubLeave := 0 } } n

-- P4 Off (R366, R372, R465, R473, R500, R507, R509)

/-- The operations that P4 Off ends: a zeroize counts as complete (R500); the RESULT of any other is not stated, a free
value (log entry 71). -/
def floatsOff (s : State) : State :=
  (List.range 6).foldl (fun s n =>
    if (getFloat s n).st ≠ 1 then s
    else if n = 4 then floatEnd s 4 true 0
    else let g := takeFree s; floatEnd g.2 n false (Config.freeNat g.1 0 % 256)) s

/-- The part enters P4 Off: sessions end without a completion, records on their way enter the sump, volatile contents
and the time are lost, and only the hub's register map and sump stay readable. -/
def enterP4 (s : State) : State :=
  let s := floatsOff (sumpDrain (creditAll ((sids s).foldl dropSess s)))
  let full := match s.sec.zero with | some z => z.kind == 2 | none => false
  let s := clearText { s with
    gov := { s.gov with ps := .p4, busy := none, again := false, autoIdle := false, reqs := [] },
    stns := [], resident := [], heldSig := [], cist := [], cistErr := [], cistWb := [], cistBad := [], well := [],
    wellErr := [], wellBad := [], reread := none, rbLen := [], hops := [], arrivals := [], dieUp := 0, ext := [], credits := [],
    paired := false, held := false, trainLinks := 0, orphans := [], sess := [], disp := {}, ldr := {}, time := {}, qps := [], msix := {},
    latch := s.latch.filter (fun p => decide (p.1 < Reg.timeFrac ∨ Reg.timePpsBadCnt < p.1)), telem := { s.telem with bufs := [] },
    boot := { s.boot with fullZero := s.boot.fullZero || full, ctrlRun := false, ctrlWait := false, stnWait := false },
    sec := { s.sec with zero := none, zpend := none, unlock := none, waits := [], lcTo := none, keyStep := 0, keyGone := true } }
  let s := { debugReset (voidChal s) with text := {} }
  let s := setReg (setReg (setReg s Reg.dbgLevel 0) Reg.hostLink 0) Reg.sessCap 0
  let s := if reg s Reg.dbgCmdStatus = 1 then setReg s Reg.dbgCmdStatus 4 else s
  vidGo (setImgStatus (resetWords s [(Reg.timeFrac, Reg.timePpsBadCnt)] []) 0) .p4

-- heat (R362, R364 to R366)

/-- The hottest of some readings. -/
def hottest (l : List Nat) : Nat := l.foldl max 0
/-- A sensor's place in Table 15.7: compute dies 0 to 3, hub 4. -/
def sensorIndex (k : Nat) : Nat := if k < 32 then k / 8 else 4

/-- R362: a temperature in units of 0.001 °C as a reading in units of 0.25 °C: the nearest, and upward from midway. -/
def reading (v : Nat) : Nat := (v + 125) / 250

/-- Stores a sampling: `dieT` holds 8 readings of each compute die and then the hub's two, `stackT` one per stack. In P3 Standby the dies' last readings stand (R546). -/
def storeTemps (s : State) (dieT stackT : List Nat) : State :=
  let n := 8 * dies s
  let keep := s.gov.ps == .p3
  let at_ (k : Nat) : Nat := if k < n then (if keep then tabGet 0 s.gov.sensors k else dieT.getD k 0) else dieT.getD k 0
  let keys := (List.range n).map (fun k => (k, at_ k)) ++ [(32, at_ n), (33, at_ (n + 1))]
  let s := { s with gov := { s.gov with sensors := keys, stackCount := stackT.mapIdx (fun k v => (k, v)) } }
  let s := (List.range (dies s)).foldl (fun s d =>
    setReg s (Reg.thermDie + d) (hottest ((keys.filter (fun p => p.1 / 8 == d)).map (·.2)))) s
  let s := setReg s Reg.thermHub (hottest [at_ n, at_ (n + 1)])
  let s := (List.range (stackCount s)).foldl (fun s k => setReg s (Reg.thermStack + k) (stackT.getD k 0)) s
  setReg (setReg s Reg.thermMax (hottest (keys.map (·.2)))) Reg.thermStackMax (hottest stackT)

/-- What a sampling has to report, as source index (Table 15.7), code and temperature. -/
abbrev ThermNote := Nat × Nat × Nat

/-- R476: the records of one cycle enter by source index; at one index the stop before the trip. -/
def addNote (n : ThermNote) : List ThermNote → List ThermNote
  | [] => [n]
  | m :: t => if n.1 < m.1 ∨ (n.1 = m.1 ∧ n.2.1 < m.2.1) then n :: m :: t else m :: addNote n t

/-- R364: thermal stop begins at 105 °C and ends at 103 °C. -/
def thermalStop (s : State) : State × List ThermNote :=
  let t := reg s Reg.thermMax
  if 420 ≤ t then
    if s.gov.thermStop then (s, [])
    else
      let k := ((s.gov.sensors.find? (fun p => p.2 == t)).map (·.1)).getD 0
      ({ s with gov := { s.gov with thermStop := true } }, [(sensorIndex k, 0x40, t)])
  else if t ≤ 412 then ({ s with gov := { s.gov with thermStop := false } }, []) else (s, [])

/-- R365: a stack's stop begins at 95 °C and ends at 92 °C; at 85 °C its refresh doubles. -/
def stackStop (q : State × List ThermNote) (k t : Nat) : State × List ThermNote :=
  let s := { q.1 with gov := { q.1.gov with stackHot := q.1.gov.stackHot.filter (· != k) ++ (if 340 ≤ t then [k] else []) } }
  if 380 ≤ t then
    if s.gov.stackStop.contains k then (s, q.2)
    else ({ s with gov := { s.gov with stackStop := s.gov.stackStop ++ [k] } }, addNote (8 + k, 0x40, t) q.2)
  else if t ≤ 368 then ({ s with gov := { s.gov with stackStop := s.gov.stackStop.filter (· != k) } }, q.2) else (s, q.2)

/-- R366: the sensor, or else the stack, at 115 °C that trips the part. -/
def thermTrip (s : State) : Option ThermNote :=
  match s.gov.sensors.find? (fun p => decide (460 ≤ p.2)), s.gov.stackCount.find? (fun p => decide (460 ≤ p.2)) with
  | some p, _ => some (sensorIndex p.1, 0x41, p.2)
  | none, some p => some (8 + p.1, 0x41, p.2)
  | none, none => none

/-- A thermal record; a stop counts, and has its event (R364, R365). -/
def thermRec (s : State) (n : ThermNote) : State :=
  let s := pushRec s ⟨9, n.1, n.2.1, leBytes 2 n.2.2⟩
  if n.2.1 = 0x40 then setEvt (addReg s Reg.thermStopCnt 1) 6 else s

/-- R362 to R366: a sampling of the temperatures, in units of 0.001 °C (log entry 72). A trip takes the part to P4 Off,
its record with the time of its entry. -/
def execThermSample (dieT stackT : List Nat) (s : State) : Host.Outcome State Fault Refusal :=
  let t := storeTemps s (dieT.map reading) (stackT.map reading)
  let q := (stackT.mapIdx (fun k v => (k, reading v))).foldl (fun q p => stackStop q p.1 p.2) (thermalStop t)
  let notes := match thermTrip t with | some n => addNote n q.2 | none => q.2
  let t' := notes.foldl thermRec q.1
  withOperand (dieT.length == 8 * dies s + 2 && stackT.length == stackCount s && (dieT ++ stackT).all (fun v => decide (reading v < 65536)))
    (guard s (s.gov.ps != .p4)
      (if (thermTrip t).isSome then enterP4 { t' with gov := { t'.gov with thermTrip := true } } else t'))

-- requests for a state (R341, R368, Table 11.8)

/-- PWR_CTL. A TARGET asks for a transition of Table 11.7, at once or after the one in progress (R368). -/
def writePwrCtl (v : Nat) (s : State) : State :=
  let t := min (v % 8) 4
  let s := setReg s Reg.pwrCtl (t + 256 * bits v 9 8 + 65536 * max 1 (bits v 31 16))
  let s := { s with gov := { s.gov with autoIdle := s.gov.autoIdle && t != 2 } }
  if transiting s then { s with gov := { s.gov with again := true } } else { s with gov := { s.gov with busy := wanted s } }
def execPwrCtlWrite (v : Nat) (s : State) : Host.Outcome State Fault Refusal :=
  withOperand (isWord v) (.next (writePwrCtl v s))

-- transitions (R356, R368 to R372)

/-- The VID code moves only where it lies outside the state's range (R590, log entry 44). -/
def vidFit (s : State) (p : PState) : State :=
  let r := vidRange p
  let inR (v : Nat) : Bool := decide (r.1 ≤ v ∧ v ≤ r.1 + r.2)
  if inR s.pins.vid && inR s.pins.vidTo then s else vidGo s p
/-- A change to P0 raises the voltage first (R591): the transition begins with the raise, and goes on once it has ended. -/
def raiseFirst (s : State) (p : PState) (t : State) : Host.Outcome State Fault Refusal :=
  if p = .p0 ∧ s.pins.vid < 20 then (if s.pins.vid < s.pins.vidTo then .next s else .next (vidGo s .p0))
  else .next t

/-- Table 11.7: stations may be gated: threads PARKED, in WAIT or trapped, and pump queues empty. -/
def mayGate (s : State) : Bool :=
  s.stns.all (fun p => threads.all (fun t => (thr p.2 t).st != .run) && p.2.chans.all (fun c => c.2.queue.isEmpty && c.2.active.isNone))

/-- Enters P0, P1 or P2. -/
def moveTo (s : State) (p : PState) (auto : Bool) : State :=
  let s := if p = .p2 then creditAll s else s
  retarget (vidFit { s with gov := { s.gov with ps := p, busy := none, autoIdle := auto } } p)

/-- R455: a load in progress holds back P2, P3 and P4. -/
def loading (s : State) : Bool := imgState s == 1 || imgState s == 2

/-- R368: a requested transition among P0, P1, P2, or to P4, while no zeroize runs (R499): between P0 and P1 at once,
another once no step and no load is in progress. -/
def execPstateTransition (s : State) : Host.Outcome State Fault Refusal :=
  let still := s.disp.step.isNone && !loading s
  match s.gov.busy with
  | none => .next s
  | some p =>
    if s.sec.zero.isSome || s.tap.scan then .next s
    else match p with
    | .p4 => guard s still (enterP4 s)
    | .p3 => .next s
    | .p2 => guard s (still && granting s.gov.ps && mayGate s) (moveTo s .p2 false)
    | p => if s.gov.ps = .p3 ∨ s.gov.ps = .p4 then .next s else raiseFirst s p (moveTo s p false)

/-- Whether a session has prefill or decode work (R370). -/
def hasWork (s : State) : Bool := s.sess.any (fun p => servable p.2 && (p.2.gen.isSome || decide (p.2.comp < p.2.len)))

/-- R370: IDLE_US µs have passed without work. -/
def execAutoIdleEnter (s : State) : Host.Outcome State Fault Refusal :=
  guard s (regBit s Reg.pwrCtl 8 && granting s.gov.ps && !hasWork s && s.disp.step.isNone && s.disp.prime == .none &&
    s.gov.busy.isNone && s.sec.zero.isNone && mayGate s && !loading s && !s.tap.scan) (moveTo s .p2 true)

-- P3 Standby (R124, R341, R370, R371)

/-- R370 step 2: nothing of a unit is under way; its waiting threads stand at their park points. -/
def standbyReady (x : Station) : Bool :=
  threads.all (fun t => (thr x t).st != .run) && x.chains.isEmpty && drained x && x.vq.isEmpty &&
  x.chans.all (fun p => p.2.queue.isEmpty) && x.closing.isNone && !x.inReset

/-- An Extium Link goes down for P3 Standby, and its peer is told. -/
def standbyLink (s : State) (l : Nat) : State :=
  let e := getExt s l
  if e.st = .up ∨ training e then extDown s l 8 else s

/-- Steps 2 to 4 of the entry: the slots are saved, links go down, the dies are gated and lose their contents. How many
bytes the saved slots take is not stated: a free value (log entry 61). -/
def enterP3 (s : State) : State :=
  let us := liveUnits s
  let g := takeFree s
  let s := creditAll (hubSpend (us.foldl sumNcu g.2) (Config.freeNat g.1 0 % 2 ^ 24))
  let saved := us.map (fun u => (u, (stn s u).slots))
  let pair := s.paired
  let s := if pair && !s.roleNow then sendCtrl s 0 2 [] else s
  let s := standbyLink (standbyLink s 0) 1
  retarget (vidFit { s with
    held := pair, ldr := { s.ldr with savedSlots := saved },
    dieUp := 0, hops := s.hops.filter (fun p => decide (16 ≤ p.1)), arrivals := [], credits := [], orphans := [],
    stns := [], resident := [], heldSig := [], cist := [], cistErr := [], cistWb := [], cistBad := [],
    rbLen := s.rbLen.filter (fun p => decide (2 ^ 31 ≤ p.1)),
    gov := { s.gov with ps := .p3, busy := none, autoIdle := false, reqs := [] } } .p3)

/-- The entry into P3 Standby: threads are asked to park, and once all stands still and the hub has WELL leave for the
slots (R350) the dies are gated. -/
def standby (s : State) : Host.Outcome State Fault Refusal :=
  if s.disp.step.isSome ∨ s.sec.zero.isSome ∨ s.disp.prime ≠ .none ∨ loading s ∨ s.tap.scan ∨ s.gov.ps = .p3 ∨ s.gov.ps = .p4 then .next s
  else if s.stns.all (fun p => standbyReady p.2) then guard s (hubReady s 1) (enterP3 s)
  else guard s (s.stns.any (fun p => !p.2.parkReq)) (parkAll s)

/-- R370: the part, or the primary of a pair with both, enters P3 Standby. -/
def execP3Entry (s : State) : Host.Outcome State Fault Refusal :=
  if s.gov.busy = some .p3 ∧ !isSecondary s then standby s else .next s
/-- R341: the secondary is told of P3 Standby by a CTRL flit on link 0. -/
def execPairStandby (s : State) : Host.Outcome State Fault Refusal :=
  if isSecondary s ∧ (getExt s 0).st = .up then standby s else .next s

/-- The exit from P3 Standby to `p`: the dies have power and their links are trained; a pending zeroize runs in place of
priming (R500); after a reset in P3 the image is primed afresh (R562). -/
def leaveP3 (s : State) (p : PState) : State :=
  let s := (dieLinks s).foldl (fun s l => clearLink { s with dieUp := s.dieUp ||| 2 ^ l } l) s
  let what : PrimeOf := if s.boot.stnWait then .reset else .p3
  let s := vidFit { s with gov := { s.gov with ps := p, busy := none }, boot := { s.boot with stnWait := false } } p
  retarget (match s.sec.zpend with
    | some z => startZero { s with sec := { s.sec with zpend := none } } z.kind z.cause
    | none => if imgReady s then { s with disp := { s.disp with prime := .due what, primeFails := 0 } } else s)

/-- R370, R341: the exit from P3 Standby; that of a secondary follows its primary's. -/
def execP3Exit (s : State) : Host.Outcome State Fault Refusal :=
  let own : Option PState := if reg s Reg.pwrCtl % 8 = 1 then some .p1 else some .p0
  let dst := if s.tap.scan then none else if s.held && s.roleNow then own else s.gov.busy
  match dst with
  | some .p0 => if s.gov.ps = .p3 then raiseFirst s .p0 (leaveP3 s .p0) else .next s
  | some .p1 => guard s (s.gov.ps == .p3) (leaveP3 s .p1)
  | _ => .next s

end Sys2Proof.Machine
end

