-- ==== Sys2Proof/Machine/Debug.lean ====
section
/-! DEFINITION. Machine/Debug.lean: the debug command interface (R501 to R505, Table 16.13). Every operation starts with
a write of DBG_CMD; the placing of results in DBG_DATA and of tile addresses is the model's (log entry 51). -/

namespace Sys2Proof.Machine

/-- Fields of DBG_CMD (R502). -/
def cOp (w : Nat) : Nat := w % 256
def cStn (w : Nat) : Nat := bits w 14 8
def cThr (w : Nat) : Nat := bits w 17 16
def cSpace (w : Nat) : Nat := bits w 23 20
/-- The stored word: other bits are reserved. -/
def cWord (w : Nat) : Nat := w % 2 ^ 15 + 2 ^ 16 * cThr w + 2 ^ 20 * cSpace w

/-- DBG_CMD_STATUS (Table 16.14): 0 OK, 1 BUSY, 2 DENIED, 3 NOT_HALTED, 4 POWERED_DOWN, 5 BAD_ARG. -/
def cmdEnd (s : State) (code : Nat) : State := setReg s Reg.dbgCmdStatus code

/-- DBG_ADDR, and the words and bytes of DBG_DATA. -/
def dbgAddr (s : State) : Nat := reg64 s Reg.dbgAddrLo
def putData (s : State) (ws : List Nat) : State := (ws.take 16).mapIdx (fun k v => (k, v)) |>.foldl (fun s p => setReg s (Reg.dbgData + p.1) p.2) s
def dataBytes (s : State) : List Byte := (List.range 16).flatMap (fun k => leBytes 4 (reg s (Reg.dbgData + k)))
def putBytes (s : State) (bs : List Byte) : State := putData s ((List.range 16).map (fun k => leNat ((bs.drop (4 * k)).take 4)))

/-- Takes a command: none runs, its level is in force, its station exists, and what it touches has power (Table 16.13;
the order of the checks is the model's, log entry 51). `go` gets the resident unit of the station. -/
def takeCmd (s : State) (w level : Nat) (station power : Bool) (go : State → Nat → State) : State :=
  if reg s Reg.dbgCmdStatus = 1 then s
  else
    let s := setReg s Reg.dbgCmd (cWord w)
    if debugLevel s < level then cmdEnd s 2
    else if station && decide (stationsEnabled s ≤ cStn w) then cmdEnd s 5
    else if s.gov.ps = .p4 ∨ (power ∧ s.gov.ps = .p3) then cmdEnd s 4
    else go s (residentUnit s (cStn w))

/-- R503: the station is halted. -/
def isHalted (x : Station) : Bool :=
  allStopped x && x.chains.isEmpty && x.closing.isNone && x.vq.isEmpty && x.vexec.isNone &&
  x.arrs.all (fun p => p.2.q.isEmpty) && x.chans.all (fun p => p.2.queue.isEmpty && p.2.active.isNone)

-- observation (D1)

def dbgReadThread (w : Nat) (s : State) : State :=
  takeCmd s w 1 true true (fun s u =>
    let h := thr (stn s u) (cThr w)
    cmdEnd (putData s [stCode h.st, seenPc (stn s u) (cThr w), h.cause, h.vl, h.spill]) 0)
/-- e0 to e31 are 32 words, of which DBG_DATA holds 16: DBG_ADDR names the first of them. -/
def dbgReadEvents (w : Nat) (s : State) : State :=
  takeCmd s w 1 true true (fun s u =>
    let a := dbgAddr s
    if 16 < a then cmdEnd s 5
    else cmdEnd (putData s ((List.range 16).map (fun k => (evGet (stn s u) (a + k)).toNat))) 0)
def dbgReadPump (w : Nat) (s : State) : State :=
  takeCmd s w 1 true true (fun s u =>
    let c := getChan (stn s u) (cThr w)
    cmdEnd (putData s [c.last % 2 ^ 32, c.last / 2 ^ 32, c.firstErr % 2 ^ 32, c.firstErr / 2 ^ 32, c.errCnt]) 0)

-- control (D2)

def dbgHalt (w : Nat) (s : State) : State :=
  takeCmd s w 2 true true (fun s u =>
    let s := modStn s u (fun x => { x with parkReq := true })
    cmdEnd { s with dbg := { s.dbg with run := some ⟨0x10, u, 0⟩ } } 1)
def dbgResume (w : Nat) (s : State) : State :=
  takeCmd s w 2 true true (fun s u =>
    if s.gov.ps = .p2 then cmdEnd s 4
    else cmdEnd (modStn s u (fun x => notStuck (resumeAll x (threads.map (fun t => b2n (x.haltWas.contains t)))))) 0)
/-- R504: a resume with KEEP of one thread, which also clears the park request (R180). -/
def dbgStep (w : Nat) (s : State) : State :=
  takeCmd s w 2 true true (fun s u =>
    let t := cThr w
    if s.gov.ps = .p2 then cmdEnd s 4
    else if (thr (stn s u) t).st ≠ .parked then cmdEnd s 3
    else
      let s := modStn s u (fun x => notStuck { modThr x t (fun h => { h with st := .run }) with
        parkReq := false, stepThread := some t, stepIssued := false })
      cmdEnd { s with dbg := { s.dbg with run := some ⟨0x12, u, t⟩ } } 1)
def dbgBrk (arm : Bool) (w : Nat) (s : State) : State :=
  takeCmd s w 2 true true (fun s u => cmdEnd (modStn s u (fun x => { x with brkArmed := arm })) 0)
def dbgReadScalar (w : Nat) (s : State) : State :=
  takeCmd s w 2 true true (fun s u =>
    let h := thr (stn s u) (cThr w)
    if 32 ≤ dbgAddr s then cmdEnd s 5
    else if h.st ≠ .parked then cmdEnd s 3
    else cmdEnd (putData s [(sread h (dbgAddr s)).toNat]) 0)
def dbgWriteScalar (w : Nat) (s : State) : State :=
  takeCmd s w 2 true true (fun s u =>
    let t := cThr w
    if 32 ≤ dbgAddr s then cmdEnd s 5
    else if (thr (stn s u) t).st ≠ .parked then cmdEnd s 3
    else cmdEnd (modStn s u (fun x => modThr x t (fun h => swrite h (dbgAddr s) (BitVec.ofNat 32 (reg s Reg.dbgData))))) 0)

/-- A tile address: tile-register bytes from 0, sidecar bytes from 262,144, masks from 311,296 to 315,391; 64 bytes each
time, aligned. -/
def tileSpaceEnd : Nat := 315392
def tileAddrOk (a : Nat) : Bool := a % 64 == 0 && decide (a < tileSpaceEnd)
def tileGet (s : State) (u a : Nat) : State × List Byte :=
  if a < 262144 then tileRead s u false (a / 8192) (a % 8192) 64
  else if a < 311296 then let b := a - 262144; tileRead s u true (b / 1536) (b % 1536) 64
  else
    let b := (a - 311296) / 8
    (s, (List.range 8).flatMap (fun k => leBytes 8 (tabGet (0 : BitVec 64) (stn s u).masks (b + k)).toNat))
/-- The bytes of a sidecar write from offset `o`, with the reserved bytes from 0x514 as 0 (Table 08.2). -/
def sideBytes (o : Nat) (bs : List Byte) : List Byte := bs.mapIdx (fun i b => if o + i < 0x514 then b else 0)
def tilePut (s : State) (u a : Nat) (bs : List Byte) : State :=
  if a < 262144 then tileWrite s u false (a / 8192) (a % 8192) bs
  else if a < 311296 then let b := a - 262144; tileWrite s u true (b / 1536) (b % 1536) (sideBytes (b % 1536) bs)
  else
    let b := (a - 311296) / 8
    modStn s u (fun x => { x with masks := (List.range 8).foldl (fun t k =>
      tabSet (0 : BitVec 64) t (b + k) (BitVec.ofNat 64 (leNat ((bs.drop (8 * k)).take 8)))) x.masks })
def dbgReadTile (w : Nat) (s : State) : State :=
  takeCmd s w 2 true true (fun s u =>
    if !tileAddrOk (dbgAddr s) then cmdEnd s 5
    else if !isHalted (stn s u) then cmdEnd s 3
    else let r := tileGet s u (dbgAddr s); cmdEnd (putBytes r.1 r.2) 0)

-- full (D3)

def dbgWriteTile (w : Nat) (s : State) : State :=
  takeCmd s w 3 true true (fun s u =>
    if !tileAddrOk (dbgAddr s) then cmdEnd s 5
    else if !isHalted (stn s u) then cmdEnd s 3
    else cmdEnd (tilePut s u (dbgAddr s) (dataBytes s)) 0)

/-- R505: whether 64 bytes from DBG_ADDR lie in a space: cistern slice, well (image and KV region and system area),
program memory by byte address, Text SRAM. -/
def memAddrOk (s : State) (space a : Nat) : Bool :=
  match space with
  | 0 => decide (a + 64 ≤ cistEnd)
  | 1 => decide (a < 2 ^ 40) && decide (wellDie a < dies s) && decide (wellOff a + 64 ≤ wellEnd)
  | 2 => a % 4 == 0 && decide (a + 64 ≤ 65536)
  | 3 => hasText s && decide (a + 64 ≤ textSize)
  | _ => false
/-- The hub's own accesses to the well. -/
def hubAcc : WellAcc := { acc := 2 }

/-- R409: what a debugger finds is no access made by a model step. -/
def notStep (s t : State) : State := { t with disp := { t.disp with faultSeen := s.disp.faultSeen } }

/-- R166: a word of program memory read: a single-bit error is corrected, written back and counted; an uncorrectable one
is counted. -/
def pmRead (s : State) (u a : Nat) : State × Bool :=
  match pmMark (stn s u) a with
  | none => (s, true)
  | some .single => (addReg (modStn s u (fun x => { x with pmErr := tabDel x.pmErr a })) Reg.pmCe 1, true)
  | some (.bad _) => (addReg s Reg.pmUe 1, false)
def pmReads (s : State) (u a n : Nat) : State × Option (List Byte) :=
  let r := (List.range n).foldl (fun q k => let z := pmRead q.1 u (a + k); (z.1, q.2 && z.2)) (s, true)
  (r.1, if r.2 then some ((List.range n).flatMap (fun k => leBytes 4 (pmWord (stn s u) (a + k)))) else none)

/-- R419: an uncorrectable word of Text SRAM that no session's work meets: the record's SID is free (log entry 35). -/
def textUeFree (s : State) (w : Nat) : State :=
  let g := takeFree s
  textUe g.2 w (Config.freeNat g.1 0 % 4096)
/-- A read of Text SRAM under its error code. -/
def textRead (s : State) (a n : Nat) : State × Option (List Byte) :=
  let c := textReadsOf s (wordsOf 8 a n)
  match c.2 with
  | none => (c.1, some (memRead s.text.sram a n))
  | some w => (textUeFree c.1 w, none)
/-- A write of Text SRAM: a whole word clears its error; part of a word is read first (log entry 66). -/
def textPiece (s : State) (a : Nat) (bs : List Byte) : State × Bool :=
  let put (s : State) : State := { s with text := { s.text with sram := memWrite s.text.sram a bs } }
  if bs.length = 8 then
    (put { s with text := { s.text with err := tabDel s.text.err (a / 8), repair := s.text.repair.filter (· != a / 8) } }, true)
  else
    let c := textReadsOf s [a / 8]
    match c.2 with
    | none => (put c.1, true)
    | some w => (textUeFree c.1 w, false)
def textWrite (s : State) (a : Nat) (bs : List Byte) : State × Bool :=
  (pieces 8 (bs.length / 8 + 2) a bs).foldl (fun q p => let z := textPiece q.1 p.1 p.2; (z.1, q.2 && z.2)) (s, true)

/-- R505: a memory operation that its level and its memory admit: a read, or a write of DBG_DATA. -/
def memGo (op w : Nat) (s : State) (u : Nat) : State :=
  let sp := cSpace w
  let a := dbgAddr s
  let bs := dataBytes s
  let got (r : State × Option (List Byte)) : State := match r.2 with
    | some bs => cmdEnd (putBytes r.1 bs) 0
    | none => cmdEnd r.1 5
  let put (r : State × Bool) : State := cmdEnd r.1 (if r.2 then 0 else 5)
  let s := { s with dbg := { s.dbg with run := none } }
  notStep s (
    if op = 0x21 then
      (if sp = 0 then got (cistRead s u a 64 3)
       else if sp = 1 then got (wellRead (hubSpend s 64) a 64 hubAcc)
       else if sp = 2 then got (pmReads s u (a / 4) 16)
       else got (textRead s a 64))
    else if sp = 0 then put (cistWrite s u a bs)
    else if sp = 1 then put (wellWrite (hubSpend s 64) a bs hubAcc)
    else if sp = 2 then
      put (modStn s u (fun x => pmFlush { x with
        pmHeld := x.pmHeld ++ (List.range 16).map (fun k => (a / 4 + k, BitVec.ofNat 32 (reg s (Reg.dbgData + k)))) }), true)
    else put (textWrite s a bs))

/-- READ_MEM (0x21) and WRITE_MEM (0x22). One on the well waits, BUSY, until the hub has WELL leave (R350). -/
def dbgMem (op w : Nat) (s : State) : State :=
  let sp := cSpace w
  let waits := reg s Reg.dbgCmdStatus == 1 && (match s.dbg.run with
    | some r => r.op == op && reg s Reg.dbgCmd == cWord w
    | none => false)
  if waits then (if hubReady s 64 then memGo op w s (residentUnit s (cStn w)) else s)
  else takeCmd s w 3 (sp == 0 || sp == 2) (sp != 3) (fun s u =>
    if !memAddrOk s sp (dbgAddr s) then cmdEnd s 5
    else if sp = 1 && !hubReady s 64 then cmdEnd { s with dbg := { s.dbg with run := some ⟨op, u, 0⟩ } } 1
    else memGo op w s u)

/-- A write of DBG_CMD while an operation waits is ignored, as any while one runs. -/
def takeMem (op w : Nat) (s : State) : State := if reg s Reg.dbgCmdStatus = 1 then s else dbgMem op w s

/-- A write of DBG_CMD; an OP that Table 16.8 does not list ends with BAD_ARG. -/
def writeDbgCmd (w : Nat) (s : State) : State :=
  match cOp w with
  | 0x01 => dbgReadThread w s
  | 0x02 => dbgReadEvents w s
  | 0x03 => dbgReadPump w s
  | 0x10 => dbgHalt w s
  | 0x11 => dbgResume w s
  | 0x12 => dbgStep w s
  | 0x13 => dbgBrk true w s
  | 0x14 => dbgBrk false w s
  | 0x15 => dbgReadScalar w s
  | 0x16 => dbgWriteScalar w s
  | 0x17 => dbgReadTile w s
  | 0x20 => dbgWriteTile w s
  | 0x21 => takeMem 0x21 w s
  | 0x22 => takeMem 0x22 w s
  | _ => takeCmd s w 0 false false (fun s _ => cmdEnd s 5)

/-- A row's operand: the word written to DBG_CMD, with the row's OP. -/
def cmdRow (op w : Nat) (t : State) : Host.Outcome State Fault Refusal := withOperand (isWord w && cOp w == op) (.next t)

def execReadThread (w : Nat) (s : State) : Host.Outcome State Fault Refusal := cmdRow 0x01 w (dbgReadThread w s)
def execReadEvents (w : Nat) (s : State) : Host.Outcome State Fault Refusal := cmdRow 0x02 w (dbgReadEvents w s)
def execReadPump (w : Nat) (s : State) : Host.Outcome State Fault Refusal := cmdRow 0x03 w (dbgReadPump w s)
def execHalt (w : Nat) (s : State) : Host.Outcome State Fault Refusal := cmdRow 0x10 w (dbgHalt w s)
def execDbgResume (w : Nat) (s : State) : Host.Outcome State Fault Refusal := cmdRow 0x11 w (dbgResume w s)
def execDbgStep (w : Nat) (s : State) : Host.Outcome State Fault Refusal := cmdRow 0x12 w (dbgStep w s)
def execBrkArm (w : Nat) (s : State) : Host.Outcome State Fault Refusal := cmdRow 0x13 w (dbgBrk true w s)
def execBrkDisarm (w : Nat) (s : State) : Host.Outcome State Fault Refusal := cmdRow 0x14 w (dbgBrk false w s)
def execReadScalar (w : Nat) (s : State) : Host.Outcome State Fault Refusal := cmdRow 0x15 w (dbgReadScalar w s)
def execWriteScalar (w : Nat) (s : State) : Host.Outcome State Fault Refusal := cmdRow 0x16 w (dbgWriteScalar w s)
def execReadTile (w : Nat) (s : State) : Host.Outcome State Fault Refusal := cmdRow 0x17 w (dbgReadTile w s)
def execWriteTile (w : Nat) (s : State) : Host.Outcome State Fault Refusal := cmdRow 0x20 w (dbgWriteTile w s)
/-- The host writes DBG_CMD with READ_MEM, or one that waits for leave goes on. -/
def execReadMem (w : Nat) (s : State) : Host.Outcome State Fault Refusal := cmdRow 0x21 w (dbgMem 0x21 w s)
/-- The host writes DBG_CMD with WRITE_MEM, or one that waits for leave goes on. -/
def execWriteMem (w : Nat) (s : State) : Host.Outcome State Fault Refusal := cmdRow 0x22 w (dbgMem 0x22 w s)

/-- R503: the station that HALT asked to park is halted. -/
def execHaltDone (s : State) : Host.Outcome State Fault Refusal :=
  match s.dbg.run with
  | some r => guard s (r.op == 0x10 && isHalted (stn s r.unit)) (cmdEnd { s with dbg := { s.dbg with run := none } } 0)
  | none => .next s

end Sys2Proof.Machine
end

