-- ==== Sys2Proof/Machine/Telemetry.lean ====
section
/-! DEFINITION. Machine/Telemetry.lean: what every register of the map reads, and telemetry snapshots (chapter 18; R486,
R487, R539 to R560). -/

namespace Sys2Proof.Machine

/-- Table 18.2: the registers of units that the variant lacks. -/
def absent (s : State) (a : Nat) : Bool :=
  (!hasExt s && [0x1C0, 0x1C1, 0x1C2, 0x1C7, 0x1C8].contains a) ||
  (isT2 s && (decide (0x160 ≤ a ∧ a ≤ 0x168) ||
    [0x097, 0x098, 0x0A4, 0x0A5, 0x0A6, 0x0A7, 0x383, 0x384, 0x387, 0x388, 0x394, 0x395, 0x396, 0x397].contains a))

/-- JTAG part numbers (R510). -/
def partNumber (s : State) : Nat := match s.part.variant with | 0 => 0x5434 | 1 => 0x544E | _ => 0x5432
/-- R510, R542: the IDCODE register. -/
def idcode (s : State) : Nat := s.part.stepping * 2 ^ 28 + partNumber s * 2 ^ 12 + 0x2D9 * 2 + 1

/-- PWR_EST_MW: the energy of the last 1,000 windows; 1 µJ in them is 1 mW. -/
def pwrEst (s : State) : Nat := s.gov.history.foldl (· + ·) 0 / 65536
def pwrEnergy (s : State) : Nat := s.gov.energy / 65536 % 2 ^ 64

/-- PWR_STATE (Table 11.8). While the image is primed on the way out of P3 Standby, the state is still P3 (R370). -/
def pwrState (s : State) : Nat :=
  let leaving := match s.disp.prime with | .due .p3 => true | .running .p3 => true | _ => false
  (if leaving then 3 else pstateCode s.gov.ps) + 8 * b2n (transiting s) +
  16 * b2n s.gov.stretch + 32 * b2n s.gov.thermStop

/-- Codes of Tables 15.1 and 10.5. -/
def servoCode : Servo → Nat | .free => 0 | .locking => 1 | .locked => 2 | .holdover => 3
def extCode : ExtSt → Nat | .disabled => 0 | .detect => 1 | .equalize => 2 | .align => 3 | .pair => 4 | .up => 5 | .down => 6

def timeStateWord (s : State) : Nat := servoCode s.time.servo + 256 * s.time.count
/-- TIME_RATE_PPB: ρ in parts per 10^9, truncated (log entry 52). -/
def ratePpb (s : State) : Nat := unsigned 32 (Int.tdiv (s.time.rho * 1000000000) (2 ^ 48))

def extStateWord (s : State) : Nat :=
  extCode (getExt s 0).st + 16 * extCode (getExt s 1).st + 256 * b2n (s.paired || s.held) +
  4096 * (getExt s 0).reason + 65536 * (getExt s 1).reason

/-- Bits of the queue pairs that are enabled, from pair `lo` on. -/
def qpEnWord (s : State) (lo : Nat) : Nat :=
  (List.range 32).foldl (fun m k => if (getQp s (lo + k)).enable then m + 2 ^ k else m) 0

/-- SEC_LIFECYCLE, SEC_STATUS, SEC_SLOT_STATE, DBG_STATUS (Table 16.14). -/
def lifecycleWord (s : State) : Nat :=
  s.sec.lifecycle + 4 * b2n (ownerKey s).isSome + 8 * b2n s.sec.lcTo.isSome + 256 * s.fuses.svn
def secStatusWord (s : State) : Nat := b2n s.sec.entOk + 2 * b2n s.sec.zero.isSome + 4 * b2n s.sec.zpend.isSome
def slotStateWord (s : State) : Nat := maskOf (s.fuses.slots.map (·.1)) % 256 + 256 * (s.fuses.revoked % 256)
def dbgStatusWord (s : State) : Nat :=
  let left := match s.sec.chal with | some c => 60 - (timeNs s - c.start) / 1000000000 | none => 0
  reg s Reg.dbgStatus % 16 + 65536 * left

/-- TEXT_STATE (Table 13.7). -/
def textStateWord (s : State) : Nat := b2n s.text.loaded + 2 * min 2 s.text.pipes.length

/-- The value of a 64-bit RO pair, by the address of its low word (R537). -/
def pairValue (s : State) (a : Nat) : Nat :=
  if a = Reg.pwrEnergyLo then pwrEnergy s else if a = Reg.qpEnLo then qpEnWord s 0 + 2 ^ 32 * qpEnWord s 32 else reg64 s a
/-- The low words of the RO pairs that latch (R537). -/
def roPairs : List Nat := [Reg.imgShortLo, Reg.pwrEnergyLo, Reg.timePpsLo, Reg.qpEnLo, Reg.stepCntLo, Reg.calNfLo, Reg.calSatLo]

/-- R540, R541: the ID block. -/
def idValue (s : State) (a : Nat) : Nat :=
  match a with
  | 0 => 0x2D9
  | 1 => partNumber s + 2 ^ 16 * s.part.variant + 2 ^ 24 * s.part.stepping
  | 2 => b2n (hasText s) + 2 * b2n (hasExt s) + 2 ^ 8 * dies s + 2 ^ 12 * stackCount s + 2 ^ 16 * vlanes s
  | 3 => stationsEnabled s + 2 ^ 8 * stationsTotal s
  | 4 => sessLimit s + 2 ^ 16 * rowLimit s
  | 5 => 5 * stationsEnabled s + 2 ^ 16 * (48 * stackCount s)
  | 6 => 1250 + 2 ^ 16 * 625
  | 7 => reg s Reg.idFwVer
  | 8 => 0x0000FFFF
  | 9 => 0x01FE + 2 ^ 16 * 0x7F
  | _ => 0

/-- A float's registers as the latch holds them (R472); word 0 as it stands. -/
def floatWord (s : State) (k : Nat) : Nat :=
  let f := tabGet {} s.floatLatch (k / 6)
  let g := getFloat s (k / 6)
  match k % 6 with
  | 0 => g.op + 256 * g.st + 65536 * g.result + 2 ^ 24 * g.seq
  | 1 => f.pos % 2 ^ 32
  | 2 => f.pos / 2 ^ 32
  | 3 => f.fin % 2 ^ 32
  | 4 => f.fin / 2 ^ 32
  | _ => f.pct

/-- Addresses whose stored word is what a read returns. -/
def storedWords : List Nat :=
  [0x040, 0x041, 0x042, 0x046, 0x047, 0x048, 0x04B, 0x04D, 0x04E, 0x080, 0x082, 0x086, 0x089, 0x08A, 0x08B, 0x090, 0x091,
   0x093, 0x094, 0x095, 0x096, 0x097, 0x098, 0x099, 0x0A0, 0x0A1, 0x0A2, 0x0A3, 0x0A4, 0x0A5, 0x0A6, 0x0A7, 0x0C3, 0x0C5,
   0x0C7, 0x0C8, 0x0C9, 0x0CA, 0x0CB, 0x0CD, 0x0CE] ++
  [0x100, 0x101, 0x102, 0x103, 0x140, 0x141, 0x143, 0x145, 0x147, 0x148, 0x162, 0x163, 0x164, 0x165, 0x166, 0x167, 0x168,
   0x180, 0x181, 0x182, 0x183, 0x184, 0x185, 0x186, 0x187, 0x189, 0x18A, 0x18B, 0x18C, 0x190, 0x191, 0x1C0, 0x1C4, 0x1C5,
   0x1C6, 0x1C7, 0x1C8] ++
  [0x200, 0x201, 0x202, 0x203, 0x204, 0x206, 0x240, 0x241, 0x242, 0x243, 0x244, 0x245, 0x246, 0x247, 0x283, 0x289, 0x2C0,
   0x2C1, 0x2C3, 0x2C4, 0x2C5, 0x2C6, 0x300, 0x301, 0x302, 0x345, 0x346] ++
  [0x381, 0x382, 0x383, 0x384, 0x390, 0x391, 0x392, 0x393, 0x394, 0x395, 0x396, 0x397]

/-- The value a read of a register word returns, but for the window (R531): a word that names no register reads 0. -/
def regValue (s : State) (a : Nat) : Nat :=
  if absent s a then 0
  else if a < 0x040 then idValue s a
  else if 0x050 ≤ a ∧ a < 0x080 then floatWord s (a - 0x050)
  else if 0x28C ≤ a ∧ a < 0x290 then leNat ((s.sec.devId.drop (4 * (a - 0x28C))).take 4)
  else if 0x2D0 ≤ a ∧ a < 0x2E0 then reg s a
  else if 0x310 ≤ a ∧ a < 0x320 then leNat (((recBytes s.sump.latched).drop (4 * (a - 0x310))).take 4)
  else if 0x385 ≤ a ∧ a < 0x389 then
    (if a - 0x385 < dies s then dieFirst s (a - 0x385) + 256 * dieCount s (a - 0x385) else 0)
  else if storedWords.contains a then reg s a
  else if roPairs.contains (a - 1) || a == Reg.timeNsLo || a == Reg.timeNsHi then (tabGet 0 s.latch a).toNat
  else match a with
  | 0x04A => reg s a + 32 * b2n (peerOk s)
  | 0x081 => pwrState s
  | 0x083 => pwrEst s % 2 ^ 32
  | 0x084 => pwrEnergy s % 2 ^ 32
  | 0x088 => s.gov.budget / 65536
  | 0x092 => s.gov.band
  | 0x0C0 => s.time.time % 65536
  | 0x0C4 => timeStateWord s
  | 0x0C6 => ratePpb s
  | 0x104 => qpEnWord s 0
  | 0x142 => openCount s
  | 0x144 => freeTotal s
  | 0x149 => if imgReady s then (theImage s).ctxMax else 0
  | 0x160 => textStateWord s
  | 0x161 => if s.text.loaded then textVocab s.text.sram else 0
  | 0x188 => s.wellBad.length + 65536 * s.cistBad.length
  | 0x192 => if (getFloat s 7).st = 3 then 0 else (getFloat s 7).pct
  | 0x1C2 => extStateWord s
  | 0x1C3 => s.dieUp
  | 0x280 => lifecycleWord s
  | 0x281 => secStatusWord s
  | 0x285 => slotStateWord s
  | 0x2C2 => dbgStatusWord s
  | 0x380 => stationsEnabled s + reg s Reg.mapSummary
  | 0x399 => reg s Reg.mapStatus + b2n (anyReset s)
  | _ => 0

-- telemetry (R486, R487, Table 18.18)

/-- The counter registers of the map, in ascending address (Table 18.18, words 24 to 71; a 64-bit count as its two
words). -/
def telemCounters : List Nat :=
  [0x086, 0x08A, 0x08B, 0x094, 0x0CD, 0x0CE, 0x101, 0x145, 0x146, 0x148, 0x162, 0x163, 0x164, 0x165, 0x166, 0x167, 0x168,
   0x181, 0x182, 0x183, 0x184, 0x185, 0x186, 0x187, 0x188, 0x189, 0x18A, 0x18B, 0x18C, 0x190, 0x191, 0x1C4, 0x1C5, 0x1C6,
   0x1C7, 0x1C8, 0x202, 0x204, 0x205, 0x206, 0x207, 0x246, 0x247, 0x289, 0x300, 0x302, 0x345, 0x346]
/-- A counter's word as it stands, without its latch. -/
def counterValue (s : State) (a : Nat) : Nat :=
  if absent s a then 0 else if a = 0x188 then regValue s a else reg s a

/-- Table 18.18. -/
def telemWords (s : State) (seq : Nat) : List Nat :=
  [seq, s.time.time % 65536, timeNs s % 2 ^ 32, timeNs s / 2 ^ 32 % 2 ^ 32, timeStateWord s, pwrEst s % 2 ^ 32,
   pwrEnergy s % 2 ^ 32, pwrEnergy s / 2 ^ 32, reg s Reg.thermMax, reg s Reg.thermStackMax] ++
  (List.range 8).map (fun n => (getFloat s n).pct) ++ List.replicate 6 0 ++ telemCounters.map (counterValue s)

/-- R486, R358: a snapshot is written into the buffer not last completed, in the well system area (log entry 67), and
debited to MAINT. -/
def execTelemSnapshot (s : State) : Host.Outcome State Fault Refusal :=
  let seq := (reg s Reg.telemSeq + 1) % 2 ^ 32
  let b := 1 - s.telem.newest % 2
  let ws := telemWords s seq
  let t := setReg { s with telem := { bufs := tabPut s.telem.bufs b ws, newest := b },
                           well := memWrite s.well (sysAddr (1 + b) 288) (ws.flatMap (leBytes 4)) } Reg.telemSeq seq
  guard s (supervisor s) (maintDebit t (costEntry 5 (isEco s.gov.ps)))

end Sys2Proof.Machine
end

