-- ==== Sys2Proof/Machine/Access.lean ====
section
/-! DEFINITION. Machine/Access.lean: reads and writes of the register map, the indirect window, the queue-pair block, the
MSI-X table and the configuration space (R21 to R25, R375, R376, R378, R472, R482, R512, R531 to R537, R544). -/

namespace Sys2Proof.Machine

-- the indirect window (R531 to R535)

/-- The window copy of a path (R532). -/
def win (s : State) (p : Nat) : Win := tabGet {} s.wins p
def setWin (s : State) (p : Nat) (w : Win) : State := { s with wins := tabSet {} s.wins p w }

/-- Words of a table (Table 17.5). -/
def tableLen (t : Nat) : Nat :=
  match t with
  | 0x01 => 80 | 0x02 => 72 | 0x03 => 2048 | 0x10 => 8 | 0x11 => 24 | 0x12 => 24 | 0x13 => 42 | 0x14 => 16 | 0x15 => 25
  | 0x20 => 1048576 | _ => 0

/-- WIN_TABLE (Table 17.4): a table that is not listed, or not open to the path, is stored as 0; so is a station that does
not exist. -/
def writeWinTable (p v : Nat) (s : State) : State :=
  let t := v % 256
  let st := bits v 22 16
  let t := if tableLen t = 0 ∨ (p = 1 ∧ 3 < t) then 0 else t
  setWin s p { win s p with table := t, station := if st < stationsEnabled s then st else 0, index := 0, ignored := false, wrapped := false }
def execWinTableWrite (p v : Nat) (s : State) : Host.Outcome State Fault Refusal :=
  withOperand (decide (p < 2) && isWord v) (.next (writeWinTable p v s))

/-- WIN_INDEX. -/
def writeWinIndex (p v : Nat) (s : State) : State :=
  let w := win s p
  setWin s p { w with index := min (v % 2 ^ 20) (tableLen w.table - 1) }

/-- After an access, WIN_INDEX moves on. -/
def advance (w : Win) : Win :=
  if w.index + 1 < tableLen w.table then { w with index := w.index + 1 } else { w with index := 0, wrapped := true }

/-- Table 11.2 as table LEAVE_COST (R348). -/
def leaveCost (s : State) (k : Nat) : Nat :=
  let e := k / 8
  let eco := k % 8 / 4 == 1
  if e < 8 then costEntry e eco else if e = 8 then baseCost s eco (k % 4) else maintCost

/-- A SLOTS record (Table 17.6). -/
def slotWords (x : Slot) : List Nat :=
  [x.fmt + 256 * x.zp + 65536 * x.hlen + 2 ^ 24 * x.hr, x.e + 256 * x.ePrev + 65536 * x.hist.length, x.underCnt, x.satCnt,
   x.nfCnt, x.misfitCnt, 0, 0] ++ (x.hist ++ List.replicate 16 0).take 16 ++ List.replicate 8 0

/-- The slots that table SLOTS shows of a logical station: the resident unit's as of the last step boundary (R104, R534),
and in P3 Standby those that R371 saved. -/
def slotsOf (s : State) (ls : Nat) : Tab Slot :=
  let u := residentUnit s ls
  if s.gov.ps = .p3 then ((s.ldr.savedSlots.find? (fun p => p.1 == u)).map (·.2)).getD [] else (stn s u).slotSnap

/-- The latch unit that a word of a table belongs to, its first word, and its current contents (R534). -/
def latchUnit (s : State) (w : Win) : Option (Nat × Nat × List Nat) :=
  if w.table = 2 then some (0, 0, tabGet [] s.telem.bufs s.telem.newest)
  else if w.table = 3 then
    let k := w.index / 32
    some (1 + 64 * w.station + k, 32 * k, slotWords (tabGet {} (slotsOf s w.station) k))
  else none

/-- A word of a table with no latch (Table 17.5). -/
def tableWord (s : State) (t k : Nat) : Nat :=
  let word (bs : List Byte) : Nat := leNat ((bs.drop (4 * k)).take 4)
  match t with
  | 0x01 => leaveCost s k
  | 0x12 => word s.sec.idPub
  | 0x13 => leNat (memRead s.sec.attest (4 * k) 4)
  | 0x14 => match s.sec.chal with | some c => word c.bytes | none => 0
  | _ => 0

/-- R534: reading WIN_DATA. -/
def readWinData (p : Nat) (s : State) : State × Nat :=
  let w := win s p
  if tableLen w.table = 0 ∨ s.gov.ps = .p4 then (s, 0)
  else match latchUnit s w with
  | some (key, first, now) =>
    let w := if w.index = first then { w with latched := tabPut w.latched key now } else w
    let ws := match w.latched.find? (fun q => q.1 == key) with | some q => q.2 | none => now
    (setWin s p (advance w), ws.getD (w.index - first) 0)
  | none => (setWin s p (advance w), tableWord s w.table w.index)

/-- What a table's Write column allows (Table 17.5). -/
def tableWrite (s : State) (t k v : Nat) : Option State :=
  let put (m : List (Nat × BitVec 8)) : List (Nat × BitVec 8) := (leBytes 4 v).mapIdx (fun i b => (4 * k + i, b)) |>.foldl (fun m q => tabPut m q.1 q.2) m
  match t with
  | 0x10 => if s.sec.lifecycle = 0 then some { s with sec := { s.sec with ownerStage := put s.sec.ownerStage } } else none
  | 0x11 => if s.sec.lifecycle = 1 then some { s with sec := { s.sec with slotStage := put s.sec.slotStage } } else none
  | 0x13 => if k < 8 ∧ !s.sec.waits.contains none then some { s with sec := { s.sec with attest := memWrite s.sec.attest (4 * k) (leBytes 4 v) } } else none
  | 0x15 => some { s with sec := { s.sec with resp := memWrite s.sec.resp (4 * k) (leBytes 4 v) } }
  | 0x20 => if stage s = 2 then some { s with boot := { s.boot with stage := memWrite s.boot.stage (4 * k) (leBytes 4 v) } } else none
  | _ => none

/-- R533: writing WIN_DATA. -/
def writeWinData (p v : Nat) (s : State) : State :=
  let w := win s p
  if tableLen w.table = 0 then setWin s p { w with ignored := true }
  else match tableWrite s w.table w.index v with
  | some t => setWin t p (advance w)
  | none => setWin s p { advance w with ignored := true }
def execWinDataWrite (p v : Nat) (s : State) : Host.Outcome State Fault Refusal :=
  withOperand (decide (p < 2) && isWord v) (.next (writeWinData p v s))

/-- The window's other registers. -/
def winValue (s : State) (p a : Nat) : Nat :=
  let w := win s p
  match a with
  | 0x340 => w.table + 65536 * w.station
  | 0x341 => w.index
  | 0x343 => tableLen w.table
  | 0x344 => b2n w.ignored + 2 * b2n w.wrapped
  | _ => 0

-- reads (R24, R25, R375, R472, R482, R512, R537)

/-- The RC counters. -/
def rcWords : List Nat :=
  [0x086, 0x08A, 0x08B, 0x094, 0x0CD, 0x0CE, 0x101, 0x148, 0x162, 0x163, 0x164, 0x165, 0x166, 0x167, 0x168, 0x181, 0x182,
   0x183, 0x184, 0x185, 0x186, 0x187, 0x189, 0x18A, 0x18B, 0x18C, 0x1C4, 0x1C5, 0x1C6, 0x1C7, 0x1C8, 0x202, 0x246, 0x247,
   0x289, 0x302, 0x345, 0x346]

/-- Stores a latched word. -/
def setLatch (s : State) (a v : Nat) : State := { s with latch := tabSet 0 s.latch a (BitVec.ofNat 32 v) }

/-- Paths: 0 the Control Port, 1 BAR0, 2 the JTAG instruction DBG_ACCESS. BAR0 reads every DBG_ register as 0, and SEC_
registers as the Control Port does (R512). -/
def hidden (path a : Nat) : Bool :=
  if path = 1 then decide (0x2C0 ≤ a ∧ a ≤ 0x2FF) else if path = 2 then !decide (0x2C0 ≤ a ∧ a ≤ 0x2FF) else false

/-- Latching and clearing effects of a read. -/
def readEffect (s : State) (a : Nat) : State :=
  if absent s a then s
  else if rcWords.contains a then setReg s a 0
  else if roPairs.contains a then setLatch s (a + 1) (pairValue s a / 2 ^ 32)
  else if a = Reg.timeFrac then setLatch (setLatch s Reg.timeNsLo (timeNs s % 2 ^ 32)) Reg.timeNsHi (timeNs s / 2 ^ 32)
  else if 0x050 ≤ a ∧ a < 0x080 ∧ a % 6 = 2 then
    let n := (a - 0x050) / 6
    { s with floatLatch := tabPut s.floatLatch n (getFloat s n) }
  else if a = Reg.sumpRec then { s with sump := { s.sump with latched := tabGet {} s.sump.slots (reg s Reg.sumpSel % 64) } }
  else s

/-- One read of a register word over a path. -/
def readReg (path a : Nat) (s : State) : State × Nat :=
  if hidden path a then (s, 0)
  else if a = Reg.winData then readWinData (path % 2) s
  else if 0x340 ≤ a ∧ a ≤ 0x344 then (s, winValue s (path % 2) a)
  else
    let t := readEffect s a
    -- a latching word of the sump returns the record it latches
    (t, if a = Reg.sumpRec then regValue t a else regValue s a)

/-- A read whose value goes out to its reader. -/
def readOut (path a : Nat) (s : State) : State :=
  let r := readReg path a s
  { r.1 with out := r.1.out ++ [.value path a r.2] }

/-- Whether a path reaches the register map (R375, R529): the map is ready, and over BAR0 the link is up and the part
not in P4 Off. -/
def pathUp (s : State) (path : Nat) : Bool :=
  s.boot.mapReady && s.pins.pwrOk && !s.pins.refLost &&
  (path != 1 || (regBit s Reg.hostLink 12 && s.gov.ps != .p4 && !s.tap.scan))

/-- A word of a queue pair's configuration block (Table 12.3). -/
def readQpWord (s : State) (n k : Nat) : Nat :=
  let q := getQp s n
  match k with
  | 0 => q.sqBase % 2 ^ 32
  | 1 => q.sqBase / 2 ^ 32
  | 2 => q.cqBase % 2 ^ 32
  | 3 => q.cqBase / 2 ^ 32
  | 4 => b2n q.enable + 2 ^ 8 * q.sqLog2 + 2 ^ 12 * q.cqLog2 + 2 ^ 16 * q.vector
  | 5 => q.coalCount + 2 ^ 16 * q.coalUs
  | 6 => q.st + 2 ^ 8 * q.errCause
  | 7 => q.sqHead
  | 8 => q.cqTail
  | 9 => qpSessions s n
  | _ => 0

/-- A word of the MSI-X table, and of the pending-bit array (Table 12.2). -/
def readMsixWord (s : State) (e k : Nat) : Nat :=
  let x := msixEntry s e
  match k with | 0 => x.addrLo | 1 => x.addrHi | 2 => x.data | _ => b2n x.masked
def readPba (s : State) (k : Nat) : Nat := s.msix.pend / 2 ^ (32 * k) % 2 ^ 32

/-- A configuration register (R374; log entry 65): 0 Bus Master Enable, 1 MSI-X enable and function mask, 2 PTM enable, 3
Max_Payload_Size, 4 Max_Read_Request_Size, 5 10-bit tags, 6 to 8 AER uncorrectable status, mask and severity, 9 and 10
AER correctable status and mask. -/
def readConfig (s : State) (k : Nat) : Nat :=
  let m := s.msix
  match k with
  | 0 => b2n m.busMaster
  | 1 => b2n m.en + 2 * b2n m.fmask
  | 2 => bits (reg s Reg.hostLink) 13 13
  | 3 => m.maxPay
  | 4 => m.maxRead
  | 5 => b2n m.tag10
  | 6 => m.aerUe
  | 7 => m.aerUeMask
  | 8 => m.aerUeSev
  | 9 => m.aerCe
  | _ => m.aerCeMask

/-- R375: a read of an aligned 32-bit word of BAR0 and of BAR2, by byte offset. The doorbells, and offsets that Table 12.2
does not name, read 0. -/
def readBar0 (o : Nat) (s : State) : State × Nat :=
  if o < 0x1000 then readReg 1 (o / 4) s
  else if 0x20000 ≤ o ∧ o < 0x21000 then (s, readQpWord s ((o - 0x20000) / 64) ((o - 0x20000) % 64 / 4))
  else (s, 0)
def readBar2 (o : Nat) (s : State) : State × Nat :=
  if o < 0x400 then (s, readMsixWord s (o / 16) (o % 16 / 4))
  else if 0x1000 ≤ o ∧ o < 0x1008 then (s, readPba s ((o - 0x1000) / 4))
  else (s, 0)

/-- R374, R375: an access that ends as an Unsupported Request, which AER reports (bit 20 of its uncorrectable errors). -/
def unsupportedReq (s : State) : State := { s with msix := { s.msix with aerUe := s.msix.aerUe ||| 2 ^ 20 } }

/-- A read by the host. Paths: 0 and 1 a register word over the Control Port and over BAR0, 2 a word of the queue-pair
blocks, 3 a word of the MSI-X table, 4 a configuration register, 5 and 6 an aligned word of BAR0 and BAR2 by byte
offset, 7 any other access of BAR0. -/
def readSpace (path a : Nat) (s : State) : State × Nat :=
  match path with
  | 2 => (s, readQpWord s (a / 16) (a % 16))
  | 3 => (s, readMsixWord s (a / 4) (a % 4))
  | 4 => (s, readConfig s a)
  | 5 => readBar0 a s
  | 6 => readBar2 a s
  | p => readReg p a s
def spaceOk (path a : Nat) : Bool :=
  match path with
  | 0 => decide (a < 1024)
  | 1 => decide (a < 1024)
  | 2 => decide (a < 1024)
  | 3 => decide (a < 256)
  | 4 => decide (a < 11)
  | 5 => decide (a < 2 ^ 20) && a % 4 == 0
  | 6 => decide (a < 8192) && a % 4 == 0
  | 7 => decide (a < 2 ^ 20)
  | _ => false
/-- Whether a space can be reached: the configuration space whenever the link is up. -/
def spaceUp (s : State) (path : Nat) : Bool :=
  if path = 0 then pathUp s 0 else if path = 4 then regBit s Reg.hostLink 12 && s.gov.ps != .p4 else pathUp s 1

/-- R24, R375: the host reads a word. An RC field is cleared by it. -/
def execRcRead (path a : Nat) (s : State) : Host.Outcome State Fault Refusal :=
  let r := readSpace path a s
  withOperand (spaceOk path a) (guard s (spaceUp s path)
    (if path = 7 then { unsupportedReq s with out := s.out ++ [.unsupported path a] }
     else { r.1 with out := r.1.out ++ [.value path a r.2] }))
/-- R25, R470, R537: a read of the least significant word of a multi-word value. -/
def execSnapshotRead (path a : Nat) (s : State) : Host.Outcome State Fault Refusal :=
  withOperand (decide (path < 2) && (roPairs.contains a || a == Reg.timeFrac)) (guard s (pathUp s path) (readOut path a s))
/-- R472: a read of FLOAT_OP[n]. -/
def execFloatOpRead (path n : Nat) (s : State) : Host.Outcome State Fault Refusal :=
  withOperand (decide (path < 2) && decide (n < 8)) (guard s (pathUp s path) (readOut path (Reg.floatBase + 6 * n) s))
/-- R482: a read of SUMP_REC[0]. -/
def execSumpRecRead (path : Nat) (s : State) : Host.Outcome State Fault Refusal :=
  withOperand (decide (path < 2)) (guard s (pathUp s path) (readOut path Reg.sumpRec s))
/-- R534: a read of WIN_DATA. -/
def execWinDataRead (path : Nat) (s : State) : Host.Outcome State Fault Refusal :=
  withOperand (decide (path < 2)) (guard s (pathUp s path) (readOut path Reg.winData s))

-- writes (R21 to R24, R375, R512, R544, Tables 18.5 to 18.17)

/-- A value between bounds (the Clamp columns). -/
def clampTo (lo hi v : Nat) : Nat := min (max lo v) hi

/-- The state a row's meaning answers, or the state it had. -/
def nextOr (s : State) (o : Host.Outcome State Fault Refusal) : State := match o with | .next t => t | _ => s

/-- W1C (R24). -/
def writeW1c (a v : Nat) (s : State) : State := setReg s a (reg s a - (reg s a &&& v))

/-- BOOT_FW_LEN (Table 18.5). -/
def fwLenOf (v : Nat) : Nat := min (v % 2 ^ 23) 4194304 / 4 * 4

/-- BOOT_IMG_CTL (Table 14.7). -/
def writeImgCtl (v : Nat) (s : State) : State :=
  let s := if v.testBit 0 then loadRequest s else s
  if v.testBit 1 then unloadRequest s else s

/-- What a write of a register word does. -/
def regWrite (path a v : Nat) (s : State) : State :=
  match a with
  | 0x041 => writeBootCtl v s
  | 0x042 => setReg s a (fwLenOf v)
  | 0x046 => setReg s a (v / 16 * 16)
  | 0x047 => setReg s a v
  | 0x048 => setReg s a (clampTo 1 65536 v)
  | 0x049 => writeImgCtl v s
  | 0x080 => writePwrCtl v s
  | 0x082 => setReg s a (clampTo 120 300 (v % 512))
  | 0x089 => setReg s a (clampTo 1 16 v)
  | 0x093 => setReg s a (clampTo 70 100 v)
  | 0x0C3 => writeTimeCtl v s
  | 0x0C7 => setReg s a (clampTo 1 1000000 v)
  | 0x0C8 => setReg s a (clampTo 1 1000 v)
  | 0x0C9 => setReg s a v
  | 0x0CA => writeTodHi v s
  | 0x102 => writeW1c a v s
  | 0x103 => writeW1c a v s
  | 0x140 => setReg s a (v % 2 + 2 * min (bits v 3 1) (rowGroups s - 1))
  | 0x147 => setReg s a (clampTo 10 10000 v)
  | 0x180 => setReg s a (clampTo 50 65535 v)
  | 0x1C0 => nextOr s (execLinkPairCtlWrite v s)
  | 0x1C1 => nextOr s (execLinkRetrain v s)
  | 0x200 => setReg s a (min v 0xFFFFFF)
  | 0x201 => setReg s a (clampTo 1 65535 v)
  | 0x240 => writeW1c a v s
  | 0x241 => writeEvtMask v s
  | 0x242 => setReg s a (v % 2 + 256 * bits v 13 8)
  | 0x243 => setReg s a (clampTo 1 60000 v)
  | 0x245 => setReg s a (clampTo 1024 16777216 v)
  | 0x282 => writeLcReq v s
  | 0x284 => writeSlotCtl v s
  | 0x286 => writeAttestCtl v s
  | 0x287 => writeZeroize v s
  | 0x288 => writeSvnAdvance v s
  | 0x2C1 => writeDbgReq (path == 2) v s
  | 0x2C3 => writeDbgCmd v s
  | 0x2C5 => setReg s a v
  | 0x2C6 => setReg s a v
  | 0x301 => setReg s a v
  | 0x340 => writeWinTable (path % 2) v s
  | 0x341 => writeWinIndex (path % 2) v s
  | 0x342 => writeWinData (path % 2) v s
  | 0x398 => writeStnReset v s
  | _ => if 0x2D0 ≤ a ∧ a < 0x2E0 then setReg s a v else s

/-- One write of a register word over a path: registers of absent units, and over BAR0 those of R512, ignore it. -/
def writeReg (path a v : Nat) (s : State) : State :=
  if absent s a || hidden path a || (path == 1 && decide (0x280 ≤ a ∧ a ≤ 0x2BF)) then s
  else regWrite path a v s

/-- A word of a queue pair's configuration block (Table 12.3). -/
def writeQpWord (n k v : Nat) (s : State) : State :=
  match k with
  | 0 => modQp s n (fun q => { q with sqBase := q.sqBase / 2 ^ 32 * 2 ^ 32 + v / 64 * 64 })
  | 1 => modQp s n (fun q => { q with sqBase := q.sqBase % 2 ^ 32 + 2 ^ 32 * v })
  | 2 => modQp s n (fun q => { q with cqBase := q.cqBase / 2 ^ 32 * 2 ^ 32 + v / 64 * 64 })
  | 3 => modQp s n (fun q => { q with cqBase := q.cqBase % 2 ^ 32 + 2 ^ 32 * v })
  | 4 => writeQpEnable n v s
  | 5 => writeQpCoal n v s
  | _ => s

/-- A word of an MSI-X table entry (Table 12.2). -/
def writeMsixWord (e k v : Nat) (s : State) : State :=
  let x := msixEntry s e
  let put (y : MsixEntry) : State := { s with msix := { s.msix with table := tabPut s.msix.table e y } }
  match k with
  | 0 => put { x with addrLo := v / 4 * 4 }
  | 1 => put { x with addrHi := v }
  | 2 => put { x with data := v }
  | _ => writeVectorMask e (v.testBit 0) s

/-- A write of a configuration register, numbered as for reads (R374, R382, R383, R548; log entry 65). Status bits of AER
are write-1-to-clear; the sizes go up to 512 and 4,096 bytes (Table 12.1). -/
def writeConfig (k v : Nat) (s : State) : State :=
  let m := s.msix
  match k with
  | 0 => msixRelease { s with msix := { m with busMaster := v.testBit 0 } }
  | 1 => msixRelease { s with msix := { m with en := v.testBit 0, fmask := v.testBit 1 } }
  | 2 => setField s Reg.hostLink 13 13 (v % 2)
  | 3 => { s with msix := { m with maxPay := min (v % 8) 2 } }
  | 4 => { s with msix := { m with maxRead := min (v % 8) 5 } }
  | 5 => { s with msix := { m with tag10 := v.testBit 0 } }
  | 6 => { s with msix := { m with aerUe := m.aerUe - (m.aerUe &&& v) } }
  | 7 => { s with msix := { m with aerUeMask := v } }
  | 8 => { s with msix := { m with aerUeSev := v } }
  | 9 => { s with msix := { m with aerCe := m.aerCe - (m.aerCe &&& v) } }
  | _ => { s with msix := { m with aerCeMask := v } }

/-- R375: a write of an aligned 32-bit word of BAR0 and of BAR2, by byte offset. -/
def writeBar0 (o v : Nat) (s : State) : State :=
  if o < 0x1000 then writeReg 1 (o / 4) v s
  else if 0x10000 ≤ o ∧ o < 0x10200 then
    (if o % 8 = 0 then writeSqTail ((o - 0x10000) / 8) v s else writeCqHead ((o - 0x10000) / 8) v s)
  else if 0x20000 ≤ o ∧ o < 0x21000 then writeQpWord ((o - 0x20000) / 64) ((o - 0x20000) % 64 / 4) v s
  else s
def writeBar2 (o v : Nat) (s : State) : State := if o < 0x400 then writeMsixWord (o / 16) (o % 16 / 4) v s else s

/-- A write by the host, to a space numbered as the paths of a read are. -/
def writeSpace (space a v : Nat) (s : State) : State :=
  match space with
  | 2 => writeQpWord (a / 16) (a % 16) v s
  | 3 => writeMsixWord (a / 4) (a % 4) v s
  | 4 => writeConfig a v s
  | 5 => writeBar0 a v s
  | 6 => writeBar2 a v s
  | 7 => unsupportedReq s
  | p => writeReg p a v s

/-- R21, R375: the host writes a word. -/
def execRegWrite (space a v : Nat) (s : State) : Host.Outcome State Fault Refusal :=
  withOperand (spaceOk space a && isWord v) (guard s (spaceUp s space && s.gov.ps != .p4) (writeSpace space a v s))

/-- R24: the host writes a W1C register. -/
def execW1cWrite (path a v : Nat) (s : State) : Host.Outcome State Fault Refusal :=
  withOperand (decide (path < 2) && [Reg.evtStatus, Reg.qpErrLo, Reg.qpErrHi].contains a && isWord v)
    (guard s (pathUp s path && s.gov.ps != .p4) (writeReg path a v s))

end Sys2Proof.Machine
end

