-- ==== Sys2Proof/Machine/Port.lean ====
section
/-! DEFINITION. Machine/Port.lean: Control Port frames (R516 to R529) and the TAP (R510, R511, R599). -/

namespace Sys2Proof.Machine

-- frames

/-- R522: one byte of the CRC-8 with polynomial 0x07. -/
def crc8Byte (c : Nat) (b : Byte) : Nat :=
  (List.range 8).foldl (fun c _ => if c.testBit 7 then (c * 2 ^^^ 0x07) % 256 else c * 2 % 256) (c ^^^ b.toNat)
def crc8 (bs : List Byte) : Nat := bs.foldl crc8Byte 0

/-- Most significant byte first (R519). -/
def beNat (bs : List Byte) : Nat := leNat bs.reverse
def beBytes (n x : Nat) : List Byte := (leBytes n x).reverse

/-- Fields of the command byte (Table 17.1). -/
def pOp (c : Nat) : Nat := c / 64
def pFix (c : Nat) : Bool := c.testBit 5
def pCount (c : Nat) : Nat := c % 32 + 1

/-- Bytes of a frame up to its CRC: of a reserved OP the manual says no length; it is taken as a READ's (log entry 53). -/
def frameLen (c : Nat) : Nat := if pOp c = 1 then 4 + 4 * pCount c else 4

/-- Table 17.2: the STATUS of a frame whose bytes are all there. -/
def portStatus (s : State) (bs : List Byte) : Nat :=
  let c := bfld bs 0 1
  let a := beNat (bsub bs 1 2)
  let n := frameLen c
  if !s.boot.mapReady then 0x84
  else if crc8 (bs.take (n - 1)) ≠ bfld bs (n - 1) 1 then 0x81
  else if pOp c = 0 ∨ pOp c = 3 then 0x82
  else if 1024 ≤ a ∨ (!pFix c ∧ 0x3FF < a + pCount c - 1) then 0x83
  else if s.gov.ps = .p4 ∧ pOp c = 1 then 0x85
  else 0x80

/-- R523, Table 17.4: refused frames are counted. -/
def portCount (s : State) (st : Nat) : State :=
  if st = 0x81 then addReg s Reg.portCrc 1 else if st = 0x82 ∨ st = 0x83 then addReg s Reg.portBad 1 else s

/-- The word addresses of a burst. -/
def burst (c a : Nat) : List Nat := (List.range (pCount c)).map (fun k => if pFix c then a else a + k)

/-- R524, R527: the accesses of a committed frame, in burst order. -/
def burstWrite (s : State) (bs : List Byte) : State :=
  let c := bfld bs 0 1
  (burst c (beNat (bsub bs 1 2))).mapIdx (fun k a => (k, a)) |>.foldl
    (fun s p => writeReg 0 p.2 (beNat (bsub bs (3 + 4 * p.1) 4)) s) s
def burstRead (s : State) (c a : Nat) : State × List Nat :=
  (burst c a).foldl (fun r a => let q := readReg 0 a r.1; (q.1, r.2 ++ [q.2])) (s, [])

/-- CP_MISO after the frame: nothing while the pin is high-impedance or under the boundary register. -/
def answer (s : State) (bs : List Byte) : State :=
  { s with pins := { s.pins with miso := if s.tap.scan then [] else bs } }

/-- Whether the port responds at all (Table 17.3, R595). -/
def portAlive (s : State) : Bool := s.pins.pwrOk && !s.pins.refLost

/-- R520, R524: a WRITE frame, or one whose OP is reserved. Bytes after the frame are ignored (R517). -/
def writeFrame (s : State) (bs : List Byte) : State :=
  let st := portStatus s bs
  let t := if st = 0x80 then burstWrite s bs else portCount s st
  answer t [BitVec.ofNat 8 st]
def execCpWriteFrame (bytes : List Byte) (s : State) : Host.Outcome State Fault Refusal :=
  let c := bfld bytes 0 1
  withOperand (!bytes.isEmpty && pOp c != 2 && decide (frameLen c ≤ bytes.length))
    (.next (if portAlive s then writeFrame s bytes else answer s []))

/-- R521, R524: a READ frame. -/
def readFrame (s : State) (bs : List Byte) : State :=
  let c := bfld bs 0 1
  let st := portStatus s bs
  let r := if st = 0x80 then burstRead s c (beNat (bsub bs 1 2)) else (portCount s st, List.replicate (pCount c) 0)
  let body := BitVec.ofNat 8 st :: r.2.flatMap (beBytes 4)
  answer r.1 (body ++ [BitVec.ofNat 8 (crc8 body)])
def execCpReadFrame (bytes : List Byte) (s : State) : Host.Outcome State Fault Refusal :=
  let c := bfld bytes 0 1
  withOperand (!bytes.isEmpty && pOp c == 2 && decide (frameLen c ≤ bytes.length))
    (.next (if portAlive s then readFrame s bytes else answer s []))

/-- R517, R524: CP_CS_N rises before the frame commits: `bytes` are the whole bytes that were clocked. A period without a
full byte has no effect. -/
def execCpFrameAbandon (bytes : List Byte) (s : State) : Host.Outcome State Fault Refusal :=
  withOperand (bytes.isEmpty || decide (bytes.length < frameLen (bfld bytes 0 1)))
    (.next (if bytes.isEmpty || !portAlive s || !s.boot.mapReady then answer s [] else answer (addReg s Reg.portBad 1) []))

-- the TAP

/-- The TAP is out of reset (Table 20.5). -/
def tapOn (s : State) : Bool := s.pins.pwrOk
/-- Selects an instruction, or BYPASS where its condition does not hold (R510). -/
def tapSelect (s : State) (code : Nat) (ok : Bool) : State := { s with tap := { s.tap with ir := if ok then code else 0xFF } }

/-- What a selected data register shifts out on TDO. -/
def tapOut (s : State) (n v : Nat) : State := { s with out := s.out ++ [.tdo n v] }
/-- R510: IDCODE selects its register, which is shifted out. -/
def execIdcode (s : State) : Host.Outcome State Fault Refusal := guard s (tapOn s) (tapOut (tapSelect s 0x01 true) 32 (idcode s))
/-- BYPASS: one bit, captured as 0 (IEEE 1149.1). -/
def execBypass (s : State) : Host.Outcome State Fault Refusal := guard s (tapOn s) (tapOut (tapSelect s 0xFF true) 1 0)
/-- SAMPLE/PRELOAD, with the bits shifted into the boundary register. -/
def execSamplePreload (preload : List Byte) (s : State) : Host.Outcome State Fault Refusal :=
  guard s (tapOn s) (tapSelect { s with tap := { s.tap with boundary := preload } } 0x02 true)

/-- R511: where the instructions EXTEST to HIGHZ are accepted. -/
def scanAllowed (s : State) : Bool := debugLevel s == 3 || imgState s == 0 || imgState s == 4

/-- An Extium Link stops: its requesters end with LINK_DOWN; no link event is written, for R338 names none (log entry 54). -/
def stopExt (s : State) (l : Nat) : State :=
  let e := getExt s l
  if e.st = .disabled ∨ e.st = .down then s
  else
    let s := (s.stns.map (·.1)).foldl (fun s u => failUnit s (8 + l) u) s
    putExt (clearLink (clearCredits s (8 + l)) (8 + l)) l { e with st := .down }

/-- R511: the scan state: the Supervisor ends, the outputs stand under the boundary register, the links stop. -/
def scanSelect (s : State) (code : Nat) : State :=
  if !scanAllowed s then tapSelect s code false
  else
    let s := tapSelect s code true
    if s.tap.scan then s
    else
      let s := setReg { s with tap := { s.tap with scan := true } } Reg.hostLink 0
      unpair (stopExt (stopExt s 0) 1)

def execExtest (s : State) : Host.Outcome State Fault Refusal := guard s (tapOn s) (scanSelect s 0x03)
def execExtestPulse (s : State) : Host.Outcome State Fault Refusal := guard s (tapOn s) (scanSelect s 0x04)
def execExtestTrain (s : State) : Host.Outcome State Fault Refusal := guard s (tapOn s) (scanSelect s 0x05)
def execClamp (s : State) : Host.Outcome State Fault Refusal := guard s (tapOn s) (scanSelect s 0x06)
def execHighz (s : State) : Host.Outcome State Fault Refusal := guard s (tapOn s) (scanSelect s 0x07)
/-- SCAN: at D3 only, and BYPASS once D3 has ended (`tapEndScan`). What the internal chains hold is not stated. -/
def execScan (s : State) : Host.Outcome State Fault Refusal := guard s (tapOn s) (tapSelect s 0x20 (debugLevel s == 3))
/-- R599: TRST_N low: Test-Logic-Reset, which selects IDCODE (IEEE 1149.1). The scan state stays (R511). -/
def execTestLogicReset (s : State) : Host.Outcome State Fault Refusal := guard s (tapOn s) (tapSelect s 0x01 true)

/-- R510: DBG_ACCESS selects its data register (no operand), and through it a DBG_ register is read (an address) or
written (an address and a value), as over the Control Port. -/
def execDbgAccess (req : Option (Nat × Option Nat)) (s : State) : Host.Outcome State Fault Refusal :=
  let t := tapSelect s 0x10 true
  let ok := match req with
    | some (a, some v) => decide (a < 1024) && isWord v
    | some (a, none) => decide (a < 1024)
    | none => true
  withOperand ok (guard s (tapOn s)
    (if !s.boot.mapReady || s.pins.refLost then t
     else match req with
     | none => t
     | some (a, none) => readOut 2 a t
     | some (a, some v) => if s.gov.ps = .p4 then t else writeReg 2 a v t))

end Sys2Proof.Machine
end

