-- ==== Sys2Proof/Machine/Dispatch.lean ====
section
/-! DEFINITION. Machine/Dispatch.lean: one arm per command, each a direct call of its meaning. -/

namespace Sys2Proof.Machine

/-- The effect of a command on everything but the queue. -/
def exec (i : Instr) (s : State) : Host.Outcome State Fault Refusal :=
  match i with
  | .regWrite space a v => Sys2Proof.Machine.execRegWrite space a v s
  | .rcRead path a => Sys2Proof.Machine.execRcRead path a s
  | .w1cWrite path a v => Sys2Proof.Machine.execW1cWrite path a v s
  | .snapshotRead path a => Sys2Proof.Machine.execSnapshotRead path a s
  | .instrIssue u => Sys2Proof.Machine.execInstrIssue u s
  | .heldRetire u t => Sys2Proof.Machine.execHeldRetire u t s
  | .nop u t => Sys2Proof.Machine.execNop u t s
  | .park u t => Sys2Proof.Machine.execPark u t s
  | .brk u t => Sys2Proof.Machine.execBrk u t s
  | .rdsr u t => Sys2Proof.Machine.execRdsr u t s
  | .setvl u t => Sys2Proof.Machine.execSetvl u t s
  | .add u t => Sys2Proof.Machine.execAdd u t s
  | .sub u t => Sys2Proof.Machine.execSub u t s
  | .and u t => Sys2Proof.Machine.execAnd u t s
  | .or u t => Sys2Proof.Machine.execOr u t s
  | .xor u t => Sys2Proof.Machine.execXor u t s
  | .shl u t => Sys2Proof.Machine.execShl u t s
  | .shr u t => Sys2Proof.Machine.execShr u t s
  | .sra u t => Sys2Proof.Machine.execSra u t s
  | .slt u t => Sys2Proof.Machine.execSlt u t s
  | .sltu u t => Sys2Proof.Machine.execSltu u t s
  | .min u t => Sys2Proof.Machine.execMin u t s
  | .max u t => Sys2Proof.Machine.execMax u t s
  | .minu u t => Sys2Proof.Machine.execMinu u t s
  | .maxu u t => Sys2Proof.Machine.execMaxu u t s
  | .mul u t => Sys2Proof.Machine.execMul u t s
  | .mulh u t => Sys2Proof.Machine.execMulh u t s
  | .mulhu u t => Sys2Proof.Machine.execMulhu u t s
  | .adds u t => Sys2Proof.Machine.execAdds u t s
  | .subs u t => Sys2Proof.Machine.execSubs u t s
  | .clz u t => Sys2Proof.Machine.execClz u t s
  | .popc u t => Sys2Proof.Machine.execPopc u t s
  | .addi u t => Sys2Proof.Machine.execAddi u t s
  | .andi u t => Sys2Proof.Machine.execAndi u t s
  | .ori u t => Sys2Proof.Machine.execOri u t s
  | .xori u t => Sys2Proof.Machine.execXori u t s
  | .slti u t => Sys2Proof.Machine.execSlti u t s
  | .sltiu u t => Sys2Proof.Machine.execSltiu u t s
  | .lui u t => Sys2Proof.Machine.execLui u t s
  | .shli u t => Sys2Proof.Machine.execShli u t s
  | .shri u t => Sys2Proof.Machine.execShri u t s
  | .srai u t => Sys2Proof.Machine.execSrai u t s
  | .beq u t => Sys2Proof.Machine.execBeq u t s
  | .bne u t => Sys2Proof.Machine.execBne u t s
  | .blt u t => Sys2Proof.Machine.execBlt u t s
  | .bge u t => Sys2Proof.Machine.execBge u t s
  | .bltu u t => Sys2Proof.Machine.execBltu u t s
  | .bgeu u t => Sys2Proof.Machine.execBgeu u t s
  | .j u t => Sys2Proof.Machine.execJ u t s
  | .call u t => Sys2Proof.Machine.execCall u t s
  | .jr u t => Sys2Proof.Machine.execJr u t s
  | .callr u t => Sys2Proof.Machine.execCallr u t s
  | .ret u t => Sys2Proof.Machine.execRet u t s
  | .trapService u => Sys2Proof.Machine.execTrapService u s
  | .lw u t => Sys2Proof.Machine.execLw u t s
  | .lh u t => Sys2Proof.Machine.execLh u t s
  | .lhu u t => Sys2Proof.Machine.execLhu u t s
  | .lb u t => Sys2Proof.Machine.execLb u t s
  | .lbu u t => Sys2Proof.Machine.execLbu u t s
  | .sw u t => Sys2Proof.Machine.execSw u t s
  | .sh u t => Sys2Proof.Machine.execSh u t s
  | .sb u t => Sys2Proof.Machine.execSb u t s
  | .ewait u t => Sys2Proof.Machine.execEwait u t s
  | .waitWake u t => Sys2Proof.Machine.execWaitWake u t s
  | .esig u t => Sys2Proof.Machine.execEsig u t s
  | .eset u t => Sys2Proof.Machine.execEset u t s
  | .erd u t => Sys2Proof.Machine.execErd u t s
  | .rsig u t => Sys2Proof.Machine.execRsig u t s
  | .signalSend u => Sys2Proof.Machine.execSignalSend u s
  | .signalApply n => Sys2Proof.Machine.execSignalApply n s
  | .pissue u t => Sys2Proof.Machine.execPissue u t s
  | .pstat u t => Sys2Proof.Machine.execPstat u t s
  | .pclr u t => Sys2Proof.Machine.execPclr u t s
  | .pcancel u t => Sys2Proof.Machine.execPcancel u t s
  | .descStart u ch => Sys2Proof.Machine.execDescStart u ch s
  | .pumpBlock u ch => Sys2Proof.Machine.execPumpBlock u ch s
  | .descComplete u ch => Sys2Proof.Machine.execDescComplete u ch s
  | .timeout u req => Sys2Proof.Machine.execTimeout u req s
  | .chain u t => Sys2Proof.Machine.execChain u t s
  | .cabort u t => Sys2Proof.Machine.execCabort u t s
  | .cpos u t => Sys2Proof.Machine.execCpos u t s
  | .cstat u t => Sys2Proof.Machine.execCstat u t s
  | .chainStart u t => Sys2Proof.Machine.execChainStart u t s
  | .chainTileOutput u t => Sys2Proof.Machine.execChainTileOutput u t s
  | .attnPageRead u t => Sys2Proof.Machine.execAttnPageRead u t s
  | .gatherShareStart u t d g => Sys2Proof.Machine.execGatherShareStart u t d g s
  | .reduceCombine u t g => Sys2Proof.Machine.execReduceCombine u t g s
  | .chainComplete u t => Sys2Proof.Machine.execChainComplete u t s
  | .mshift u t => Sys2Proof.Machine.execMshift u t s
  | .mpass u t => Sys2Proof.Machine.execMpass u t s
  | .shiftStart u ma => Sys2Proof.Machine.execShiftStart u ma s
  | .shiftComplete u ma => Sys2Proof.Machine.execShiftComplete u ma s
  | .passStart u ma => Sys2Proof.Machine.execPassStart u ma s
  | .passComplete u ma => Sys2Proof.Machine.execPassComplete u ma s
  | .vopAdd u t => Sys2Proof.Machine.execVopAdd u t s
  | .vopSub u t => Sys2Proof.Machine.execVopSub u t s
  | .vopMul u t => Sys2Proof.Machine.execVopMul u t s
  | .vopFma u t => Sys2Proof.Machine.execVopFma u t s
  | .vopMin u t => Sys2Proof.Machine.execVopMin u t s
  | .vopMax u t => Sys2Proof.Machine.execVopMax u t s
  | .vopAbs u t => Sys2Proof.Machine.execVopAbs u t s
  | .vopNeg u t => Sys2Proof.Machine.execVopNeg u t s
  | .vopSel u t => Sys2Proof.Machine.execVopSel u t s
  | .vopAddb u t => Sys2Proof.Machine.execVopAddb u t s
  | .vopSubb u t => Sys2Proof.Machine.execVopSubb u t s
  | .vopMulb u t => Sys2Proof.Machine.execVopMulb u t s
  | .vopExp u t => Sys2Proof.Machine.execVopExp u t s
  | .vopLog u t => Sys2Proof.Machine.execVopLog u t s
  | .vopRcp u t => Sys2Proof.Machine.execVopRcp u t s
  | .vopRsqrt u t => Sys2Proof.Machine.execVopRsqrt u t s
  | .vopSqrt u t => Sys2Proof.Machine.execVopSqrt u t s
  | .vopTanh u t => Sys2Proof.Machine.execVopTanh u t s
  | .vopSigmoid u t => Sys2Proof.Machine.execVopSigmoid u t s
  | .vopSilu u t => Sys2Proof.Machine.execVopSilu u t s
  | .vopGeluTanh u t => Sys2Proof.Machine.execVopGeluTanh u t s
  | .vcmp u t => Sys2Proof.Machine.execVcmp u t s
  | .vredRsum u t => Sys2Proof.Machine.execVredRsum u t s
  | .vredRmax u t => Sys2Proof.Machine.execVredRmax u t s
  | .vredRmin u t => Sys2Proof.Machine.execVredRmin u t s
  | .vredRmaxabs u t => Sys2Proof.Machine.execVredRmaxabs u t s
  | .vmovMov u t => Sys2Proof.Machine.execVmovMov u t s
  | .splat u t => Sys2Proof.Machine.execSplat u t s
  | .compress u t => Sys2Proof.Machine.execCompress u t s
  | .expand u t => Sys2Proof.Machine.execExpand u t s
  | .zero u t => Sys2Proof.Machine.execZero u t s
  | .mand u t => Sys2Proof.Machine.execMand u t s
  | .mor u t => Sys2Proof.Machine.execMor u t s
  | .mxor u t => Sys2Proof.Machine.execMxor u t s
  | .mnot u t => Sys2Proof.Machine.execMnot u t s
  | .mset u t => Sys2Proof.Machine.execMset u t s
  | .vfence u t => Sys2Proof.Machine.execVfence u t s
  | .vfenceFire u => Sys2Proof.Machine.execVfenceFire u s
  | .vcvt u t => Sys2Proof.Machine.execVcvt u t s
  | .vecCmdStart u => Sys2Proof.Machine.execVecCmdStart u s
  | .vecCmdComplete u => Sys2Proof.Machine.execVecCmdComplete u s
  | .psetw u t => Sys2Proof.Machine.execPsetw u t s
  | .slotw u t => Sys2Proof.Machine.execSlotw u t s
  | .slotr u t => Sys2Proof.Machine.execSlotr u t s
  | .ncucnt u t => Sys2Proof.Machine.execNcucnt u t s
  | .stepclose u t => Sys2Proof.Machine.execStepclose u t s
  | .stepBoundary u => Sys2Proof.Machine.execStepBoundary u s
  | .cistCeWriteback w => Sys2Proof.Machine.execCistCeWriteback w s
  | .wellRead a => Sys2Proof.Machine.execWellRead a s
  | .wellReread => Sys2Proof.Machine.execWellReread s
  | .wellRefresh => Sys2Proof.Machine.execWellRefresh s
  | .wellRecal => Sys2Proof.Machine.execWellRecal s
  | .scrubCistLine => Sys2Proof.Machine.execScrubCistLine s
  | .scrubWellBeat => Sys2Proof.Machine.execScrubWellBeat s
  | .textScrub => Sys2Proof.Machine.execTextScrub s
  | .threadPark u t => Sys2Proof.Machine.execThreadPark u t s
  | .parkRequest u => Sys2Proof.Machine.execParkRequest u s
  | .pmWrite u addr ws => Sys2Proof.Machine.execPmWrite u addr ws s
  | .resume u acts => Sys2Proof.Machine.execResume u acts s
  | .deadlockCountExpire u => Sys2Proof.Machine.execDeadlockCountExpire u s
  | .stationReset ls => Sys2Proof.Machine.execStationReset ls s
  | .stationResetRelease ls => Sys2Proof.Machine.execStationResetRelease ls s
  | .unitSwitch ls => Sys2Proof.Machine.execUnitSwitch ls s
  | .siphonTileSend u req => Sys2Proof.Machine.execSiphonTileSend u req s
  | .flitReceive h noise bytes => Sys2Proof.Machine.execFlitReceive h noise bytes s
  | .nakReceive h bytes => Sys2Proof.Machine.execNakReceive h bytes s
  | .replayTimeout h => Sys2Proof.Machine.execReplayTimeout h s
  | .linkAckTimeout h => Sys2Proof.Machine.execLinkAckTimeout h s
  | .lossOfLock h => Sys2Proof.Machine.execLossOfLock h s
  | .tileLand n => Sys2Proof.Machine.execTileLand n s
  | .landedReceive n => Sys2Proof.Machine.execLandedReceive n s
  | .ctrlDownReceive down => Sys2Proof.Machine.execCtrlDownReceive down s
  | .dieLinkRetrain l => Sys2Proof.Machine.execDieLinkRetrain l s
  | .linkPairCtlWrite v => Sys2Proof.Machine.execLinkPairCtlWrite v s
  | .linkRetrain v => Sys2Proof.Machine.execLinkRetrain v s
  | .extLinkTrainState l => Sys2Proof.Machine.execExtLinkTrainState l s
  | .pairInfo l peerRole variant maps => Sys2Proof.Machine.execPairInfo l peerRole variant maps s
  | .extAutoRetrain l => Sys2Proof.Machine.execExtAutoRetrain l s
  | .linkTrainTimeout => Sys2Proof.Machine.execLinkTrainTimeout s
  | .pairStandby => Sys2Proof.Machine.execPairStandby s
  | .pairHoldExpire => Sys2Proof.Machine.execPairHoldExpire s
  | .windowStart => Sys2Proof.Machine.execWindowStart s
  | .leaveRequest kind u x y => Sys2Proof.Machine.execLeaveRequest kind u x y s
  | .leaveGrant => Sys2Proof.Machine.execLeaveGrant s
  | .droopAssert src => Sys2Proof.Machine.execDroopAssert src s
  | .droopStretchEnd => Sys2Proof.Machine.execDroopStretchEnd s
  | .thermSample dieT stackT => Sys2Proof.Machine.execThermSample dieT stackT s
  | .pwrCtlWrite v => Sys2Proof.Machine.execPwrCtlWrite v s
  | .pstateTransition => Sys2Proof.Machine.execPstateTransition s
  | .autoIdleEnter => Sys2Proof.Machine.execAutoIdleEnter s
  | .p3Entry => Sys2Proof.Machine.execP3Entry s
  | .p3Exit => Sys2Proof.Machine.execP3Exit s
  | .vidStep => Sys2Proof.Machine.execVidStep s
  | .refclkLoss => Sys2Proof.Machine.execRefclkLoss s
  | .sqTailDoorbell n v => Sys2Proof.Machine.execSqTailDoorbell n v s
  | .cqHeadDoorbell n v => Sys2Proof.Machine.execCqHeadDoorbell n v s
  | .qpEnableWrite n v => Sys2Proof.Machine.execQpEnableWrite n v s
  | .qpDisableDone n => Sys2Proof.Machine.execQpDisableDone n s
  | .qpCoalWrite n v => Sys2Proof.Machine.execQpCoalWrite n v s
  | .sqFetch n entry => Sys2Proof.Machine.execSqFetch n entry s
  | .msixCoalTimeout n => Sys2Proof.Machine.execMsixCoalTimeout n s
  | .flr => Sys2Proof.Machine.execFlr s
  | .openSession sid => Sys2Proof.Machine.execOpenSession sid s
  | .config sid payload => Sys2Proof.Machine.execConfig sid payload s
  | .appendText sid payload => Sys2Proof.Machine.execAppendText sid payload s
  | .appendTokens sid payload => Sys2Proof.Machine.execAppendTokens sid payload s
  | .generate sid => Sys2Proof.Machine.execGenerate sid s
  | .cancel sid => Sys2Proof.Machine.execCancel sid s
  | .cancelApply sid => Sys2Proof.Machine.execCancelApply sid s
  | .close sid => Sys2Proof.Machine.execClose sid s
  | .querySession sid => Sys2Proof.Machine.execQuerySession sid s
  | .queryDevice sid => Sys2Proof.Machine.execQueryDevice sid s
  | .stepStart => Sys2Proof.Machine.execStepStart s
  | .stepComplete peer => Sys2Proof.Machine.execStepComplete peer s
  | .stepWatchdog => Sys2Proof.Machine.execStepWatchdog s
  | .stepFault peer => Sys2Proof.Machine.execStepFault peer s
  | .tokenizeAppend k => Sys2Proof.Machine.execTokenizeAppend k s
  | .textSramRepair => Sys2Proof.Machine.execTextSramRepair s
  | .load extents image => Sys2Proof.Machine.execLoad extents image s
  | .unload => Sys2Proof.Machine.execUnload s
  | .primingStart => Sys2Proof.Machine.execPrimingStart s
  | .primingComplete => Sys2Proof.Machine.execPrimingComplete s
  | .primingTimeout => Sys2Proof.Machine.execPrimingTimeout s
  | .timeTick => Sys2Proof.Machine.execTimeTick s
  | .ptmMeasure master => Sys2Proof.Machine.execPtmMeasure master s
  | .ppsEdge => Sys2Proof.Machine.execPpsEdge s
  | .servoHoldover => Sys2Proof.Machine.execServoHoldover s
  | .timeSrcSelect v => Sys2Proof.Machine.execTimeSrcSelect v s
  | .stepReq v => Sys2Proof.Machine.execStepReq v s
  | .timeTodHiWrite v => Sys2Proof.Machine.execTimeTodHiWrite v s
  | .floatOpRead path n => Sys2Proof.Machine.execFloatOpRead path n s
  | .sumpIntake => Sys2Proof.Machine.execSumpIntake s
  | .sumpRecRead path => Sys2Proof.Machine.execSumpRecRead path s
  | .evtMaskWrite v => Sys2Proof.Machine.execEvtMaskWrite v s
  | .telemSnapshot => Sys2Proof.Machine.execTelemSnapshot s
  | .lcTransition w => Sys2Proof.Machine.execLcTransition w s
  | .slotProgram v => Sys2Proof.Machine.execSlotProgram v s
  | .slotRevoke v => Sys2Proof.Machine.execSlotRevoke v s
  | .attest v => Sys2Proof.Machine.execAttest v s
  | .zeroize w => Sys2Proof.Machine.execZeroize w s
  | .svnAdvance v => Sys2Proof.Machine.execSvnAdvance v s
  | .drbgReseed => Sys2Proof.Machine.execDrbgReseed s
  | .entropyHealthFail => Sys2Proof.Machine.execEntropyHealthFail s
  | .dbgReqWrite jtag v => Sys2Proof.Machine.execDbgReqWrite jtag v s
  | .dbgResponse jtag v => Sys2Proof.Machine.execDbgResponse jtag v s
  | .challengeExpire => Sys2Proof.Machine.execChallengeExpire s
  | .readThread w => Sys2Proof.Machine.execReadThread w s
  | .readEvents w => Sys2Proof.Machine.execReadEvents w s
  | .readPump w => Sys2Proof.Machine.execReadPump w s
  | .halt w => Sys2Proof.Machine.execHalt w s
  | .haltDone => Sys2Proof.Machine.execHaltDone s
  | .dbgResume w => Sys2Proof.Machine.execDbgResume w s
  | .dbgStep w => Sys2Proof.Machine.execDbgStep w s
  | .brkArm w => Sys2Proof.Machine.execBrkArm w s
  | .brkDisarm w => Sys2Proof.Machine.execBrkDisarm w s
  | .readScalar w => Sys2Proof.Machine.execReadScalar w s
  | .writeScalar w => Sys2Proof.Machine.execWriteScalar w s
  | .readTile w => Sys2Proof.Machine.execReadTile w s
  | .writeTile w => Sys2Proof.Machine.execWriteTile w s
  | .readMem w => Sys2Proof.Machine.execReadMem w s
  | .writeMem w => Sys2Proof.Machine.execWriteMem w s
  | .idcode => Sys2Proof.Machine.execIdcode s
  | .bypass => Sys2Proof.Machine.execBypass s
  | .samplePreload preload => Sys2Proof.Machine.execSamplePreload preload s
  | .extest => Sys2Proof.Machine.execExtest s
  | .extestPulse => Sys2Proof.Machine.execExtestPulse s
  | .extestTrain => Sys2Proof.Machine.execExtestTrain s
  | .clamp => Sys2Proof.Machine.execClamp s
  | .highz => Sys2Proof.Machine.execHighz s
  | .dbgAccess req => Sys2Proof.Machine.execDbgAccess req s
  | .scan => Sys2Proof.Machine.execScan s
  | .cpWriteFrame bytes => Sys2Proof.Machine.execCpWriteFrame bytes s
  | .cpReadFrame bytes => Sys2Proof.Machine.execCpReadFrame bytes s
  | .cpFrameAbandon bytes => Sys2Proof.Machine.execCpFrameAbandon bytes s
  | .winTableWrite path v => Sys2Proof.Machine.execWinTableWrite path v s
  | .winDataRead path => Sys2Proof.Machine.execWinDataRead path s
  | .winDataWrite path v => Sys2Proof.Machine.execWinDataWrite path v s
  | .bootGo v => Sys2Proof.Machine.execBootGo v s
  | .ctrlReset v => Sys2Proof.Machine.execCtrlReset v s
  | .mapStnReset v => Sys2Proof.Machine.execMapStnReset v s
  | .coldReset => Sys2Proof.Machine.execColdReset s
  | .pwrOkFall => Sys2Proof.Machine.execPwrOkFall s
  | .warmReset => Sys2Proof.Machine.execWarmReset s
  | .pcieLinkTrain rate width => Sys2Proof.Machine.execPcieLinkTrain rate width s
  | .bootRom => Sys2Proof.Machine.execBootRom s
  | .bootFlash bytes => Sys2Proof.Machine.execBootFlash bytes s
  | .fwAuth => Sys2Proof.Machine.execFwAuth s
  | .bootLinkTrain result => Sys2Proof.Machine.execBootLinkTrain result s
  | .memTrain failed => Sys2Proof.Machine.execMemTrain failed s
  | .selfTest badStations badStacks hubBad => Sys2Proof.Machine.execSelfTest badStations badStacks hubBad s
  | .entropyStartupPass => Sys2Proof.Machine.execEntropyStartupPass s
  | .idleAckFlit h => Sys2Proof.Machine.execIdleAckFlit h s
  | .peerImageId ready id pages => Sys2Proof.Machine.execPeerImageId ready id pages s
  | .secondaryStepRows no bufs pts masks => Sys2Proof.Machine.execSecondaryStepRows no bufs pts masks s
  | .msixVectorUnmask v => Sys2Proof.Machine.execMsixVectorUnmask v s
  | .testLogicReset => Sys2Proof.Machine.execTestLogicReset s
  | .vddIoValid => Sys2Proof.Machine.execVddIoValid s
  | .railOutOfTolerance => Sys2Proof.Machine.execRailOutOfTolerance s

end Sys2Proof.Machine
end

