-- ==== Sys2Proof/Safety.lean ====
section
/-! DEFINITION. Safety.lean: the terms that statements about the part are made in: what a step leaves as it was, where
a thread stands when one of its instructions retires, and the invariant that every step keeps. -/

namespace Sys2Proof.Machine

/-- The byte RAMs of the part are in their canonical form: rising addresses, and no byte listed that reads as 0. -/
def memWf (s : State) : Bool := tabWf 0 s.cist && tabWf 0 s.well

/-- The bytes that reads of the cistern (by global address, R111) and of the well (R117) find. -/
def cistByte (s : State) (g : Nat) : Byte := tabGet 0 s.cist g
def wellByte (s : State) (a : Nat) : Byte := tabGet 0 s.well a

/-- Only work unit `u` differs: everything else the part holds, and every other unit, is as it was. -/
structure OnlyUnit (u : Nat) (s t : State) : Prop where
  rest : { t with stns := s.stns } = s
  units : ∀ v, v ≠ u → stn t v = stn s v

/-- The instruction at the retirement point of thread `t` of unit `u` is `i`, and is an `op` (R158 to R162): the unit
runs, the thread is in RUN, the instruction is the oldest of its thread, nothing older retires before it, and it is not
held. -/
structure AtRetire (op : SOp) (s : State) (u t : Nat) (i : InFlight) : Prop where
  oldest : front (stn s u) t = some i
  runs : unitRuns s u = true
  head : atHead (stn s u) t = true
  free : i.held = false
  inRun : (thr (stn s u) t).st = .run
  isOp : sop i.word = some op

/-- What the retirement of an instruction of thread `t` leaves: only unit `u` differs, and in it only what `f` does to
the station and the departure of the instruction from the pipe. -/
def Retires (u t : Nat) (f : Station → Station) (s s' : State) : Prop :=
  OnlyUnit u s s' ∧ stn s' u = popFront (f (stn s u)) t

/-- Retirement that changes only the instruction's own thread. -/
def RetiresThread (u t : Nat) (f : Thread → Thread) (s s' : State) : Prop :=
  Retires u t (fun x => setThr x t (f (thr x t))) s s'

/-- Thread `h'` is `h` but for scalar register `rd`, which reads `v`; s0 reads 0 whatever is written (R165). -/
structure WritesReg (rd : Nat) (v : Word) (h h' : Thread) : Prop where
  written : sread h' rd = if rd = 0 then 0 else v
  others : ∀ r, r ≠ rd → sread h' r = sread h r
  rest : { h' with regs := h.regs } = h

/-- Retirement whose effect is one scalar register of the thread (and the fields that `f` changes). -/
def RetiresReg (u t rd : Nat) (v : Word) (s s' : State) : Prop :=
  ∃ h', WritesReg rd v (thr (stn s u) t) h' ∧ RetiresThread u t (fun _ => h') s s'

/-- A thread that traps with a fatal cause (R175, R177): TRAPPED at the instruction with its cause. -/
def TrapsWith (u t cause : Nat) (i : InFlight) (s' : State) : Prop :=
  (thr (stn s' u) t).st = .trapped ∧ (thr (stn s' u) t).cause = cause ∧ (thr (stn s' u) t).pc = i.pc

end Sys2Proof.Machine
end

