-- ==== Sys2Proof/Certificates/Slice0/Obligations.lean ====
section
/-! DEFINITION. Certificates/Slice0/Obligations.lean: what is stated of the part, from its numbered rules. The tables of
operations stand in namespace Sys2Proof.Stated, written from the spec's tables. -/

namespace Sys2Proof.Stated

open Sys2Proof Sys2Proof.Machine

/-- A command of a thread of a unit. -/
abbrev ThreadCmd := Nat → Nat → Instr

/-- Clamps an exact result to INT32 (Table 06.3, ADDS and SUBS). -/
def sat32 (x : Int) : Word := BitVec.ofInt 32 (max (-2147483648) (min 2147483647 x))

/-- Table 06.3: the register operations, their results from the operands `a` (ra) and `b` (rb). -/
def regOps : List (ThreadCmd × SOp × (Word → Word → Word)) :=
  [(.add, .add, fun a b => a + b), (.sub, .sub, fun a b => a - b), (.and, .and, fun a b => a &&& b),
   (.or, .or, fun a b => a ||| b), (.xor, .xor, fun a b => a ^^^ b),
   (.shl, .shl, fun a b => a <<< (b.toNat % 32)), (.shr, .shr, fun a b => a >>> (b.toNat % 32)),
   (.sra, .sra, fun a b => a.sshiftRight (b.toNat % 32)),
   (.slt, .slt, fun a b => if a.toInt < b.toInt then 1 else 0), (.sltu, .sltu, fun a b => if a.toNat < b.toNat then 1 else 0),
   (.min, .min, fun a b => if a.toInt ≤ b.toInt then a else b), (.max, .max, fun a b => if a.toInt ≤ b.toInt then b else a),
   (.minu, .minu, fun a b => if a.toNat ≤ b.toNat then a else b), (.maxu, .maxu, fun a b => if a.toNat ≤ b.toNat then b else a),
   (.mul, .mul, fun a b => a * b),
   (.mulh, .mulh, fun a b => BitVec.ofInt 32 (a.toInt * b.toInt / 2 ^ 32)),
   (.mulhu, .mulhu, fun a b => BitVec.ofNat 32 (a.toNat * b.toNat / 2 ^ 32)),
   (.adds, .adds, fun a b => sat32 (a.toInt + b.toInt)), (.subs, .subs, fun a b => sat32 (a.toInt - b.toInt)),
   (.clz, .clz, fun a _ => BitVec.ofNat 32 ((List.range 32).takeWhile (fun k => !a.getLsbD (31 - k))).length),
   (.popc, .popc, fun a _ => BitVec.ofNat 32 ((List.range 32).filter (fun k => a.getLsbD k)).length)]

/-- Table 06.4: the immediate operations, from `a` (ra), the sign-extended and the zero-extended immediate. -/
def immOps : List (ThreadCmd × SOp × (Word → Word → Word → Word)) :=
  [(.addi, .addi, fun a x _ => a + x), (.andi, .andi, fun a _ z => a &&& z), (.ori, .ori, fun a _ z => a ||| z),
   (.xori, .xori, fun a _ z => a ^^^ z), (.slti, .slti, fun a x _ => if a.toInt < x.toInt then 1 else 0),
   (.sltiu, .sltiu, fun a x _ => if a.toNat < x.toNat then 1 else 0), (.lui, .lui, fun _ _ z => z <<< 16),
   (.shli, .shli, fun a _ z => a <<< (z.toNat % 32)), (.shri, .shri, fun a _ z => a >>> (z.toNat % 32)),
   (.srai, .srai, fun a _ z => a.sshiftRight (z.toNat % 32))]

/-- Table 06.5: the conditional branches, from the registers of bits [25:21] and [20:16]. -/
def branchOps : List (ThreadCmd × SOp × (Word → Word → Prop)) :=
  [(.beq, .beq, fun a b => a = b), (.bne, .bne, fun a b => a ≠ b), (.blt, .blt, fun a b => a.toInt < b.toInt),
   (.bge, .bge, fun a b => b.toInt ≤ a.toInt), (.bltu, .bltu, fun a b => a.toNat < b.toNat),
   (.bgeu, .bgeu, fun a b => b.toNat ≤ a.toNat)]

/-- Table 06.6: the loads, the bytes each reads, and the register's new value from them. -/
def loadOps : List (ThreadCmd × SOp × Nat × (Nat → Word)) :=
  [(.lw, .lw, 4, fun x => BitVec.ofNat 32 x), (.lh, .lh, 2, fun x => (BitVec.ofNat 16 x).signExtend 32),
   (.lhu, .lhu, 2, fun x => (BitVec.ofNat 16 x).zeroExtend 32), (.lb, .lb, 1, fun x => (BitVec.ofNat 8 x).signExtend 32),
   (.lbu, .lbu, 1, fun x => (BitVec.ofNat 8 x).zeroExtend 32)]

/-- Table 06.6: the stores and the bytes each writes. -/
def storeOps : List (ThreadCmd × SOp × Nat) := [(.sw, .sw, 4), (.sh, .sh, 2), (.sb, .sb, 1)]

/-- The 16-bit immediate of a word, sign-extended. -/
def simm (w : Nat) : Word := (BitVec.ofNat 16 w).signExtend 32

/-- The local address of a load or store (R197): s[ra] plus the immediate, modulo 2^32. -/
def localAddr (s : State) (u : Nat) (i : InFlight) : Nat := (opA s u i + simm i.word).toNat

/-- No 64-bit word that `n` bytes at local address `a` touch is marked in error (R114). -/
def cleanRange (s : State) (u a n : Nat) : Prop :=
  ∀ w m, gaddr u a / 8 ≤ w → w ≤ (gaddr u a + n - 1) / 8 → (w, m) ∉ s.cistErr

end Sys2Proof.Stated

open Sys2Proof Sys2Proof.Machine Sys2Proof.Stated

/-- R194, Table 06.3, R195, Table 06.4: Every register operation retires, s[rd] becomes its result, and nothing else of the thread, the unit or
the part changes; s0 stays 0 (R165). Every immediate operation retires with its result in s[rd], and nothing else changes. -/
def Obligations.ScalarOperationsWriteTheirResult : Prop :=
  (
  ∀ c op f, (c, op, f) ∈ regOps → ∀ s u t i, AtRetire op s u t i →
    ∃ s', exec (c u t) s = .next s' ∧ RetiresReg u t (fRd i.word) (f (opA s u i) (opB s u i)) s s') ∧
  (
  ∀ c op f, (c, op, f) ∈ immOps → ∀ s u t i, AtRetire op s u t i →
    ∃ s', exec (c u t) s = .next s' ∧
      RetiresReg u t (fRd i.word) (f (opA s u i) (simm i.word) (BitVec.ofNat 32 (fImm i.word))) s s')

/-- R196, Table 06.5: A conditional branch continues at its own address plus its offset where its condition holds, and at the next address where
it does not; addresses are modulo 2^14; nothing else changes. -/
def Obligations.BranchesContinueAtTargetOrNext : Prop :=
  ∀ c op p, (c, op, p) ∈ branchOps → ∀ s u t i, AtRetire op s u t i →
    ∃ s', exec (c u t) s = .next s' ∧
      (p (opD s u i) (opA s u i) →
        RetiresThread u t (fun h => { h with pc := (((i.pc : Int) + (simm i.word).toInt) % 16384).toNat }) s s') ∧
      (¬ p (opD s u i) (opA s u i) → RetiresThread u t (fun h => { h with pc := (i.pc + 1) % 16384 }) s s')

/-- R196, R172, R174, Table 06.5: J and JR continue at their target; CALL and CALLR, with room on the on-chip stack, push the next address and
continue at their target; RET, with an entry on the stack, pops it and continues there. -/
def Obligations.JumpsCallsAndReturnsContinueAtTheirTarget : Prop :=
  ∀ s u t i,
    (AtRetire .j s u t i → ∃ s', exec (.j u t) s = .next s' ∧
      RetiresThread u t (fun h => { h with pc := i.word % 16384 }) s s') ∧
    (AtRetire .jr s u t i → ∃ s', exec (.jr u t) s = .next s' ∧
      RetiresThread u t (fun h => { h with pc := (opA s u i).toNat % 16384 }) s s') ∧
    (AtRetire .call s u t i → (thr (stn s u) t).stack.length < 16 → ∃ s', exec (.call u t) s = .next s' ∧
      RetiresThread u t (fun h => { h with stack := (i.pc + 1) % 16384 :: h.stack, pc := i.word % 16384 }) s s') ∧
    (AtRetire .callr s u t i → (thr (stn s u) t).stack.length < 16 → ∃ s', exec (.callr u t) s = .next s' ∧
      RetiresThread u t (fun h => { h with stack := (i.pc + 1) % 16384 :: h.stack, pc := (opA s u i).toNat % 16384 }) s s') ∧
    (∀ e rest, AtRetire .ret s u t i → (thr (stn s u) t).stack = e :: rest → ∃ s', exec (.ret u t) s = .next s' ∧
      RetiresThread u t (fun h => { h with stack := rest, pc := e }) s s')

/-- R197, Table 06.6, R115: An aligned load of general storage from a word without errors writes s[rd] with the bytes at its
address, little-endian, extended as its mnemonic says; no memory and nothing else changes. An aligned store to general storage leaves every
byte of the cistern but those of its address, the well, every other unit and every register of its unit as they were; with no chain of
its unit in flight or unobserved (R282) it writes the low bytes of its source register at its address, little-endian, and changes nothing
else but the model's record of row-block lengths (log entry 28) and the departure of the instruction. -/
def Obligations.LoadsAndStoresAccessTheCistern : Prop :=
  (
  ∀ c op n f, (c, op, n, f) ∈ loadOps → ∀ s u t i, AtRetire op s u t i →
    localAddr s u i + n ≤ spillBase → localAddr s u i % n = 0 → cleanRange s u (localAddr s u i) n →
    ∃ s', exec (c u t) s = .next s' ∧
      RetiresReg u t (fRd i.word)
        (f (leNat ((List.range n).map (fun k => cistByte s (gaddr u (localAddr s u i) + k))))) s s') ∧
  (
  ∀ c op n, (c, op, n) ∈ storeOps → ∀ s u t i, AtRetire op s u t i →
    localAddr s u i + n ≤ spillBase → localAddr s u i % n = 0 → cleanRange s u (localAddr s u i) n →
    ∃ s', exec (c u t) s = .next s' ∧
      (∀ g, (g < gaddr u (localAddr s u i) ∨ gaddr u (localAddr s u i) + n ≤ g) → cistByte s' g = cistByte s g) ∧
      s'.well = s.well ∧ (∀ v, v ≠ u → stn s' v = stn s v) ∧ (∀ k, thr (stn s' u) k = thr (stn s u) k) ∧
      (stn s' u).pipe = (popFront (stn s u) t).pipe ∧
      (watched (stn s u) = [] →
        (∀ k, k < n → cistByte s' (gaddr u (localAddr s u i) + k) = (opD s u i).extractLsb' (8 * k) 8) ∧
        { s' with stns := s.stns, cist := s.cist, rbLen := s.rbLen } = s ∧ stn s' u = popFront (stn s u) t))

/-- R174, R175, R167, R198: A call with a full stack and 128 groups spilled traps with STACK_LIMIT (4), and a return with an
empty stack and no group spilled with STACK_UNDERFLOW (5); with room in the spill area, or a group spilled, the trap is transient
(CALL_SPILL 1, RET_FILL 2) and the thread waits for the trap context. A RET with nothing on the stack and nothing spilled traps with
STACK_UNDERFLOW (5); with groups spilled its trap is RET_FILL (2). A load or store that is misaligned or ends above general storage traps
with BAD_SCALAR_ADDR (6), and changes no byte of the cistern. -/
def Obligations.ScalarTrapsHaveTheirCause : Prop :=
  (
  ∀ s u t i c op, ((c : ThreadCmd), op) ∈ [(Instr.call, SOp.call), (Instr.callr, SOp.callr)] → AtRetire op s u t i →
    ((thr (stn s u) t).stack.length = 16 → (thr (stn s u) t).spill = 128 →
      ∃ s', exec (c u t) s = .next s' ∧ TrapsWith u t 4 i s') ∧
    ((thr (stn s u) t).stack.length = 16 → (thr (stn s u) t).spill < 128 →
      ∃ s', exec (c u t) s = .next s' ∧ TrapsWith u t 1 i s' ∧ (stn s' u).trapQ = (stn s u).trapQ ++ [t] ∧
        { s' with stns := s.stns } = s)) ∧
  (
  ∀ s u t i, AtRetire .ret s u t i → (thr (stn s u) t).stack = [] →
    ((thr (stn s u) t).spill = 0 → ∃ s', exec (.ret u t) s = .next s' ∧ TrapsWith u t 5 i s') ∧
    (0 < (thr (stn s u) t).spill → ∃ s', exec (.ret u t) s = .next s' ∧ TrapsWith u t 2 i s' ∧
      (stn s' u).trapQ = (stn s u).trapQ ++ [t])) ∧
  (
  ∀ c op n, ((c : ThreadCmd), op, n) ∈ [(Instr.lw, SOp.lw, 4), (Instr.lh, SOp.lh, 2), (Instr.lhu, SOp.lhu, 2),
      (Instr.lb, SOp.lb, 1), (Instr.lbu, SOp.lbu, 1), (Instr.sw, SOp.sw, 4), (Instr.sh, SOp.sh, 2), (Instr.sb, SOp.sb, 1)] →
    ∀ s u t i, AtRetire op s u t i → (spillBase < localAddr s u i + n ∨ localAddr s u i % n ≠ 0) →
    ∃ s', exec (c u t) s = .next s' ∧ TrapsWith u t 6 i s' ∧ s'.cist = s.cist)

namespace Sys2Proof.Stated

/-- Counter `e` of a station becomes `v`; every other counter, and everything else of the station, is as it was. -/
structure SetsEvent (e : Nat) (v : Word) (x x' : Station) : Prop where
  set : evGet x' e = v
  others : ∀ k, k ≠ e → evGet x' k = evGet x k
  rest : { x' with ev := x.ev } = x

/-- R171: the condition of a wait on counter `e` for `target`: their difference, as a signed number, is not negative. -/
def waitMet (x : Station) (e : Nat) (target : Word) : Prop := 0 ≤ (evGet x e - target).toInt

/-- Table 06.19: the special registers but CYCLE_LO. -/
def specials (s : State) (u t : Nat) : List (Nat × Nat) :=
  [(0, t), (1, u), (2, (thr (stn s u) t).vl), (3, if s.part.variant = 2 then 128 else 256),
   (5, (thr (stn s u) t).latchCycle / 2 ^ 32 % 2 ^ 32), (6, (thr (stn s u) t).spill)]

/-- Table 06.9: what PSTAT reads by its selector, where it latches nothing. -/
def pstatValues (s : State) (u t ch : Nat) : List (Nat × Nat) :=
  [(1, tabGet 0 (thr (stn s u) t).latchLast ch / 2 ^ 32), (3, tabGet 0 (thr (stn s u) t).latchErr ch / 2 ^ 32),
   (4, (getChan (stn s u) ch).errCnt),
   (5, (getChan (stn s u) ch).queue.length + (if (getChan (stn s u) ch).active.isSome then 1 else 0))]

/-- Table 06.16, R220: the fields of a parameter set by code. -/
def psetFields (p : Machine.PSet) (v : Nat) : List (Nat × Machine.PSet) :=
  [(0, { p with lsBase := v % 2 ^ 23 }), (1, { p with lsKind := v % 4 }), (2, { p with lsFmt := v % 2 }),
   (3, { p with lzEn := v % 2 }), (4, { p with lzBase := v % 2 ^ 23 }), (5, { p with reqTab := v % 2 }),
   (6, { p with reqM := v % 2 ^ 31 }), (7, { p with reqS := if v % 64 = 63 then 62 else v % 64 }),
   (8, { p with reqZp := v % 256 }), (9, { p with reqLo := v % 2 ^ 16 }), (10, { p with reqHi := v % 2 ^ 16 })]

/-- Table 06.17: the fields of a scale slot by code. -/
def slotFields (sl : Slot) (idx : Nat) : List (Nat × Nat) :=
  [(0, sl.fmt), (1, sl.zp), (2, sl.hlen), (3, sl.hr), (4, sl.e), (5, sl.ePrev), (6, sl.hist.length), (7, sl.underCnt),
   (8, sl.satCnt), (9, sl.nfCnt), (10, sl.misfitCnt), (11, if idx < sl.hist.length then sl.hist.getD idx 0 else 0)]

/-- Table 03.9, R221: what a pending write of a slot's FMT, ZP, HLEN, HR or E holds. -/
def slotWrites (v : Nat) : List (Nat × Nat) :=
  [(0, if (fmtOf v).map tensorFmt = some true then v else 7), (1, v % 256), (2, max 1 (Nat.min v 16)), (3, Nat.min v 3), (4, Nat.min (v % 256) 254)]

end Sys2Proof.Stated

/-- R169, R199, R200, Table 06.7, R171, R200: ESIG adds its count (1 to 255) to counter e modulo 2^32, ESET sets it to s[ra], ERD writes it to
s[ra]; nothing else changes. EWAIT retires at once where its condition holds, and a completed chain that signals its
counter has then been observed (R282); where it does not hold, the thread enters WAIT on the counter and target and its instruction stays in
the pipe; a waiting thread whose condition holds returns to RUN, its EWAIT retires, and the count of the stuck condition (R183) restarts. An
ESIG of count 0 is illegal (3). -/
def Obligations.EventInstructionsAndWaitsActOnTheirCounter : Prop :=
  (
  ∀ s u t i,
    (AtRetire .esig s u t i → bits i.word 15 8 ≠ 0 → ∃ s' x', exec (.esig u t) s = .next s' ∧
      SetsEvent (fRd i.word) (evGet (stn s u) (fRd i.word) + BitVec.ofNat 32 (bits i.word 15 8)) (stn s u) x' ∧
      Retires u t (fun _ => x') s s') ∧
    (AtRetire .esig s u t i → bits i.word 15 8 = 0 → ∃ s', exec (.esig u t) s = .next s' ∧ TrapsWith u t 3 i s') ∧
    (AtRetire .eset s u t i → ∃ s' x', exec (.eset u t) s = .next s' ∧
      SetsEvent (fRd i.word) (opA s u i) (stn s u) x' ∧ Retires u t (fun _ => x') s s') ∧
    (AtRetire .erd s u t i → ∃ s', exec (.erd u t) s = .next s' ∧
      RetiresReg u t (fRa i.word) (evGet (stn s u) (fRd i.word)) s s')) ∧
  (
  ∀ s u t,
    (∀ i, AtRetire .ewait s u t i → waitMet (stn s u) (fRd i.word) (opA s u i) →
      ∃ s', exec (.ewait u t) s = .next s' ∧ Retires u t (fun x => chainSeen x (fRd i.word)) s s') ∧
    (∀ i, AtRetire .ewait s u t i → ¬ waitMet (stn s u) (fRd i.word) (opA s u i) →
      ∃ s', exec (.ewait u t) s = .next s' ∧ (thr (stn s' u) t).st = .wait ∧ (thr (stn s' u) t).waitEv = fRd i.word ∧
        (thr (stn s' u) t).waitTarget = (opA s u i).toNat ∧ front (stn s' u) t = some { i with held := true }) ∧
    (unitRuns s u = true → (thr (stn s u) t).st = .wait →
      waitMet (stn s u) (thr (stn s u) t).waitEv (BitVec.ofNat 32 (thr (stn s u) t).waitTarget) →
      ∃ s', exec (.waitWake u t) s = .next s' ∧ Retires u t (fun x =>
        setThr (notStuck (chainSeen x (thr x t).waitEv)) t { thr x t with st := .run }) s s'))

/-- R170, R199: RSIG to a remote-capable counter of a work unit with a host, of this package or, while it is paired, of the other, appends the
signal to the station's outbound queue of 8 where there is room, and nothing else changes; while the queue holds 8 the instruction is held and
nothing else changes; a counter below 16 is illegal (3), and an operand above 255 or a target with no host is BAD_TARGET (9). -/
def Obligations.RemoteSignalsEnterTheOutboundQueue : Prop :=
  ∀ s u t i, AtRetire .rsig s u t i →
    (∀ v, (opA s u i).toNat = v → 16 ≤ fRd i.word →
      (v < 128 ∧ (hostOf s v).isSome ∨ 128 ≤ v ∧ v < 256 ∧ s.paired = true ∧ peerHosts s (v - 128) = true) →
      ((stn s u).outq.length < 8 → ∃ s', exec (.rsig u t) s = .next s' ∧
        Retires u t (fun x => { x with outq := x.outq ++ [⟨u, v % 128, decide (128 ≤ v), fRd i.word⟩] }) s s') ∧
      (8 ≤ (stn s u).outq.length → ∃ s', exec (.rsig u t) s = .next s' ∧ OnlyUnit u s s' ∧ stn s' u = markHeld (stn s u) t)) ∧
    (fRd i.word < 16 → ∃ s', exec (.rsig u t) s = .next s' ∧ TrapsWith u t 3 i s') ∧
    (16 ≤ fRd i.word → (256 ≤ (opA s u i).toNat ∨ (opA s u i).toNat < 128 ∧ hostOf s (opA s u i).toNat = none) →
      ∃ s', exec (.rsig u t) s = .next s' ∧ TrapsWith u t 9 i s')

/-- R158, R210, R224: NOP changes nothing; a BRK whose breakpoints are not armed is a NOP; SETVL sets VL and s[rd] to the lesser of s[ra] and
64; PARK, in a thread that is not being single-stepped, parks the thread with its PC after the PARK and empties it of instructions, and so
does an armed BRK, which reports the thread. -/
def Obligations.SystemInstructionsHaveTheirEffect : Prop :=
  ∀ s u t i,
    (AtRetire .nop s u t i → ∃ s', exec (.nop u t) s = .next s' ∧ Retires u t id s s') ∧
    (AtRetire .brk s u t i → (stn s u).brkArmed = false → ∃ s', exec (.brk u t) s = .next s' ∧ Retires u t id s s') ∧
    (AtRetire .brk s u t i → (stn s u).brkArmed = true → (stn s u).stepThread ≠ some t →
      ∃ s', exec (.brk u t) s = .next s' ∧ OnlyUnit u s s' ∧ (thr (stn s' u) t).st = .parked ∧
        (thr (stn s' u) t).pc = (i.pc + 1) % 16384 ∧ front (stn s' u) t = none ∧ (stn s' u).brkHit = (stn s u).brkHit ++ [t]) ∧
    (AtRetire .setvl s u t i → ∃ s' h', exec (.setvl u t) s = .next s' ∧
      WritesReg (fRd i.word) (BitVec.ofNat 32 (Nat.min (opA s u i).toNat 64))
        { thr (stn s u) t with vl := Nat.min (opA s u i).toNat 64 } h' ∧ RetiresThread u t (fun _ => h') s s') ∧
    (AtRetire .park s u t i → (stn s u).stepThread ≠ some t →
      ∃ s', exec (.park u t) s = .next s' ∧ OnlyUnit u s s' ∧ (thr (stn s' u) t).st = .parked ∧
        (thr (stn s' u) t).pc = (i.pc + 1) % 16384 ∧ (thr (stn s' u) t).regs = (thr (stn s u) t).regs ∧
        front (stn s' u) t = none ∧ ∀ k, k ≠ t → thr (stn s' u) k = thr (stn s u) k)

/-- R225, Table 06.19, R201 to R203, R146, R305: RDSR writes the special register it names to s[rd] and changes nothing else; CYCLE_LO reads the
low word of the cycle count and latches the count for the thread; a number above 6 is illegal (3). CPOS reads the position of the thread's
chain in flight, or of its last chain where none is; CSTAT reads 0x7F while a chain is in flight and the status of the last chain where
none is; PSTAT reads what Table 06.9 says, selectors 0 and 2 latching the 64-bit word whose high half selectors 1 and 3 read, and a selector
above 5 is illegal (3); PCLR clears FIRST_ERR and ERR_CNT of its channel; PCANCEL marks the channel's descriptors, queued and active, as
cancelled; each changes nothing else. -/
def Obligations.StatusAndSpecialRegistersRead : Prop :=
  (
  ∀ s u t i, AtRetire .rdsr s u t i →
    (∀ n v, (n, v) ∈ specials s u t → fRb i.word = n →
      ∃ s', exec (.rdsr u t) s = .next s' ∧ RetiresReg u t (fRd i.word) (BitVec.ofNat 32 v) s s') ∧
    (fRb i.word = 4 → ∃ s' h', exec (.rdsr u t) s = .next s' ∧
      WritesReg (fRd i.word) (BitVec.ofNat 32 s.cyc) { thr (stn s u) t with latchCycle := s.cyc } h' ∧
      RetiresThread u t (fun _ => h') s s') ∧
    (6 < fRb i.word → ∃ s', exec (.rdsr u t) s = .next s' ∧ TrapsWith u t 3 i s')) ∧
  (
  ∀ s u t i,
    (AtRetire .cpos s u t i → ∃ s', exec (.cpos u t) s = .next s' ∧
      RetiresReg u t (fRd i.word) (BitVec.ofNat 32 (((chainOf (stn s u) t).map (·.pos)).getD (thr (stn s u) t).chainPos)) s s') ∧
    (AtRetire .cstat s u t i → ∃ s', exec (.cstat u t) s = .next s' ∧
      RetiresReg u t (fRd i.word)
        (if (chainOf (stn s u) t).isSome then 0x7F else BitVec.ofNat 32 (thr (stn s u) t).chainStat) s s') ∧
    (AtRetire .pstat s u t i →
      (∀ n v, (n, v) ∈ pstatValues s u t (fCh i.word) → fSel i.word = n →
        ∃ s', exec (.pstat u t) s = .next s' ∧ RetiresReg u t (fRd i.word) (BitVec.ofNat 32 v) s s') ∧
      (fSel i.word = 0 → ∃ s' h', exec (.pstat u t) s = .next s' ∧
        WritesReg (fRd i.word) (BitVec.ofNat 32 (getChan (stn s u) (fCh i.word)).last)
          { thr (stn s u) t with latchLast := tabSet 0 (thr (stn s u) t).latchLast (fCh i.word) (getChan (stn s u) (fCh i.word)).last }
          h' ∧ RetiresThread u t (fun _ => h') s s') ∧
      (fSel i.word = 2 → ∃ s' h', exec (.pstat u t) s = .next s' ∧
        WritesReg (fRd i.word) (BitVec.ofNat 32 (getChan (stn s u) (fCh i.word)).firstErr)
          { thr (stn s u) t with latchErr := tabSet 0 (thr (stn s u) t).latchErr (fCh i.word) (getChan (stn s u) (fCh i.word)).firstErr }
          h' ∧ RetiresThread u t (fun _ => h') s s') ∧
      (5 < fSel i.word → ∃ s', exec (.pstat u t) s = .next s' ∧ TrapsWith u t 3 i s')) ∧
    (AtRetire .pclr s u t i → ∃ s', exec (.pclr u t) s = .next s' ∧
      Retires u t (fun x => setChan x (fCh i.word) { getChan x (fCh i.word) with firstErr := 0, errCnt := 0 }) s s') ∧
    (AtRetire .pcancel s u t i → ∃ s', exec (.pcancel u t) s = .next s' ∧
      Retires u t (fun x => setChan x (fCh i.word) { getChan x (fCh i.word) with
        queue := (getChan x (fCh i.word)).queue.map (fun p => (p.1, true)),
        active := (getChan x (fCh i.word)).active.map (fun a => { a with cancel := true }) }) s s'))

/-- R125, R126, R201: PISSUE of an aligned descriptor in general storage, with a place free among the channel's 16 and no error mark on its
words, copies the descriptor's 64 bytes to the end of the channel's queue, and changes nothing else; a misplaced one traps with
BAD_SCALAR_ADDR (6). -/
def Obligations.PumpIssueQueuesTheDescriptor : Prop :=
  ∀ s u t i, AtRetire .pissue s u t i →
    ((opA s u i).toNat % 64 = 0 → (opA s u i).toNat + 64 ≤ spillBase → cleanRange s u (opA s u i).toNat 64 →
      (getChan (stn s u) (fCh i.word)).queue.length + (if (getChan (stn s u) (fCh i.word)).active.isSome then 1 else 0) < 16 →
      ∃ s', exec (.pissue u t) s = .next s' ∧
        Retires u t (fun x => setChan x (fCh i.word) { getChan x (fCh i.word) with
          queue := (getChan x (fCh i.word)).queue ++
            [(leNat ((List.range 64).map (fun k => cistByte s (gaddr u (opA s u i).toNat + k))), false)] }) s s') ∧
    ((opA s u i).toNat % 64 ≠ 0 ∨ spillBase < (opA s u i).toNat + 64 →
      ∃ s', exec (.pissue u t) s = .next s' ∧ TrapsWith u t 6 i s')

/-- R219 to R222: PSETW writes one field of a parameter set and no other; SLOTW leaves its write, clamped, pending until the next step boundary;
SLOTR reads the slot as of the last boundary; NCUCNT reads an NCU's NF_CNT or SAT_CNT; codes outside their tables are illegal (3). -/
def Obligations.NumericStateInstructionsHaveTheirEffect : Prop :=
  ∀ s u t i,
    (AtRetire .psetw s u t i → ∀ p', (fField i.word,  p') ∈ psetFields (psetOf (stn s u) (fNcu i.word) (fSet i.word)) (opD s u i).toNat →
      ∃ s', exec (.psetw u t) s = .next s' ∧ psetOf (stn s' u) (fNcu i.word) (fSet i.word) = p' ∧
        (∀ e k, k < 8 → (e, k) ≠ (fNcu i.word, fSet i.word) → psetOf (stn s' u) e k = psetOf (stn s u) e k) ∧
        OnlyUnit u s s' ∧ { stn s' u with psets := (stn s u).psets } = popFront (stn s u) t) ∧
    (AtRetire .psetw s u t i → 10 < fField i.word → ∃ s', exec (.psetw u t) s = .next s' ∧ TrapsWith u t 3 i s') ∧
    (AtRetire .slotw s u t i → ∀ v, (fField i.word, v) ∈ slotWrites (opD s u i).toNat → ∃ s', exec (.slotw u t) s = .next s' ∧
      Retires u t (fun x => { x with slotPend := x.slotPend ++ [(fSlot i.word, fField i.word, v)] }) s s') ∧
    (AtRetire .slotw s u t i → 4 < fField i.word → ∃ s', exec (.slotw u t) s = .next s' ∧ TrapsWith u t 3 i s') ∧
    (AtRetire .slotr s u t i → ∀ v, (fField i.word, v) ∈ slotFields (tabGet {} (stn s u).slotSnap (fSlot i.word)) (fIdx i.word) →
      ∃ s', exec (.slotr u t) s = .next s' ∧ RetiresReg u t (fRd i.word) (BitVec.ofNat 32 v) s s') ∧
    (AtRetire .slotr s u t i → 11 < fField i.word → ∃ s', exec (.slotr u t) s = .next s' ∧ TrapsWith u t 3 i s') ∧
    (AtRetire .ncucnt s u t i → fField i.word = 0 → ∃ s', exec (.ncucnt u t) s = .next s' ∧
      RetiresReg u t (fRd i.word) (BitVec.ofNat 32 (tabGet 0 (stn s u).nf (b2n (fNcu i.word)))) s s') ∧
    (AtRetire .ncucnt s u t i → fField i.word = 1 → ∃ s', exec (.ncucnt u t) s = .next s' ∧
      RetiresReg u t (fRd i.word) (BitVec.ofNat 32 (tabGet 0 (stn s u).sat (b2n (fNcu i.word)))) s s') ∧
    (AtRetire .ncucnt s u t i → 1 < fField i.word → ∃ s', exec (.ncucnt u t) s = .next s' ∧ TrapsWith u t 3 i s')

/-- R101, R223: A STEPCLOSE that finds no close under way is handed off and held, its thread in RUN; the boundary is made once no conversion
that names a slot is in flight: no slot write is pending after it, a lone pending write of a slot's HLEN is then in the slot, SLOTR's copy of
the slots is the slots as they then stand, and the pipe is as it was. -/
def Obligations.StepCloseIsHeldUntilItsBoundary : Prop :=
  ∀ s u t,
    (∀ i, AtRetire .stepclose s u t i → (stn s u).closing = none → ∃ s', exec (.stepclose u t) s = .next s' ∧
      OnlyUnit u s s' ∧ (stn s' u).closing = some (t, false) ∧ (thr (stn s' u) t).st = .run ∧
      front (stn s' u) t = some { i with held := true }) ∧
    (engineOn s u = true → (stn s u).closing = some (t, false) → slotInFlight (stn s u) = false →
      ∃ s', exec (.stepBoundary u) s = .next s' ∧ (stn s' u).closing = some (t, true) ∧ (stn s' u).slotPend = [] ∧
        (∀ k v, (stn s u).slotPend = [(k, 2, v)] → (tabGet {} (stn s' u).slots k).hlen = v) ∧
        (stn s' u).slotSnap = (stn s' u).slots ∧ (stn s' u).pipe = (stn s u).pipe)

namespace Sys2Proof.Stated

/-- The vector commands that wait for VECTOR leave (Tables 06.13 and 06.14, R214, R215, R218). -/
def leaveVectorOps : List (ThreadCmd × SOp) :=
  [(.vopAdd, .vadd), (.vopSub, .vsub), (.vopMul, .vmul), (.vopFma, .vfma), (.vopMin, .vmin), (.vopMax, .vmax),
   (.vopAbs, .vabs), (.vopNeg, .vneg), (.vopSel, .vsel), (.vopAddb, .vaddb), (.vopSubb, .vsubb), (.vopMulb, .vmulb),
   (.vopExp, .vexp), (.vopLog, .vlog), (.vopRcp, .vrcp), (.vopRsqrt, .vrsqrt), (.vopSqrt, .vsqrt), (.vopTanh, .vtanh),
   (.vopSigmoid, .vsigmoid), (.vopSilu, .vsilu), (.vopGeluTanh, .vgelu), (.vcmp, .vcmp), (.vredRsum, .rsum),
   (.vredRmax, .rmax), (.vredRmin, .rmin), (.vredRmaxabs, .rmaxabs), (.vmovMov, .vmov), (.splat, .splat),
   (.compress, .compress), (.expand, .expand), (.zero, .zero), (.vcvt, .vcvt)]

/-- The mask operations and VFENCE, which never wait for leave (R216). -/
def freeVectorOps : List (ThreadCmd × SOp) :=
  [(.mand, .mand), (.mor, .mor), (.mxor, .mxor), (.mnot, .mnot), (.mset, .mset), (.vfence, .vfence)]

/-- Row `r` of mask `m` (R266). -/
def maskRow (x : Station) (m r : Nat) : BitVec 64 := tabGet 0 x.masks (64 * m + r)

/-- Table 06.14: the mask functions on rows `a` and `b`. -/
def maskOps : List (SOp × (BitVec 64 → BitVec 64 → BitVec 64)) :=
  [(.mand, fun a b => a &&& b), (.mor, fun a b => a ||| b), (.mxor, fun a b => a ^^^ b), (.mnot, fun a _ => ~~~a),
   (.mset, fun _ _ => BitVec.allOnes 64)]

end Sys2Proof.Stated

/-- R210, R216, R217, R350, R351: A legal vector instruction with a place free in the vector engine retires and hands its command,
with the thread's VL, to the end of the engine's queue. A mask operation or VFENCE needs no leave, and nothing outside the unit changes.
Every other legal vector instruction, with a place free in the vector engine and its station allowed one more leave request, retires and
queues its command with a VECTOR leave request of its station that the command waits for. -/
def Obligations.VectorInstructionsQueueTheirCommand : Prop :=
  (
  ∀ c op, (c, op) ∈ freeVectorOps → ∀ s u t i, AtRetire op s u t i → vecPlaces (stn s u) < 2 →
    ∃ s' k, exec (c u t) s = .next s' ∧ Retires u t (fun x => { x with vq := x.vq ++ [k] }) s s' ∧
      k.word = i.word ∧ k.vl = (thr (stn s u) t).vl ∧ k.thread = t ∧ k.req = none) ∧
  (
  ∀ c op, (c, op) ∈ leaveVectorOps → ∀ s u t i, AtRetire op s u t i → vecLegal op i.word (thr (stn s u) t).vl = true →
    vecPlaces (stn s u) < 2 → outstanding s (lstn s u) < 2 →
    ∃ s' k q, exec (c u t) s = .next s' ∧ { s' with stns := s.stns, gov := s.gov } = s ∧
      stn s' u = popFront { stn s u with vq := (stn s u).vq ++ [k] } t ∧
      k.word = i.word ∧ k.vl = (thr (stn s u) t).vl ∧ k.thread = t ∧ k.req = some q.id ∧
      (op = .splat → k.sx = (sread (thr (stn s u) t) (bits i.word 15 11)).toNat) ∧
      q ∈ s'.gov.reqs ∧ q.requester = lstn s u ∧ q.unit = u ∧ q.what = .vector)

/-- R217: The waiting vector command at the head of a free engine, once its leave is granted, starts: it leaves the queue and occupies the
engine; a command that has run leaves the engine; a VFENCE at the head of a free engine increments its event and leaves. -/
def Obligations.VectorEngineRunsItsQueueInOrder : Prop :=
  ∀ s u,
    (∀ k rest op, (stn s u).vexec = none → (stn s u).vq = k :: rest → k.req = none → sop k.word = some op → op ≠ .vfence →
      engineOn s u = true →
      ∃ s', exec (.vecCmdStart u) s = .next s' ∧ (stn s' u).vexec = some k ∧ (stn s' u).vq = rest ∧ s'.cist = s.cist ∧
        s'.well = s.well) ∧
    ((stn s u).vexec.isSome = true → engineGoes s u = true →
      ∃ s', exec (.vecCmdComplete u) s = .next s' ∧ OnlyUnit u s s' ∧ stn s' u = { stn s u with vexec := none }) ∧
    (∀ k rest, (stn s u).vexec = none → (stn s u).vq = k :: rest → k.req = none → sop k.word = some .vfence →
      engineOn s u = true →
      ∃ s', exec (.vfenceFire u) s = .next s' ∧ OnlyUnit u s s' ∧ (stn s' u).vq = rest ∧
        evGet (stn s' u) (bits k.word 15 11) = evGet (stn s u) (bits k.word 15 11) + 1 ∧
        ∀ e, e ≠ bits k.word 15 11 → evGet (stn s' u) e = evGet (stn s u) e)

/-- R216, R266, Table 06.14, R253: A mask operation that starts writes every row of its destination mask from the rows of its source masks
as they were, and no row of another mask; nothing outside the unit changes. A ZERO that starts, in a station with no marked and no
unpredictable tile bytes and on a register that no chain has claimed, makes every byte of its register 0 and clears its TAG; every byte of every other register, and of every other
sidecar, is as it was. -/
def Obligations.MaskOperationsAndZeroWriteTheirTarget : Prop :=
  (
  ∀ op f, (op, f) ∈ maskOps → ∀ s u k rest, (stn s u).vexec = none → (stn s u).vq = k :: rest → k.req = none →
    sop k.word = some op → engineOn s u = true →
    ∃ s', exec (.vecCmdStart u) s = .next s' ∧ OnlyUnit u s s' ∧
      (∀ r, r < 64 → maskRow (stn s' u) (bits k.word 23 21) r =
        f (maskRow (stn s u) (bits k.word 18 16) r) (maskRow (stn s u) (bits k.word 13 11) r)) ∧
      (∀ m r, m ≠ bits k.word 23 21 → r < 64 → maskRow (stn s' u) m r = maskRow (stn s u) m r) ∧
      { stn s' u with masks := (stn s u).masks, vq := (stn s u).vq, vexec := none } = stn s u) ∧
  (
  ∀ s u k rest, (stn s u).vexec = none → (stn s u).vq = k :: rest → k.req = none → sop k.word = some .zero →
    engineOn s u = true → (stn s u).trfErr = [] → (stn s u).trfFree = [] → claimOf (stn s u) (bits k.word 25 21) = none →
    ∃ s', exec (.vecCmdStart u) s = .next s' ∧ OnlyUnit u s s' ∧
      (∀ o, o < 8192 → tileByte (stn s' u) false (bits k.word 25 21) o = 0) ∧
      (∀ o, o < 4 → tileByte (stn s' u) true (bits k.word 25 21) (0x510 + o) = 0) ∧
      (∀ r o, r ≠ bits k.word 25 21 → o < 8192 → tileByte (stn s' u) false r o = tileByte (stn s u) false r o) ∧
      (∀ r o, r ≠ bits k.word 25 21 → o < 1536 → tileByte (stn s' u) true r o = tileByte (stn s u) true r o))

/-- R205 to R209, R238, R236, R245, R246: A legal MSHIFT or MPASS with a place free in its array's queue of 8, and its station allowed one
more leave request, retires and appends its command to the queue: a shift bound to the bank the last shift did not fill, a pass to the bank
the last shift fills, each waiting for an ARRAY leave request; where no chain has claimed the array, nothing outside the unit and the
Governor changes. The next shift of an array that can start begins and fills its bank with the format and segment it names; the next pass
that can start begins on its bank, which becomes the front bank; the first running command of a kind completes: it leaves the queue and,
where it names an event, increments that. -/
def Obligations.ArrayCommandsAreQueuedStartAndComplete : Prop :=
  (
  ∀ s u t i, (getArr (stn s u) (bits i.word 25 23)).q.length < 8 → outstanding s (lstn s u) < 2 →
    (∀ f, AtRetire .mshift s u t i → fmtOf (bits i.word 17 13) = some f → kselOk f (bits i.word 12 11) = true →
      ∃ s' k, exec (.mshift u t) s = .next s' ∧
        (claimants (stn s u) (bits i.word 25 23) = [] → { s' with stns := s.stns, gov := s.gov } = s) ∧
        (getArr (stn s' u) (bits i.word 25 23)).q = (getArr (stn s u) (bits i.word 25 23)).q ++ [k] ∧
        k.word = i.word ∧ k.shift = true ∧ k.bank = 1 - (getArr (stn s u) (bits i.word 25 23)).lastBank ∧ k.phase = .queued ∧
        k.req.isSome ∧ (getArr (stn s' u) (bits i.word 25 23)).lastBank = k.bank) ∧
    (∀ m, AtRetire .mpass s u t i → mpassMode (getArr (stn s u) (bits i.word 25 23)) i.word = some m →
      bits i.word 22 18 / 2 ≠ bits i.word 17 14 →
      ∃ s' k, exec (.mpass u t) s = .next s' ∧
        (claimants (stn s u) (bits i.word 25 23) = [] → { s' with stns := s.stns, gov := s.gov } = s) ∧
        (getArr (stn s' u) (bits i.word 25 23)).q = (getArr (stn s u) (bits i.word 25 23)).q ++ [k] ∧
        k.word = i.word ∧ k.shift = false ∧ k.bank = (getArr (stn s u) (bits i.word 25 23)).lastBank ∧ k.phase = .queued ∧
        k.req.isSome)) ∧
  (
  ∀ s u ma, engineOn s u = true →
    (∀ k c f, nextCmd (getArr (stn s u) ma) true = some k → shiftReady (getArr (stn s u) ma) k = true →
      (getArr (stn s u) ma).q[k]? = some c → fmtOf (bits c.word 17 13) = some f →
      ∃ s', exec (.shiftStart u ma) s = .next s' ∧ (getArr (stn s' u) ma).q[k]? = some { c with phase := .running } ∧
        (getBank (getArr (stn s' u) ma) c.bank).fmt = bits c.word 17 13 ∧
        (getBank (getArr (stn s' u) ma) c.bank).ksel = bits c.word 12 11 ∧ s'.cist = s.cist ∧ s'.well = s.well) ∧
    (∀ k c, nextCmd (getArr (stn s u) ma) false = some k → passReady (getArr (stn s u) ma) k = true →
      (getArr (stn s u) ma).q[k]? = some c →
      ∃ s', exec (.passStart u ma) s = .next s' ∧ (getArr (stn s' u) ma).q[k]? = some { c with phase := .running } ∧
        (getArr (stn s' u) ma).front = c.bank ∧ s'.cist = s.cist ∧ s'.well = s.well) ∧
    (∀ k c, (getArr (stn s u) ma).q.findIdx? (fun c => c.shift && c.phase != .queued) = some k →
      (getArr (stn s u) ma).q[k]? = some c →
      ∃ s', exec (.shiftComplete u ma) s = .next s' ∧ OnlyUnit u s s' ∧
        (getArr (stn s' u) ma).q = (getArr (stn s u) ma).q.eraseIdx k ∧
        ∀ e, evGet (stn s' u) e = if c.word.testBit 10 ∧ e = bits c.word 9 5 then evGet (stn s u) e + 1 else evGet (stn s u) e) ∧
    (∀ k c, (getArr (stn s u) ma).q.findIdx? (fun c => !c.shift && c.phase != .queued) = some k →
      (getArr (stn s u) ma).q[k]? = some c →
      ∃ s', exec (.passComplete u ma) s = .next s' ∧ OnlyUnit u s s' ∧
        (getArr (stn s' u) ma).q = (getArr (stn s u) ma).q.eraseIdx k ∧
        ∀ e, evGet (stn s' u) e = if c.word.testBit 7 ∧ e = bits c.word 6 2 then evGet (stn s u) e + 1 else evGet (stn s u) e))

/-- R290, R291, R298 to R300, R302: With its operands in place, its leave granted and its turn at the NCU it needs, a chain takes one page, one
share, one row group or one output tile. A page is folded in and counted and its WELL burst spent, or the chain ends with a fault; a share
is marked started; a row group of a REDUCE_GEMM root is marked combined, or the chain ends with a fault; at an output tile that is none of a
root's own partial the chain has latched its control word. None changes the well. -/
def Obligations.ChainsAdvanceByTheirParts : Prop :=
  ∀ s u t c, chainOf (stn s u) t = some c → engineOn s u = true →
    (pageReadReady s u c = true → ncuTurn s u false = some 4 →
      ∃ s' c', exec (.attnPageRead u t) s = .next s' ∧ chainOf (stn s' u) t = some c' ∧ c'.raw = c.raw ∧
        ((c'.page = c.page + 1 ∧ burstsHeld c' 2 + 1 = burstsHeld c 2) ∨ c'.ended.isSome) ∧ s'.cist = s.cist ∧ s'.well = s.well) ∧
    (∀ d g, chainRuns s u c = true → cId c.raw = 7 → d < groupDies s → g < cGroups c.raw → d * 65536 + g ∉ c.shares →
      g + 1 ≤ (evGet (stn s u) (cRevt c.raw + d)).toNat →
      ∃ s', exec (.gatherShareStart u t d g) s = .next s' ∧ OnlyUnit u s s' ∧
        chainOf (stn s' u) t = some { c with shares := c.shares ++ [d * 65536 + g] }) ∧
    (∀ g, chainRuns s u c = true → cIsRoot s u c.raw = true → partialPhase s u c = false → g = c.pos / cCols c.raw →
      g ∉ c.combined → (∀ d, d < groupDies s → g + 1 ≤ (evGet (stn s u) (cRevt c.raw + d)).toNat) →
      ∃ s' c', exec (.reduceCombine u t g) s = .next s' ∧ chainOf (stn s' u) t = some c' ∧ c'.raw = c.raw ∧
        (c'.combined = c.combined ++ [g] ∨ c'.ended.isSome) ∧ s'.cist = s.cist ∧ s'.well = s.well) ∧
    (chainTileReady s u c = true → ncuTurn s u true = some 4 → (tileLoads s u c = true → ncuTurn s u false = some 4) →
      ∃ s' c', exec (.chainTileOutput u t) s = .next s' ∧ chainOf (stn s' u) t = some c' ∧ c'.raw = c.raw ∧
        (partialPhase s u c = false → c'.latched.isSome) ∧ s'.well = s.well)

/-- R204, R279, R306, R304, R305: A CHAIN of a thread with none in flight, from an aligned block in general storage that is not refused, with no
error mark on its words, puts the thread's chain in flight with its 64-byte block, and changes nothing else but the count of free values;
a misplaced block traps with BAD_SCALAR_ADDR (6). CABORT requests the abort of the thread's chain, and does nothing where there is none; a
chain whose window no earlier chain holds starts. A chain that has a status completes once: it is no longer in flight, CSTAT and CPOS of its
thread read its status and position, and its event is incremented; the byte RAMs are as they were. -/
def Obligations.ChainsAreIssuedStartedAbortedAndCompleted : Prop :=
  (
  ∀ s u t,
    (∀ i r, AtRetire .chain s u t i → (opA s u i).toNat % 64 = 0 → (opA s u i).toNat + 64 ≤ spillBase →
      chainOf (stn s u) t = none → outstanding s (lstn s u) < 2 → cleanRange s u (opA s u i).toNat 64 →
      r = leNat ((List.range 64).map (fun k => cistByte s (gaddr u (opA s u i).toNat + k))) →
      chainRefused s u r = false →
      ∃ s' g, exec (.chain u t) s = .next s' ∧ { s' with stns := s.stns, free := s.free } = s ∧ (∀ v, v ≠ u → stn s' v = stn s v) ∧
        stn s' u = popFront { stn s u with chains := (stn s u).chains ++ [{ thread := t, raw := r, gen := g }] } t) ∧
    (∀ i, AtRetire .chain s u t i → ((opA s u i).toNat % 64 ≠ 0 ∨ spillBase < (opA s u i).toNat + 64) →
      ∃ s', exec (.chain u t) s = .next s' ∧ TrapsWith u t 6 i s') ∧
    (∀ i c, AtRetire .cabort s u t i → chainOf (stn s u) t = some c → ∃ s', exec (.cabort u t) s = .next s' ∧ OnlyUnit u s s' ∧
      chainOf (stn s' u) t = some { c with abort := true }) ∧
    (∀ i, AtRetire .cabort s u t i → chainOf (stn s u) t = none → ∃ s', exec (.cabort u t) s = .next s' ∧ Retires u t id s s') ∧
    (∀ c, chainOf (stn s u) t = some c → c.started = false → c.abort = false → engineOn s u = true →
      windowFree t [] (stn s u).chains = true →
      ∃ s', exec (.chainStart u t) s = .next s' ∧ chainOf (stn s' u) t = some { c with started := true } ∧
        s'.cist = s.cist ∧ s'.well = s.well)) ∧
  (
  ∀ s u t c st, chainOf (stn s u) t = some c → chainStatus s u c = some st → notifyPending s u c.raw = false → engineOn s u = true →
    ∃ s', exec (.chainComplete u t) s = .next s' ∧ chainOf (stn s' u) t = none ∧ (thr (stn s' u) t).chainStat = st ∧
      (thr (stn s' u) t).chainPos = c.pos ∧ evGet (stn s' u) (bits c.raw 17 13) = evGet (stn s u) (bits c.raw 17 13) + 1 ∧
      s'.cist = s.cist ∧ s'.well = s.well)

/-- R128, R129, R146, R138 to R140: The oldest descriptor of a channel with none active becomes active: ended with ABORTED (1) where a cancel
caught it, with its refusal's status where its validation refuses it, and not ended otherwise; nothing outside the unit changes. A
descriptor that has a status completes: its channel is free of it, LAST holds status, TAG and POS, a status that is not OK is counted in
ERR_CNT, which stops at 65,535, FIRST_ERR takes the first such status since the last clear and keeps it, a status of OK changes neither, and
the descriptor's event is incremented whatever its status. -/
def Obligations.DescriptorsStartAndCompleteInOrder : Prop :=
  (
  ∀ s u ch d cancelled rest, ch < 4 → (getChan (stn s u) ch).queue = (d, cancelled) :: rest → (getChan (stn s u) ch).active = none →
    engineOn s u = true →
    ∃ s' a, exec (.descStart u ch) s = .next s' ∧ OnlyUnit u s s' ∧ (getChan (stn s' u) ch).queue = rest ∧
      (getChan (stn s' u) ch).active = some a ∧ a.raw = d ∧ a.pos = 0 ∧
      (cancelled = true → a.ended = some 1) ∧
      (cancelled = false → dValidate s u d = 0 → a.ended = none) ∧
      (cancelled = false → dValidate s u d ≠ 0 → a.ended = some (dValidate s u d))) ∧
  (
  ∀ s u ch a st, (getChan (stn s u) ch).active = some a → completes a = some st → engineOn s u = true →
    ∃ s', exec (.descComplete u ch) s = .next s' ∧ (getChan (stn s' u) ch).active = none ∧
      (getChan (stn s' u) ch).queue = (getChan (stn s u) ch).queue ∧
      (getChan (stn s' u) ch).last = st + 2 ^ 8 * bits a.raw 55 40 + 2 ^ 24 * (a.pos % 2 ^ 40) ∧
      (st = 0 → (getChan (stn s' u) ch).errCnt = (getChan (stn s u) ch).errCnt ∧
        (getChan (stn s' u) ch).firstErr = (getChan (stn s u) ch).firstErr) ∧
      (st ≠ 0 → (getChan (stn s' u) ch).errCnt = min 65535 ((getChan (stn s u) ch).errCnt + 1) ∧
        (getChan (stn s' u) ch).firstErr =
          if (getChan (stn s u) ch).errCnt = 0 then (getChan (stn s' u) ch).last else (getChan (stn s u) ch).firstErr) ∧
      evGet (stn s' u) (bits a.raw 22 18) = evGet (stn s u) (bits a.raw 22 18) + 1 ∧ s'.cist = s.cist ∧ s'.well = s.well)

/-- R142, R144, R149: A channel whose turn it is at its NCU takes one block: its descriptor is still active, it is the last holder of the NCU and
has latched its control word. A descriptor with a request outstanding whose timer expires ends with TIMEOUT (0x13), its POS as it was; where
it waited for a siphon tile, no byte RAM changes. A page read of a chain that expires ends the chain with 0x13, and changes nothing else. -/
def Obligations.PumpBlocksAndTimeouts : Prop :=
  ∀ s u, engineOn s u = true →
    (∀ ch a, (getChan (stn s u) ch).active = some a → ncuTurn s u (dEgress u a.raw) = some ch →
      ∃ s' a', exec (.pumpBlock u ch) s = .next s' ∧ (getChan (stn s' u) ch).active = some a' ∧ a'.raw = a.raw ∧
        a'.latched.isSome ∧ tabGet 4 (stn s' u).ncuLast (b2n (dEgress u a.raw)) = ch) ∧
    (∀ ch a, ch < 4 → (getChan (stn s u) ch).active = some a → outstandingLow s u ch a = true →
      ∃ s' a', exec (.timeout u ch) s = .next s' ∧ (getChan (stn s' u) ch).active = some a' ∧ a'.raw = a.raw ∧
        a'.ended = some 0x13 ∧ a'.pos = a.pos ∧ (a.sip.phase = 3 → s'.cist = s.cist ∧ s'.well = s.well)) ∧
    (∀ t c, chainOf (stn s u) t = some c → pageReadReady s u c = true → ncuTurn s u false = some 4 →
      ∃ s', exec (.timeout u (4 + t)) s = .next s' ∧ OnlyUnit u s s' ∧ chainOf (stn s' u) t = some { c with ended := some 0x13 })

/-- R159, R160, R166, R175, R192: Where no instruction stands at retirement that is none, the first eligible thread, from the one after the last
that issued, issues the word at its PC: it enters the pipe and the PC moves on by one; a single-bit error of the word is corrected, its mark
dropped and counted in PM_CE_CNT. Where the oldest instruction of a thread stands at retirement and is none, its thread traps there with
PM_UE (7) if the word is uncorrectable, and else with ILLEGAL_INSTR (3). -/
def Obligations.IssueTakesTheFirstEligibleThread : Prop :=
  ∀ s u, unitRuns s u = true →
    (∀ t, badHead (stn s u) = none → (issueOrder (stn s u).lastIssue).find? (eligible (stn s u)) = some t →
      (pmMark (stn s u) (thr (stn s u) t).pc = none →
        ∃ s', exec (.instrIssue u) s = .next s' ∧ OnlyUnit u s s' ∧ (stn s' u).lastIssue = t ∧
          (stn s' u).pipe = (stn s u).pipe ++ [⟨t, (thr (stn s u) t).pc, pmWord (stn s u) (thr (stn s u) t).pc, false⟩] ∧
          thr (stn s' u) t = { thr (stn s u) t with pc := ((thr (stn s u) t).pc + 1) % 16384 } ∧
          ∀ k, k ≠ t → thr (stn s' u) k = thr (stn s u) k) ∧
      (pmMark (stn s u) (thr (stn s u) t).pc = some .single → reg s Reg.pmCe < 2 ^ 32 - 1 →
        ∃ s', exec (.instrIssue u) s = .next s' ∧ reg s' Reg.pmCe = reg s Reg.pmCe + 1 ∧
          (stn s' u).pmErr = tabDel (stn s u).pmErr (thr (stn s u) t).pc ∧
          thr (stn s' u) t = { thr (stn s u) t with pc := ((thr (stn s u) t).pc + 1) % 16384 })) ∧
    (∀ t i, badHead (stn s u) = some t → front (stn s u) t = some i →
      ∃ s', exec (.instrIssue u) s = .next s' ∧ TrapsWith u t (if pmBad (stn s u) i.pc then 7 else 3) i s')

/-- R162, R170, R223: A held RSIG retires and sends its signal once the outbound queue has room; a held STEPCLOSE retires once its boundary has
been made. -/
def Obligations.HeldInstructionsRetireWhenFreed : Prop :=
  ∀ s u t i, front (stn s u) t = some i → i.held = true → unitRuns s u = true → (thr (stn s u) t).st = .run →
    (sop i.word = some .rsig → 16 ≤ fRd i.word → (opA s u i).toNat < 128 → (hostOf s (opA s u i).toNat).isSome →
      (stn s u).outq.length < 8 → ∃ s', exec (.heldRetire u t) s = .next s' ∧
        Retires u t (fun x => { x with outq := x.outq ++ [⟨u, (opA s u i).toNat, false, fRd i.word⟩] }) s s') ∧
    (sop i.word = some .stepclose → (stn s u).closing = some (t, true) →
      ∃ s', exec (.heldRetire u t) s = .next s' ∧ OnlyUnit u s s' ∧ stn s' u = { popFront (stn s u) t with closing := (stn s' u).closing } ∧
        (stn s' u).closing ≠ some (t, true))

/-- R173, R174, R176: The trap context serves the oldest transient trap. For the CALL_SPILL of a CALL or CALLR with a full stack it writes the 8
oldest stack entries, oldest first, to the thread's next spill group, and every other byte of the cistern reads as before; it pushes the
return address and continues at the target. For a RET_FILL whose group has no error mark it reads the thread's last group back and continues
at its newest entry, and nothing outside the unit changes. Either way the thread returns to RUN and the trap leaves the context's queue; a
spilled call leaves the pipe. -/
def Obligations.TrapContextSpillsAndFillsTheCallStack : Prop :=
  ∀ s u t i rest, (stn s u).trapQ = t :: rest → front (stn s u) t = some i → isResident s u = true → (stn s u).inReset = false →
    (thr (stn s u) t).st = .trapped →
    (∀ target, (thr (stn s u) t).cause = 1 → (thr (stn s u) t).stack.length = 16 →
      (sop i.word = some .call ∧ target = i.word % 16384 ∨ sop i.word = some .callr ∧ target = (opA s u i).toNat % 16384) →
      cleanRange s u (spillAddr t (thr (stn s u) t).spill) 32 →
      ∃ s', exec (.trapService u) s = .next s' ∧ (thr (stn s' u) t).st = .run ∧
        (thr (stn s' u) t).pc = target ∧ (thr (stn s' u) t).spill = (thr (stn s u) t).spill + 1 ∧
        (thr (stn s' u) t).stack = (i.pc + 1) % 16384 :: (thr (stn s u) t).stack.take 8 ∧ (stn s' u).trapQ = rest ∧
        (stn s' u).pipe = (popFront (stn s u) t).pipe ∧
        (∀ k, k < 8 → memRead s'.cist (gaddr u (spillAddr t (thr (stn s u) t).spill) + 4 * k) 4 =
          leBytes 4 ((thr (stn s u) t).stack.getD (15 - k) 0)) ∧
        (∀ g, (g < gaddr u (spillAddr t (thr (stn s u) t).spill) ∨ gaddr u (spillAddr t (thr (stn s u) t).spill) + 32 ≤ g) →
          cistByte s' g = cistByte s g)) ∧
    ((thr (stn s u) t).cause = 2 → cleanRange s u (spillAddr t ((thr (stn s u) t).spill - 1)) 32 →
      ∃ s', exec (.trapService u) s = .next s' ∧ OnlyUnit u s s' ∧ (thr (stn s' u) t).st = .run ∧
        (thr (stn s' u) t).spill = (thr (stn s u) t).spill - 1 ∧ (stn s' u).trapQ = rest ∧
        (thr (stn s' u) t).pc :: (thr (stn s' u) t).stack = (List.range 8).map (fun k =>
          leNat (memRead s.cist (gaddr u (spillAddr t ((thr (stn s u) t).spill - 1)) + 4 * (7 - k)) 4) % 16384))

/-- R178, R179, R180, Table 05.4: A park request of a station stands until a resume; a thread it finds at a park point (before a CHAIN, EWAIT,
STEPCLOSE or PARK that is no uncorrectable word), with nothing in flight, parks with its PC there, and a waiting thread parks at its EWAIT.
Program words written while a thread is not stopped are held, and once every thread is stopped they stand in program memory, with the error
mark of their word dropped and every other word as it was; a resume clears the park request and starts each thread as its action says: STAY
leaves it, KEEP returns a parked thread to RUN, ENTRY starts a parked or fatally trapped thread at its entry with an empty call stack. In
the scan state nothing of the hub acts (R511). -/
def Obligations.ParksProgramWritesAndResumes : Prop :=
  (
  ∀ s u,
    ((hostOf s u).isSome → s.tap.scan = false →
      ∃ s', exec (.parkRequest u) s = .next s' ∧ OnlyUnit u s s' ∧ stn s' u = { stn s u with parkReq := true }) ∧
    (isResident s u = true → (stn s u).inReset = false → (stn s u).frozen = false → (stn s u).parkReq = true →
      (stn s u).stepThread = none →
      (∀ t op, t < 4 → chainOf (stn s u) t = none → (thr (stn s u) t).st = .run → inFlight (stn s u) t = [] →
        op ∈ [SOp.chain, .ewait, .stepclose, .park] → sop (pmWord (stn s u) (thr (stn s u) t).pc) = some op →
        pmBad (stn s u) (thr (stn s u) t).pc = false →
        ∃ s', exec (.threadPark u t) s = .next s' ∧ OnlyUnit u s s' ∧ (thr (stn s' u) t).st = .parked ∧
          (thr (stn s' u) t).pc = (thr (stn s u) t).pc % 16384) ∧
      (∀ t i, t < 4 → chainOf (stn s u) t = none → (thr (stn s u) t).st = .wait → front (stn s u) t = some i →
        ∃ s', exec (.threadPark u t) s = .next s' ∧ OnlyUnit u s s' ∧ (thr (stn s' u) t).st = .parked ∧
          (thr (stn s' u) t).pc = i.pc % 16384 ∧ front (stn s' u) t = none))) ∧
  (
  ∀ s u, (hostOf s u).isSome → s.tap.scan = false →
    (∀ addr w, addr < 16384 → allStopped (stn s u) = false → ∃ s', exec (.pmWrite u addr [w]) s = .next s' ∧ OnlyUnit u s s' ∧
      stn s' u = { stn s u with pmHeld := (stn s u).pmHeld ++ [(addr, w)] }) ∧
    (∀ addr w, addr < 16384 → allStopped (stn s u) = true → (stn s u).pmHeld = [] →
      ∃ s', exec (.pmWrite u addr [w]) s = .next s' ∧ OnlyUnit u s s' ∧ pmWord (stn s' u) addr = w.toNat ∧
        (stn s' u).pmErr = tabDel (stn s u).pmErr addr ∧
        (∀ a, a < 16384 → a ≠ addr → pmWord (stn s' u) a = pmWord (stn s u) a) ∧ (stn s' u).pmHeld = []) ∧
    (∀ a0 a1 a2 a3, a0 < 16386 → a1 < 16386 → a2 < 16386 → a3 < 16386 → (stn s u).inReset = false →
      ∃ s', exec (.resume u [a0, a1, a2, a3]) s = .next s' ∧ OnlyUnit u s s' ∧ (stn s' u).parkReq = false ∧
        ∀ t a, (t, a) ∈ [(0, a0), (1, a1), (2, a2), (3, a3)] →
          (a = 0 → thr (stn s' u) t = thr (stn s u) t) ∧
          (a = 1 → (thr (stn s u) t).st = .parked → thr (stn s' u) t = { thr (stn s u) t with st := .run }) ∧
          (2 ≤ a → ((thr (stn s u) t).st = .parked ∨ fatal (thr (stn s u) t) = true) →
            thr (stn s' u) t = { thr (stn s u) t with st := .run, pc := a - 2, stack := [], spill := 0, cause := 0 })))

/-- R183, R184: Where the stuck condition has held for DEADLOCK_CYCLES, the station freezes, EVT_DEADLOCK_CNT counts it, DEADLOCK is reported,
and no thread or memory changes. -/
def Obligations.DeadlockFreezesTheStation : Prop :=
  ∀ s u, isResident s u = true → (stn s u).inReset = false → (stn s u).frozen = false → stuck (stn s u) = true →
    0 < (stn s u).deadCnt → (stn s u).deadLim ≤ (stn s u).deadCnt → reg s Reg.deadCnt < 2 ^ 32 - 1 →
    ∃ s', exec (.deadlockCountExpire u) s = .next s' ∧ stn s' u = { stn s u with frozen := true } ∧
      reg s' Reg.deadCnt = reg s Reg.deadCnt + 1 ∧ regBit s' Reg.evtStatus 3 = true ∧ s'.cist = s.cist ∧ s'.well = s.well

/-- R186, R187, R576, R577: A reset of a logical station with none of its units in reset takes them all into reset; once everything they
had begun has completed and arrived it can be released: its units leave reset with every thread PARKED and its scalar registers 0, every
counter 0, no chain and no vector command, their tile registers kept, and MAP_STATUS names the station. A host of two units, whose
resident unit may yield and whose other unit is runnable, switches: the other unit becomes resident, and so does no other host's; the byte
RAMs are as they were. -/
def Obligations.StationResetsAndUnitSwitches : Prop :=
  (
  ∀ s ls, ls < stationsEnabled s → s.tap.scan = false →
    ((∀ u, u ∈ unitsOf s ls → (stn s u).inReset = false) → ∃ s', exec (.stationReset ls) s = .next s' ∧
      (∀ u, u ∈ unitsOf s ls → (stn s' u).inReset = true) ∧ s'.cist = s.cist ∧ s'.well = s.well) ∧
    (ls < 128 → (∀ u, u ∈ unitsOf s ls → (stn s u).inReset = true ∧ drained (stn s u) = true ∧ delivered s u = true) →
      s.boot.ctrlRun = false →
      ∃ s', exec (.stationResetRelease ls) s = .next s' ∧
        (∀ u, u ∈ unitsOf s ls → (stn s' u).inReset = false ∧ (∀ t, (thr (stn s' u) t).st = .parked ∧ (thr (stn s' u) t).regs = []) ∧
          (∀ e, evGet (stn s' u) e = 0) ∧ (stn s' u).chains = [] ∧ (stn s' u).vq = [] ∧ (stn s' u).trf = (stn s u).trf) ∧
        bits (reg s' Reg.mapStatus) 14 8 = ls ∧ s'.cist = s.cist ∧ s'.well = s.well)) ∧
  (
  ∀ s ls a b, unitsOf s ls = [a, b] → a ≠ b →
    (residentUnit s ls = a → mayYield (stn s a) = true → runnable s b = true →
      ∃ s', exec (.unitSwitch ls) s = .next s' ∧ tabGet 0 s'.resident ls = 1 ∧
        (∀ l, l ≠ ls → tabGet 0 s'.resident l = tabGet 0 s.resident l) ∧ s'.cist = s.cist ∧ s'.well = s.well) ∧
    (residentUnit s ls = b → mayYield (stn s b) = true → runnable s a = true →
      ∃ s', exec (.unitSwitch ls) s = .next s' ∧ tabGet 0 s'.resident ls = 0 ∧ s'.cist = s.cist ∧ s'.well = s.well))

namespace Sys2Proof.Stated

/-- A link event of a die link (R338 to R340): the link is down, LINK_DOWN_CNT has counted it, LINK_DOWN stands in EVT_STATUS, and the
link's two hops hold nothing. -/
def DieLinkDown (s s' : State) (l : Nat) : Prop :=
  linkUp s' l = false ∧ reg s' Reg.linkDown = reg s Reg.linkDown + 1 ∧ regBit s' Reg.evtStatus 7 = true ∧
    hop s' (2 * l) = {} ∧ hop s' (2 * l + 1) = {}

/-- What a reset of both hops of a die link that comes UP leaves (R336). -/
def FreshLink (s : State) (l : Nat) : Prop := linkUp s l = true ∧ hop s (2 * l) = {} ∧ hop s (2 * l + 1) = {}

end Sys2Proof.Stated

/-- R114, R121, R145: A load of a word with a single-bit error returns the corrected bytes, counts the error in CIST_CE_CNT and makes the word's
write-back due; the write-back clears the mark and leaves every byte as it was. The hub's read of an existing beat, with its leave in hand and
no re-read under way, changes nothing but leave where the beat is clean; it counts a correction that the stack reports (MEM_STACK_ECC_CNT),
corrects a single-bit error (WELL_CE_CNT), or leaves an uncorrectable beat to be re-read; a re-read that delivers it is counted in
WELL_RETRY_CNT and clears the mark; the first that does not is followed by a second, and the second counts the beat (WELL_UE_CNT). No byte
of the well changes. -/
def Obligations.MemoryErrorsAreCorrectedOrReported : Prop :=
  (
  (∀ s u t i, AtRetire .lw s u t i → localAddr s u i + 4 ≤ spillBase → localAddr s u i % 4 = 0 →
    s.cistErr.find? (fun p => p.1 == gaddr u (localAddr s u i) / 8) = some (gaddr u (localAddr s u i) / 8, .single) →
    reg s Reg.cistCe < 2 ^ 32 - 1 →
    ∃ s', exec (.lw u t) s = .next s' ∧
      sread (thr (stn s' u) t) (fRd i.word) = (if fRd i.word = 0 then 0 else
        BitVec.ofNat 32 (leNat ((List.range 4).map (fun k => cistByte s (gaddr u (localAddr s u i) + k))))) ∧
      reg s' Reg.cistCe = reg s Reg.cistCe + 1 ∧ gaddr u (localAddr s u i) / 8 ∈ s'.cistWb ∧ s'.cist = s.cist) ∧
  (∀ s w, w ∈ s.cistWb → ∃ s', exec (.cistCeWriteback w) s = .next s' ∧ w ∉ s'.cistWb ∧
    s'.cistErr = tabDel s.cistErr w ∧ { s' with cistErr := s.cistErr, cistWb := s.cistWb } = s)) ∧
  (
  (∀ s a, a % 32 = 0 → wellDie a < dies s → wellOff a < wellEnd → s.reread = none → s.gov.ps ≠ .p3 → s.gov.ps ≠ .p4 →
    hubReady s 32 = true →
    (s.wellErr.find? (fun p => p.1 == a / 32) = none →
      ∃ s', exec (.wellRead a) s = .next s' ∧ { s' with gov := s.gov } = s) ∧
    (s.wellErr.find? (fun p => p.1 == a / 32) = some (a / 32, .stack) → reg s Reg.stackEcc < 2 ^ 32 - 1 →
      ∃ s', exec (.wellRead a) s = .next s' ∧ reg s' Reg.stackEcc = reg s Reg.stackEcc + 1 ∧ s'.wellErr = s.wellErr ∧
        s'.well = s.well ∧ s'.cist = s.cist) ∧
    (s.wellErr.find? (fun p => p.1 == a / 32) = some (a / 32, .single) → reg s Reg.wellCe < 2 ^ 32 - 1 →
      ∃ s', exec (.wellRead a) s = .next s' ∧ reg s' Reg.wellCe = reg s Reg.wellCe + 1 ∧ s'.wellErr = tabDel s.wellErr (a / 32) ∧
        s'.well = s.well ∧ s'.cist = s.cist) ∧
    (∀ rr, s.wellErr.find? (fun p => p.1 == a / 32) = some (a / 32, .bad rr) →
      ∃ s', exec (.wellRead a) s = .next s' ∧ { s' with gov := s.gov } = { s with reread := some (a / 32, 0, 2) })) ∧
  (∀ s b n acc rr, s.reread = some (b, n, acc) → s.wellErr.find? (fun p => p.1 == b) = some (b, .bad rr) →
    (rr.getD n .bad ≠ .bad → reg s Reg.wellRetry < 2 ^ 32 - 1 → ∃ s', exec .wellReread s = .next s' ∧
      reg s' Reg.wellRetry = reg s Reg.wellRetry + 1 ∧ s'.reread = none ∧ s'.wellErr = tabDel s.wellErr b ∧ s'.well = s.well) ∧
    (rr.getD n .bad = .bad → n = 0 → exec .wellReread s = .next { s with reread := some (b, 1, acc) }) ∧
    (rr.getD n .bad = .bad → n = 1 → reg s Reg.wellUe < 2 ^ 32 - 1 → ∃ s', exec .wellReread s = .next s' ∧
      reg s' Reg.wellUe = reg s Reg.wellUe + 1 ∧ s'.reread = none ∧ s'.wellErr = s.wellErr ∧ s'.well = s.well)))

/-- R170, R188, R322, R340: The oldest signal of a unit's outbound queue, with no increment of its chains waiting for a place, leaves the queue:
one addressed to a unit of its own die arrives there, one whose route is down is dropped, and one whose first hop has room goes on its wire
under the next sequence number. An arrived signal, behind no tile of its way, increments its counter at a resident unit that is not in
reset, is held for a unit that is not resident, and is discarded for one in reset. -/
def Obligations.SignalsLeaveAndAreApplied : Prop :=
  (∀ s u q rest, (stn s u).outq = q :: rest → (∀ c, c ∈ (stn s u).chains → c.notes = 0) →
    (q.toUnit / 32 = u / 32 → q.xpkg = false → ∃ s' a, exec (.signalSend u) s = .next s' ∧
      stn s' u = { stn s u with outq := rest } ∧ s'.arrivals = s.arrivals ++ [a] ∧ a.die = u / 32 ∧ a.what = .signal q.toUnit q.ev) ∧
    (∀ h t, route s (u / 32) (q.toUnit / 32) q.xpkg = h :: t → routeUp s (h :: t) = false →
      ∃ s', exec (.signalSend u) s = .next s' ∧ OnlyUnit u s s' ∧ stn s' u = { stn s u with outq := rest }) ∧
    (∀ h t, route s (u / 32) (q.toUnit / 32) q.xpkg = h :: t → routeUp s (h :: t) = true → h < 16 → (hop s h).sendq = [] →
      (hop s h).unacked.length < 64 → ∃ s' f, exec (.signalSend u) s = .next s' ∧ stn s' u = { stn s u with outq := rest } ∧
        (hop s' h).wire = (hop s h).wire ++ [f] ∧ f.type = 3 ∧ f.seq = (hop s h).nextSeq ∧
        (hop s' h).nextSeq = ((hop s h).nextSeq + 1) % 4096)) ∧
  (∀ s n a v ev, s.arrivals[n]? = some a → a.what = .signal v ev → behindTile s n a = false → (hostOf s v).isSome →
    ((stn s v).inReset = false → isResident s v = true → ∃ s', exec (.signalApply n) s = .next s' ∧
      s'.arrivals = s.arrivals.eraseIdx n ∧ evGet (stn s' v) ev = evGet (stn s v) ev + 1 ∧
      (∀ e, e ≠ ev → evGet (stn s' v) e = evGet (stn s v) e) ∧ ∀ w, w ≠ v → stn s' w = stn s w) ∧
    ((stn s v).inReset = false → isResident s v = false → ∃ s', exec (.signalApply n) s = .next s' ∧
      s'.arrivals = s.arrivals.eraseIdx n ∧ s'.stns = s.stns ∧ s'.heldSig = s.heldSig ++ [⟨v, v, false, ev⟩]) ∧
    ((stn s v).inReset = true → exec (.signalApply n) s = .next { s with arrivals := s.arrivals.eraseIdx n }))

/-- R312, R316 to R319: A requester whose tile has its credit and leave, whose route is UP and whose station's turn it is on the first hop, with
the tile before gone whole, sends its flits there, has the tile outstanding, and is the last served of that hop; a tile of one row that has
arrived is written whole at its address, with no other byte of the cistern changed (and no chain of its sender's program to be spoilt by it,
R282); the LANDED flit of a channel's outstanding tile of that die moves the channel's position on and returns one credit of the pair. -/
def Obligations.SiphonTilesAreSentLandedAndAcknowledged : Prop :=
  (∀ s u req q t ts h, sipOf (stn s u) req = some q → q.tiles = t :: ts → sendReady s u req h = true → isResident s u = true →
    (hop s h).sendq = [] → linkTurn s h = some (lstn s u) →
    ∃ s', exec (.siphonTileSend u req) s = .next s' ∧ sipOf (stn s' u) req = some { q with phase := 3 } ∧
      (hop s' h).turn = lstn s u ∧
      (hop s' h).wire.length + (hop s' h).sendq.length = (hop s h).wire.length + tileFlits (t.data.length + t.scale.length) ∧
      s'.cist = s.cist ∧ s'.arrivals = s.arrivals) ∧
  (∀ s n a t h rs, s.arrivals[n]? = some a → a.what = .tile t → t.rows = 1 → t.data.length = t.rowBytes → t.scale = [] →
    t.runs = [] → t.addr < 2 ^ 23 → s.cistErr = [] → backRoute s a.die a.src a.xp = h :: rs →
    (a.xp = true ∨ 4 ≤ t.req ∨ watched (stn s t.src) = []) →
    ∃ s', exec (.tileLand n) s = .next s' ∧ s'.arrivals = s.arrivals.eraseIdx n ∧
      memRead s'.cist (gaddr t.dst t.addr) t.rowBytes = t.data ∧
      (∀ g, (g < gaddr t.dst t.addr ∨ gaddr t.dst t.addr + t.rowBytes ≤ g) → cistByte s' g = cistByte s g) ∧ s'.stns = s.stns) ∧
  (∀ s n a u ch c t ts e, s.arrivals[n]? = some a → a.what = .landed u ch 0 → ch < 4 → (getChan (stn s u) ch).active = some c →
    c.sip.tiles = t :: ts → c.sip.phase = 3 → e = farDie (a.src % 4) a.xp → tileDie t = e → (stn s u).inReset = false →
    (u, ch, e) ∉ s.orphans →
    ∃ s', exec (.landedReceive n) s = .next s' ∧ s'.arrivals = s.arrivals.eraseIdx n ∧
      (getChan (stn s' u) ch).active =
        some { c with sip := { tiles := ts, phase := 0 }, pos := c.marks.headD c.pos, marks := c.marks.drop 1 } ∧
      creditsUsed s' a.die e = creditsUsed s a.die e - 1)

/-- R329, Table 10.3: A SIGNAL flit for a counter of 16 to 31 (at the end of a hop inside the package) with the number the receiver expects is
accepted: the expectation moves on, an ACK is due, and the signal arrives; a flit already accepted is dropped and changes only the wire; a
flit spoilt by noise, where no NAK has been sent since the last acceptance, is counted in LINK_CRC_CNT and not accepted, and a NAK goes back. -/
def Obligations.FlitsAreAcceptedInSequence : Prop :=
  ∀ s h d f rest, h < 16 → linkUp s (h / 2) = true → (hop s h).wire = f :: rest → hopEnd s h = some d → f.ackV = false → f.type = 3 →
    (f.seq = (hop s h).expect → 16 ≤ (f.payload.getD 1 0).toNat % 32 →
      ∃ s' a, exec (.flitReceive h {} []) s = .next s' ∧ (hop s' h).wire = rest ∧
        (hop s' h).expect = ((hop s h).expect + 1) % 4096 ∧ (hop s' h).ackDue = true ∧ (hop s' h).nak = none ∧
        (hop s' h).lastAcc = some f.seq ∧ s'.arrivals = s.arrivals ++ [a] ∧ a.die = d ∧ a.src = f.srcDie ∧
        a.what = .signal ((f.payload.getD 0 0).toNat % 128) ((f.payload.getD 1 0).toNat % 32) ∧
        { s' with hops := s.hops, arrivals := s.arrivals } = s) ∧
    (f.seq < 4096 → (hop s h).expect < 4096 → 2048 ≤ (f.seq + 4096 - (hop s h).expect) % 4096 →
      ∃ s', exec (.flitReceive h {} []) s = .next s' ∧ { s' with hops := s.hops } = s ∧ hop s' h = { hop s h with wire := rest }) ∧
    (reg s Reg.linkCrc < 2 ^ 32 - 1 → (hop s h).nak = none →
      ∃ s' k, exec (.flitReceive h { bad := true } []) s = .next s' ∧ (hop s' h).expect = (hop s h).expect ∧
        reg s' Reg.linkCrc = reg s Reg.linkCrc + 1 ∧ (hop s' h).nak = some s.time.time ∧
        (hop s' (opp h)).wire = (hop s (opp h)).wire ++ [k] ∧ k.type = 5 ∧ s'.arrivals = s.arrivals)

/-- R330, R334, R338 to R340: A NAK, or 1 µs without an ACK, replays every unacknowledged flit from the named or the oldest one: LINK_REPLAY_CNT
counts it, each replayed flit's count rises, and each goes on the wire again; a flit unacknowledged for 4 µs, or replayed a fourth time,
takes the link down. A receiver that owes an ACK can send it in an IDLE flit. Loss of lock takes a die link down, with its link event, and a
die link that is down trains again by itself in service: it is UP, and both directions number from 0. -/
def Obligations.LinksReplayGoDownAndRetrain : Prop :=
  (
  ∀ s h, h < 16 → linkUp s (h / 2) = true →
    ((hop s h).unacked ≠ [] → (∀ p, p ∈ (hop s h).unacked → p.2 < 3) → reg s Reg.linkReplay < 2 ^ 32 - 1 →
      ∃ s', exec (.replayTimeout h) s = .next s' ∧ reg s' Reg.linkReplay = reg s Reg.linkReplay + 1 ∧
        (hop s' h).unacked = (hop s h).unacked.map (fun p => (p.1, p.2 + 1)) ∧
        (hop s' h).wire.map (·.seq) = (hop s h).wire.map (·.seq) ++ (hop s h).unacked.map (·.1.seq)) ∧
    ((hop s h).unacked ≠ [] → (∃ p, p ∈ (hop s h).unacked ∧ 3 ≤ p.2) → reg s Reg.linkDown < 2 ^ 32 - 1 →
      ∃ s', exec (.replayTimeout h) s = .next s' ∧ DieLinkDown s s' (h / 2)) ∧
    ((hop s h).unacked ≠ [] → reg s Reg.linkDown < 2 ^ 32 - 1 →
      ∃ s', exec (.linkAckTimeout h) s = .next s' ∧ DieLinkDown s s' (h / 2)) ∧
    (∀ f rest k, (hop s (opp h)).wire = f :: rest → f.type = 5 → f.ackV = false → (∀ p, p ∈ (hop s h).unacked → p.2 < 3) →
      (hop s h).unacked.findIdx? (fun p => p.1.seq == leNat (f.payload.take 2) % 4096) = some k → reg s Reg.linkReplay < 2 ^ 32 - 1 →
      ∃ s', exec (.nakReceive (opp h) []) s = .next s' ∧ reg s' Reg.linkReplay = reg s Reg.linkReplay + 1 ∧
        (hop s' h).unacked = (hop s h).unacked.take k ++ ((hop s h).unacked.drop k).map (fun p => (p.1, p.2 + 1))) ∧
    (∀ a, (hop s (opp h)).ackDue = true → (hop s (opp h)).lastAcc = some a →
      ∃ s' f, exec (.idleAckFlit h) s = .next s' ∧ (hop s' h).wire = (hop s h).wire ++ [f] ∧ f.type = 0 ∧ f.ackV = true ∧ f.ack = a ∧
        (hop s' (opp h)).ackDue = false)) ∧
  (
  ∀ s,
    (∀ h, h < 16 → linkUp s (h / 2) = true → reg s Reg.linkDown < 2 ^ 32 - 1 →
      ∃ s', exec (.lossOfLock h) s = .next s' ∧ DieLinkDown s s' (h / 2)) ∧
    (∀ l, l < 8 → (s.part.variant = 2 → l ∈ [0, 1, 4]) → linkUp s l = false → s.gov.ps ≠ .p3 → s.gov.ps ≠ .p4 →
      reg s Reg.bootStatus % 16 = 7 → ∃ s', exec (.dieLinkRetrain l) s = .next s' ∧ FreshLink s' l ∧
        ∀ k, k < 8 → k ≠ l → linkUp s' k = linkUp s k))

/-- R334, R335, R338, R341, R475, Table 10.5: On a part with Extium Links, writing ENABLE over 0 starts the training of both links
(DETECT) and float 5; a link in training moves DETECT, EQUALIZE, ALIGN, PAIR; a peer with the other role, of the same variant, with the maps
the other link heard brings it UP, and the pair stands once both are; an equal role takes it down with reason 5, another variant with reason
6; CTRL DOWN from the peer takes an UP link down with PEER_DOWN (4) and ends the pairing, but with reason STANDBY (8) the pairing is held;
LINK_RETRAIN of both links, and AUTO_RETRAIN of a DOWN link in P0, start their training. A LINK_TRAIN operation whose links are not all UP in
time ends FAILED with code 0x10 while they go on training; a held pairing whose links are not both UP in time, outside P3, ends, and no
credit of a die of the other package is in use. -/
def Obligations.ExtiumLinksTrainPairAndTimeOut : Prop :=
  (
  ∀ s,
    (∀ v, s.part.variant = 0 → v % 2 = 1 → regBit s Reg.pairCtl 0 = false → ∃ s', exec (.linkPairCtlWrite v) s = .next s' ∧
      (getExt s' 0).st = .detect ∧ (getExt s' 1).st = .detect ∧ reg s' Reg.pairCtl = v % 8 ∧ (getFloat s' 5).op = 7 ∧
      (getFloat s' 5).st = 1) ∧
    (∀ l, (getExt s l).st = .detect → ∃ s', exec (.extLinkTrainState l) s = .next s' ∧ (getExt s' l).st = .equalize) ∧
    (∀ l, (getExt s l).st = .equalize → ∃ s', exec (.extLinkTrainState l) s = .next s' ∧ (getExt s' l).st = .align) ∧
    (∀ l, (getExt s l).st = .align → ∃ s', exec (.extLinkTrainState l) s = .next s' ∧ (getExt s' l).st = .pair) ∧
    (∀ l pr m0 m1 m2 m3, l < 2 → (getExt s l).st = .pair → pr ≠ role s → m0 < 2 ^ 32 → m1 < 2 ^ 32 → m2 < 2 ^ 32 → m3 < 2 ^ 32 →
      ((getExt s (1 - l)).peer = none ∨ (getExt s (1 - l)).peer = some [m0, m1, m2, m3]) →
      ∃ s', exec (.pairInfo l pr 0 [m0, m1, m2, m3]) s = .next s' ∧ (getExt s' l).st = .up ∧
        ((getExt s (1 - l)).st = .up → s'.paired = true)) ∧
    (∀ l, l < 2 → (getExt s l).st = .pair → ∃ s', exec (.pairInfo l (role s) 0 [0, 0, 0, 0]) s = .next s' ∧
      (getExt s' l).st = .down ∧ (getExt s' l).reason = 5) ∧
    (∀ l pr v, l < 2 → (getExt s l).st = .pair → pr ≠ role s → v ≠ 0 → ∃ s', exec (.pairInfo l pr v [0, 0, 0, 0]) s = .next s' ∧
      (getExt s' l).st = .down ∧ (getExt s' l).reason = 6) ∧
    (∀ l r, l < 2 → r < 16 → (getExt s l).st = .up →
      (r ≠ 8 → ∃ s', exec (.ctrlDownReceive ⟨l, r⟩) s = .next s' ∧ (getExt s' l).st = .down ∧ (getExt s' l).reason = 4 ∧
        s'.paired = false) ∧
      (r = 8 → s.paired = true → ∃ s', exec (.ctrlDownReceive ⟨l, r⟩) s = .next s' ∧ (getExt s' l).st = .down ∧
        (getExt s' l).reason = 8 ∧ s'.paired = true ∧ s'.held = true)) ∧
    (s.part.variant = 0 → regBit s Reg.pairCtl 0 = true → (getExt s 0).st = .up → (getExt s 1).st = .up →
      ∃ s', exec (.linkRetrain 3) s = .next s' ∧ (getExt s' 0).st = .detect ∧ (getExt s' 1).st = .detect) ∧
    (∀ l, l < 2 → (getExt s l).st = .down → regBit s Reg.pairCtl 0 = true → regBit s Reg.pairCtl 2 = true → s.gov.ps = .p0 →
      ∃ s', exec (.extAutoRetrain l) s = .next s' ∧ (getExt s' l).st = .detect)) ∧
  (
  ∀ s,
    ((getFloat s 5).st = 1 → s.trainLinks ≠ 0 → ∃ s', exec .linkTrainTimeout s = .next s' ∧ (getFloat s' 5).st = 3 ∧
      (getFloat s' 5).result = 0x10 ∧ s'.trainLinks = 0 ∧ s'.ext = s.ext) ∧
    (s.held = true → s.gov.ps ≠ .p3 → (getExt s 0).st ≠ .up → ∃ s', exec .pairHoldExpire s = .next s' ∧ s'.paired = false ∧
      s'.held = false ∧ ∀ d e, 4 ≤ e → e < 8 → creditsUsed s' d e = 0))

/-- R343 to R345, R349, R363: The next window starts: its number moves on and its debits start at 0; its band, from band 0, is that of THERM_MAX
against 70 °C, 85 °C and THERM_THROTTLE. Where grants are made its budget is f_therm × (PKG_LIMIT − BASE − MAINT), truncated, less the debt
carried in, and that debt falls by as much; elsewhere the budget is 0 and the debt stands. Memory and stations are as they were. -/
def Obligations.WindowsMeterLeave : Prop :=
  ∀ s, ∃ s', exec .windowStart s = .next s' ∧ s'.gov.window = s.gov.window + 1 ∧ s'.gov.spent = 0 ∧ s'.gov.maint = 0 ∧
    s'.gov.granted = false ∧ s'.stns = s.stns ∧ s'.cist = s.cist ∧ s'.well = s.well ∧
    (s.gov.band = 0 → s'.gov.band = (if 4 * reg s Reg.thermThrottle ≤ reg s Reg.thermMax then 3 else if 340 ≤ reg s Reg.thermMax then 2
      else if 280 ≤ reg s Reg.thermMax then 1 else 0)) ∧
    (s.gov.ps ∉ [PState.p0, .p1] → s'.gov.budget = 0 ∧ s'.gov.debt = s.gov.debt) ∧
    (∀ full, s.gov.ps ∈ [PState.p0, .p1] →
      full = (((if reg s Reg.thermMax ≤ 4 * reg s Reg.thermThrottle then 65536 else if 420 ≤ reg s Reg.thermMax then 0
        else 65536 * (420 - reg s Reg.thermMax) / (420 - 4 * reg s Reg.thermThrottle) : Nat) : Int) *
        ((reg s Reg.pkgLimit * 65536 : Nat) - (baseCost s (isEco s.gov.ps) s'.gov.band : Int) - 5 * 65536) / 65536).toNat →
      s'.gov.budget = full - s.gov.debt ∧ s'.gov.debt = s.gov.debt - full ∧ s'.gov.budgetNoDebt = full)

/-- R350, R352 to R355: The hub's well access, and a pump channel whose span in hand is half done, each place one WELL request, of one unit
per KiB begun, behind what its queue held before the present cycle. The Governor, where it may grant, grants the only request that waits
where its cost fits in what is left of the window: the request leaves its queue and its cost is debited; of two requests of different
classes that both fit, neither starved, the next in class order after the class last granted is granted. -/
def Obligations.LeaveIsRequestedAndGranted : Prop :=
  ∀ s,
    (∀ a n, 0 < n → n ≤ 65536 → wellDie a < dies s → wellOff a + n ≤ wellEnd → outstanding s 128 < 2 →
      ∃ s' q, exec (.leaveRequest 4 0 a n) s = .next s' ∧ { s' with gov := s.gov } = s ∧ q ∈ s'.gov.reqs ∧
        s'.gov.reqs.length = s.gov.reqs.length + 1 ∧ ((∀ p ∈ s.gov.reqs, p.placed ≠ s.cyc) → s'.gov.reqs = s.gov.reqs ++ [q]) ∧
        q.cls = 2 ∧ q.requester = 128 ∧ q.units = [(5, (n + 1023) / 1024)] ∧ s'.gov.spent = s.gov.spent) ∧
    (∀ u ch a, ch < 4 → engineOn s u = true → (getChan (stn s u) ch).active = some a →
      a.ended = none → a.cancel = false → needsWell a.raw = true → spanNext u (stn s u) a ≠ 0 → a.leaveBytes ≤ 32768 →
      s.gov.reqs.any (reqOfSpan u ch) = false → outstanding s (lstn s u) < 2 →
      ∃ s' q, exec (.leaveRequest 0 u ch 0) s = .next s' ∧ q ∈ s'.gov.reqs ∧ s'.gov.reqs.length = s.gov.reqs.length + 1 ∧
        ((∀ p ∈ s.gov.reqs, p.placed ≠ s.cyc) → s'.gov.reqs = s.gov.reqs ++ [q]) ∧ q.cls = 2 ∧ q.requester = lstn s u ∧
        q.units = [(5, (spanNext u (stn s u) a + 1023) / 1024)] ∧
        (getChan (stn s' u) ch).active = some { a with leaveAsked := a.leaveAsked + spanNext u (stn s u) a }) ∧
    (∀ q, s.gov.reqs = [q] → q.cls < 5 → s.gov.stackStop = [] → mayGrant s = true →
      costOf q.units (isEco s.gov.ps) ≤ s.gov.budget - s.gov.spent → costOf q.units (isEco s.gov.ps) ≤ s.gov.budgetNoDebt →
      ∃ s', exec .leaveGrant s = .next s' ∧ s'.gov.reqs = [] ∧ s'.gov.spent = s.gov.spent + costOf q.units (isEco s.gov.ps) ∧
        s'.gov.debt = s.gov.debt ∧ s'.gov.lastClass = q.cls ∧ { s' with gov := s.gov, stns := s.stns } = s) ∧
    (∀ p q, s.gov.reqs = [p, q] → p.id ≠ q.id → p.cls ≠ q.cls → p.cls < 5 → q.cls < 5 → s.gov.lastClass < 5 →
      s.gov.stackStop = [] → mayGrant s = true → p.starved = none → q.starved = none →
      (∀ r, r ∈ [p, q] → costOf r.units (isEco s.gov.ps) ≤ s.gov.budget - s.gov.spent ∧
        costOf r.units (isEco s.gov.ps) ≤ s.gov.budgetNoDebt ∧ r.waited < reg s Reg.leaveStarve) →
      ∃ s', exec .leaveGrant s = .next s' ∧ s'.gov.reqs.map (·.id) =
        [if (p.cls + 4 - s.gov.lastClass) % 5 < (q.cls + 4 - s.gov.lastClass) % 5 then q.id else p.id])

/-- R360 to R362, R364, R366: A droop source starts the stretch and counts once; during it the Governor grants nothing; the stretch ends with
the sources gone. A sampling rounds each reading to the nearest 0.25 °C, upward from midway, and stores the hottest die sensor in THERM_MAX;
it starts the thermal stop at 105 °C and ends it at 103 °C; a reading of 115 °C or more trips the part into P4 Off. -/
def Obligations.DroopAndHeatStopGrants : Prop :=
  ∀ s,
    (∀ k, k < 6 → s.gov.stretch = false → reg s Reg.droopCnt < 2 ^ 32 - 1 → ∃ s', exec (.droopAssert k) s = .next s' ∧
      k ∈ s'.gov.droopSrc ∧ s'.gov.stretch = true ∧ s'.gov.droopWait = true ∧ reg s' Reg.droopCnt = reg s Reg.droopCnt + 1) ∧
    (∀ k, k < 6 → s.gov.stretch = true → ∃ s', exec (.droopAssert k) s = .next s' ∧ k ∈ s'.gov.droopSrc ∧
      s'.gov.stretch = true ∧ s'.regs = s.regs) ∧
    (s.gov.stretch = true → exec .leaveGrant s = .next s) ∧
    (s.gov.stretch = true → exec .droopStretchEnd s = .next { s with gov := { s.gov with droopSrc := [], stretch := false } }) ∧
    (∀ ds ss t, ds.length = 8 * dies s + 2 → ss.length = stackCount s → (∀ v, v ∈ ds ++ ss → v < 114875) → s.gov.ps ∉ [PState.p3, .p4] →
      t = (ds.map (fun v => (v + 125) / 250)).foldl max 0 →
      ∃ s', exec (.thermSample ds ss) s = .next s' ∧ reg s' Reg.thermMax = t ∧
        s'.gov.thermStop = (if 420 ≤ t then true else if t ≤ 412 then false else s.gov.thermStop) ∧
        s'.gov.ps = s.gov.ps ∧ s'.stns = s.stns ∧ s'.cist = s.cist ∧ s'.well = s.well) ∧
    (∀ ds ss v, ds.length = 8 * dies s + 2 → ss.length = stackCount s → (∀ w, w ∈ ds ++ ss → w < 16383875) → v ∈ ds ++ ss → 114875 ≤ v →
      s.gov.ps ∉ [PState.p3, .p4] → ∃ s', exec (.thermSample ds ss) s = .next s' ∧ s'.gov.ps = .p4 ∧ s'.gov.thermTrip = true ∧
        s'.cist = [] ∧ s'.well = [])

/-- R368 to R371, R341, R590, R591: PWR_CTL is stored and a TARGET that differs asks for a transition, at once or after the one in progress;
P0 and P1 follow each other and P2 (P0 once the voltage has been raised), P2 once no step runs and the stations may be gated, P4 with
everything volatile lost; AUTO_IDLE enters P2. P3 Standby is entered once every station stands still, by the part or by the secondary that
is told of it, and loses the cistern but no byte of the well; its exit brings every die link UP. The VID code rises by one at a time. -/
def Obligations.PowerStatesChange : Prop :=
  ∀ s,
    (∀ v, v < 2 ^ 32 → ∃ s', exec (.pwrCtlWrite v) s = .next s' ∧
      reg s' Reg.pwrCtl = min (v % 8) 4 + 256 * bits v 9 8 + 65536 * max 1 (bits v 31 16) ∧
      (transiting s = false → s.gov.ps = .p0 → v % 8 = 1 → s'.gov.busy = some .p1) ∧
      (transiting s = false → s.gov.ps = .p0 → v % 8 = 0 → s'.gov.busy = none) ∧
      (transiting s = true → s'.gov.busy = s.gov.busy ∧ s'.gov.again = true)) ∧
    (s.sec.zero = none → s.tap.scan = false → s.gov.again = false →
      (s.gov.busy = some .p1 → s.gov.ps ∈ [PState.p0, .p2] → ∃ s', exec .pstateTransition s = .next s' ∧ s'.gov.ps = .p1 ∧
        s'.gov.busy = none ∧ s'.stns = s.stns ∧ s'.cist = s.cist ∧ s'.well = s.well) ∧
      (s.gov.busy = some .p0 → s.gov.ps ∈ [PState.p1, .p2] → 20 ≤ s.pins.vid → ∃ s', exec .pstateTransition s = .next s' ∧
        s'.gov.ps = .p0 ∧ s'.gov.busy = none ∧ s'.stns = s.stns) ∧
      (s.gov.busy = some .p0 → s.gov.ps ∈ [PState.p1, .p2] → s.pins.vid < 20 → s.pins.vidTo ≤ s.pins.vid →
        ∃ s', exec .pstateTransition s = .next s' ∧ s'.gov = s.gov ∧ 20 ≤ s'.pins.vidTo ∧ s'.pins.vidTo ≤ 40 ∧ s'.pins.vid = s.pins.vid) ∧
      (s.disp.step = none → loading s = false → s.gov.busy = some .p2 → s.gov.ps ∈ [PState.p0, .p1] → mayGate s = true →
        ∃ s', exec .pstateTransition s = .next s' ∧ s'.gov.ps = .p2 ∧ s'.gov.busy = none ∧ s'.cist = s.cist ∧ s'.well = s.well) ∧
      (s.disp.step = none → loading s = false → s.gov.busy = some .p4 → ∃ s', exec .pstateTransition s = .next s' ∧ s'.gov.ps = .p4 ∧
        s'.cist = [] ∧ s'.well = [] ∧ s'.stns = [])) ∧
    (regBit s Reg.pwrCtl 8 = true → s.gov.ps ∈ [PState.p0, .p1] → s.sess = [] → s.disp.step = none → s.disp.prime = .none →
      s.gov.busy = none → s.sec.zero = none → mayGate s = true → loading s = false → s.tap.scan = false →
      ∃ s', exec .autoIdleEnter s = .next s' ∧ s'.gov.ps = .p2 ∧ s'.gov.autoIdle = true ∧ s'.cist = s.cist ∧ s'.well = s.well) ∧
    (s.disp.step = none → s.sec.zero = none → s.disp.prime = .none → s.gov.ps ∈ [PState.p0, .p1, .p2] → loading s = false →
      s.tap.scan = false → s.gov.again = false → hubReady s 1 = true → s.stns.all (fun p => standbyReady p.2) = true →
      (isSecondary s = false → s.gov.busy = some .p3 → ∃ s', exec .p3Entry s = .next s' ∧ s'.gov.ps = .p3 ∧ s'.gov.busy = none ∧
        s'.cist = [] ∧ s'.well = s.well ∧ s'.dieUp = 0) ∧
      (isSecondary s = true → (getExt s 0).st = .up → ∃ s', exec .pairStandby s = .next s' ∧ s'.gov.ps = .p3 ∧ s'.cist = [] ∧
        s'.well = s.well ∧ s'.held = true)) ∧
    (s.gov.ps = .p3 → s.gov.busy = some .p1 → s.held = false → s.sec.zpend = none → s.tap.scan = false → s.gov.again = false →
      ∃ s', exec .p3Exit s = .next s' ∧ s'.gov.ps = .p1 ∧ s'.gov.busy = none ∧ s'.well = s.well ∧
        ∀ l, l ∈ dieLinks s → linkUp s' l = true) ∧
    (s.pins.vid < s.pins.vidTo → s.gov.droopSrc = [] →
      exec .vidStep s = .next { s with pins := { s.pins with vid := s.pins.vid + 1 } })

/-- R561, R590, R593, R595: VDD_IO with PWR_OK low drives VID code 30; the rise of PWR_OK is a cold reset, which keeps the fuses and returns
every register to its reset value; its fall, and a rail out of tolerance, lose what is volatile; the loss of REFCLK drives VID code 10 and
leaves no path to the register map. -/
def Obligations.PowerAndClockMakeAndEndTheMachine : Prop :=
  ∀ s,
    (s.pins.pwrOk = false → ∃ s', exec .vddIoValid s = .next s' ∧ { s' with pins := s.pins } = s ∧ s'.pins.vddIo = true ∧
      s'.pins.vid = 30 ∧ s'.pins.pwrOk = false) ∧
    (s.pins.pwrOk = false → s.pins.vddIo = true → ∃ s', exec .coldReset s = .next s' ∧ s'.pins.pwrOk = true ∧ s'.part = s.part ∧
      s'.fuses = s.fuses ∧ s'.regs = coldRegs s.part.fuseEn ∧ s'.stns = [] ∧ s'.sess = [] ∧ s'.qps = [] ∧ s'.ldr.image = none ∧
      s'.time.time = 0 ∧ s'.boot.mapReady = false ∧ s'.pending = s.pending) ∧
    (s.pins.pwrOk = true → ∃ s', exec .pwrOkFall s = .next s' ∧ s'.pins.pwrOk = false ∧ s'.fuses = s.fuses ∧ s'.part = s.part ∧
      s'.ldr.image = none ∧ s'.pins.vid = 30) ∧
    (s.pins.pwrOk = true → ∃ s', exec .railOutOfTolerance s = .next s' ∧ s'.gov.ps = .p4 ∧ s'.fuses = s.fuses ∧
      ∀ p, pathUp s' p = false) ∧
    (s.pins.pwrOk = true → s.pins.refLost = false → ∃ s', exec .refclkLoss s = .next s' ∧ s'.gov.ps = .p4 ∧ s'.pins.vid = 10 ∧
      s'.fuses = s.fuses ∧ ∀ p, pathUp s' p = false)

/-- R379 to R383, R390: A doorbell of an enabled queue pair stores SQ_TAIL, or CQ_HEAD where it is valid, and an invalid CQ_HEAD stands as such;
an enable starts both rings empty with the bases and sizes in force; a disable ends the pair's sessions, and is done once its message is
out; coalescing takes its values; the fetch of an entry moves SQ_HEAD on and queues the frame behind its SID's others, and a failed read
puts the pair into ERROR; a message is sent for what waits, and for a pending vector that is unmasked. -/
def Obligations.QueuePairsFollowTheirDoorbells : Prop :=
  ∀ s n, n < 64 →
    (∀ v, v < 2 ^ 32 → (getQp s n).enable = true → ∃ s', exec (.sqTailDoorbell n v) s = .next s' ∧ { s' with qps := s.qps } = s ∧
      getQp s' n = { getQp s n with tail := v % 2 ^ (getQp s n).sqL } ∧ ∀ m, m ≠ n → getQp s' m = getQp s m) ∧
    (∀ v, v < 2 ^ 32 → (getQp s n).enable = true → v % 2 ^ (getQp s n).cqL ≤ (getQp s n).cqTail → (getQp s n).cqHead ≤ v % 2 ^ (getQp s n).cqL →
      (getQp s n).cqTail < 2 ^ (getQp s n).cqL →
      ∃ s', exec (.cqHeadDoorbell n v) s = .next s' ∧ (getQp s' n).cqHead = v % 2 ^ (getQp s n).cqL ∧ (getQp s' n).badHead = false) ∧
    (∀ v, v < 2 ^ 32 → (getQp s n).enable = true → (getQp s n).cqHead ≤ (getQp s n).cqTail →
      (getQp s n).cqTail < v % 2 ^ (getQp s n).cqL →
      ∃ s', exec (.cqHeadDoorbell n v) s = .next s' ∧ { s' with qps := s.qps } = s ∧ getQp s' n = { getQp s n with badHead := true }) ∧
    (∀ v, v < 2 ^ 32 → v % 2 = 1 → (getQp s n).enable = false → (getQp s n).ending = false →
      ∃ s', exec (.qpEnableWrite n v) s = .next s' ∧ { s' with qps := s.qps } = s ∧ (getQp s' n).st = 1 ∧ (getQp s' n).enable = true ∧
        (getQp s' n).sqHead = 0 ∧ (getQp s' n).tail = 0 ∧ (getQp s' n).cqTail = 0 ∧ (getQp s' n).cqHead = 0 ∧ (getQp s' n).phase = true ∧
        (getQp s' n).sqB = (getQp s n).sqBase ∧ (getQp s' n).cqB = (getQp s n).cqBase ∧
        (getQp s' n).sqL = max 8 (min 12 (bits v 11 8)) ∧ (getQp s' n).cqL = max 8 (min 12 (bits v 15 12))) ∧
    (∀ v, v < 2 ^ 32 → v % 2 = 0 → (getQp s n).enable = true → ∃ s', exec (.qpEnableWrite n v) s = .next s' ∧
      (getQp s' n).enable = false ∧ (getQp s' n).ending = true ∧
      ∀ sid, (getSess s sid).isOpen = true → (getSess s sid).qp = n → (getSess s' sid).isOpen = false) ∧
    ((getQp s n).ending = true → ∃ s', exec (.qpDisableDone n) s = .next s' ∧ (getQp s' n).st = 0 ∧ (getQp s' n).ending = false) ∧
    (∀ v, v < 2 ^ 32 → ∃ s', exec (.qpCoalWrite n v) s = .next s' ∧ (getQp s' n).coalCount = max 1 (v % 65536) ∧
      (getQp s' n).coalUs = v / 65536) ∧
    (qpLive (getQp s n) = true → (getQp s n).badHead = false → (getQp s n).sqHead ≠ (getQp s n).tail → 0 < cqFree (getQp s n) →
      (∃ s', exec (.sqFetch n none) s = .next s' ∧ (getQp s' n).st = 2 ∧ (getQp s' n).errCause = 1 ∧ (getQp s' n).sqHead = (getQp s n).sqHead) ∧
      (∀ bs sid, bs.length = 64 → s.msix.busMaster = true → isSecondary s = false → sid = leNat (bs.take 2) % 4096 →
        1 ≤ (bs.getD 2 0).toNat → (bs.getD 2 0).toNat ≤ 5 → ((getSess s sid).isOpen = true → (getSess s sid).qp = n) → (getSess s sid).closing = false →
        (getSess s sid).faulted = false → (getSess s sid).pend.length < 16 →
        ∃ s' f, exec (.sqFetch n (some bs)) s = .next s' ∧ (getQp s' n).sqHead = ((getQp s n).sqHead + 1) % 2 ^ (getQp s n).sqL ∧
          (getQp s' n).reserved = (getQp s n).reserved + 1 ∧ (getSess s' sid).pend = (getSess s sid).pend ++ [f] ∧ f.qp = n ∧
          f.sid = sid ∧ f.type = (bs.getD 2 0).toNat ∧ f.tag = leNat ((bs.drop 4).take 4) ∧ s'.out = s.out)) ∧
    ((getQp s n).since ≠ 0 → s.msix.en = true → s.msix.fmask = false → s.msix.busMaster = true → s.tap.scan = false →
      (msixEntry s (getQp s n).vector).masked = false →
      ∃ s', exec (.msixCoalTimeout n) s = .next s' ∧ (getQp s' n).since = 0 ∧
        s'.out = s.out ++ [.msi ((msixEntry s (getQp s n).vector).addrLo + 2 ^ 32 * (msixEntry s (getQp s n).vector).addrHi)
          (msixEntry s (getQp s n).vector).data]) ∧
    (s.msix.pend = 2 ^ n → s.msix.en = true → s.msix.fmask = false → s.msix.busMaster = true → s.tap.scan = false →
      ∃ s', exec (.msixVectorUnmask n) s = .next s' ∧ (msixEntry s' n).masked = false ∧ s'.msix.pend = 0 ∧
        s'.out = s.out ++ [.msi ((msixEntry s n).addrLo + 2 ^ 32 * (msixEntry s n).addrHi) (msixEntry s n).data])

namespace Sys2Proof.Stated

/-- The frame of type `ty` at the head of session `sid`'s queue may start to act (R383, R390): nothing of the session is in progress, no
CANCEL, CLOSE or QUERY stands before it, and its queue pair is running. -/
structure HeadFrame (s : State) (sid ty : Nat) (f : Frame) (rest : List Frame) : Prop where
  pend : (getSess s sid).pend = f :: rest
  type : f.type = ty
  own : f.sid = sid
  idle : (getSess s sid).gen = none ∧ (getSess s sid).busy = false ∧ (getSess s sid).urgent = [] ∧ (getSess s sid).armed = []
  live : (getSess s sid).closing = false
  pair : qpLive (getQp s f.qp) = true

/-- The frame's session is open, on the frame's queue pair. -/
def Owns (s : State) (f : Frame) : Prop := (getSess s f.sid).isOpen = true ∧ (getSess s f.sid).qp = f.qp

/-- The oldest at-once frame of session `sid` is `f`, of type `ty`; every frame has a number of its own. -/
structure AtOnce (s : State) (sid ty : Nat) (f : Frame) (rest : List Frame) : Prop where
  urgent : (getSess s sid).urgent = f :: rest
  type : f.type = ty
  own : f.sid = sid
  live : (getSess s sid).closing = false
  once : ∀ g, g ∈ rest → g.no ≠ f.no

end Sys2Proof.Stated

/-- R391 to R395, R424, R427: With an image in READY and the cap not reached, OPEN opens its SID at the session's reset parameters; CONFIG
stores the groups that SET names, clamped; APPEND_TOKENS puts tokens of the vocabulary at the end of the session; APPEND_TEXT takes a pipe
of the Text Engine, whose tokens then follow the session's; GENERATE starts with its token limit, or completes at once on an empty session.
Each but GENERATE and APPEND_TEXT completes its frame. -/
def Obligations.InOrderFramesActOnTheirSession : Prop :=
  ∀ s sid f rest,
    (HeadFrame s sid 1 f rest → (getSess s sid).isOpen = false → sid < sessLimit s → imgReady s = true → s.sec.zero = none →
      openCount s < reg s Reg.sessCap → f.flags.testBit 2 = false →
      ∃ s', exec (.openSession sid) s = .next s' ∧ (getSess s' sid).isOpen = true ∧ (getSess s' sid).qp = f.qp ∧
        (getSess s' sid).seed = leNat (f.body.take 8) ∧ (getSess s' sid).temp = 0x3F800000 ∧ (getSess s' sid).topP = 0x3F800000 ∧
        (getSess s' sid).topK = 0 ∧ (getSess s' sid).maxNew = (theImage s).ctxMax ∧ (getSess s' sid).tokens = [] ∧
        (getSess s' sid).pend = rest ∧ ∀ k, k ≠ sid → getSess s' k = getSess s k) ∧
    (HeadFrame s sid 2 f rest → Owns s f →
      (f.fld 0 1 = 1 → f.fld 4 4 ≤ 0x41800000 → ∃ s', exec (.config sid none) s = .next s' ∧ (getSess s' sid).temp = f.fld 4 4 ∧
        (getSess s' sid).topK = min (f.fld 12 2) 1024 ∧ (getSess s' sid).maxNew = (getSess s sid).maxNew ∧
        (getSess s' sid).tokens = (getSess s sid).tokens ∧ (getSess s' sid).pend = rest) ∧
      (f.fld 0 1 = 2 → ∃ s', exec (.config sid none) s = .next s' ∧ (getSess s' sid).temp = (getSess s sid).temp ∧
        (getSess s' sid).maxNew = min (max 1 (f.fld 16 4)) (theImage s).ctxMax ∧ (getSess s' sid).pend = rest)) ∧
    (HeadFrame s sid 4 f rest → Owns s f → f.flags.testBit 0 = true →
      ((∀ t, t ∈ tokenList (f.body.take (min f.len 44)) → t < (theImage s).vocab) →
        (tokenList (f.body.take (min f.len 44))).length ≤ (getSess s sid).truncLimit →
        (getSess s sid).tokens.length + (tokenList (f.body.take (min f.len 44))).length ≤ (theImage s).ctxMax →
        ∃ s', exec (.appendTokens sid none) s = .next s' ∧ (getSess s' sid).pend = rest ∧
          (getSess s' sid).tokens = (getSess s sid).tokens ++ tokenList (f.body.take (min f.len 44))) ∧
      ((∃ t, t ∈ tokenList (f.body.take (min f.len 44)) ∧ (theImage s).vocab ≤ t) →
        ∃ s', exec (.appendTokens sid none) s = .next s' ∧ (getSess s' sid).pend = rest ∧
          (getSess s' sid).tokens = (getSess s sid).tokens)) ∧
    (HeadFrame s sid 3 f rest → Owns s f → f.flags.testBit 0 = true → f.len ≤ 44 → textOk s = true → s.text.pipes = [] → s.text.wait = [] →
      ∃ s', exec (.appendText sid none) s = .next s' ∧ s'.text.pipes = [(0, ⟨f, f.body.take f.len, [], 0⟩)] ∧
        getSess s' sid = { getSess s sid with busy := true }) ∧
    (∀ k j, s.text.pipes.find? (fun p => p.1 == k) = some (k, j) → s.text.repair = [] → s.text.err = [] →
      (getSess s j.frame.sid).closing = false →
      (tokensOf s.text.sram j.spans j.text).1.length ≤ (getSess s j.frame.sid).truncLimit →
      (getSess s j.frame.sid).tokens.length + (tokensOf s.text.sram j.spans j.text).1.length ≤ (theImage s).ctxMax →
      ∃ s', exec (.tokenizeAppend k) s = .next s' ∧ (getSess s' j.frame.sid).busy = false ∧
        (getSess s' j.frame.sid).tokens = (getSess s j.frame.sid).tokens ++ (tokensOf s.text.sram j.spans j.text).1) ∧
    (HeadFrame s sid 5 f rest → Owns s f →
      (0 < (getSess s sid).tokens.length → (getSess s sid).tokens.length < (theImage s).ctxMax →
        ∃ s' g, exec (.generate sid) s = .next s' ∧ (getSess s' sid).gen = some g ∧ g.frame = f ∧ g.count = 0 ∧ g.pipe = [] ∧
          g.maxNew = (if f.fld 0 4 = 0 then (getSess s sid).maxNew else min (f.fld 0 4) (theImage s).ctxMax)) ∧
      ((getSess s sid).tokens = [] → ∃ s', exec (.generate sid) s = .next s' ∧ (getSess s' sid).gen = none ∧ (getSess s' sid).pend = rest))

/-- R396 to R398: CANCEL is taken at once and applies at the step boundary, where it ends the GENERATE and completes every queued frame; CLOSE,
at a step boundary, closes the session and its tokens are gone; QUERY answers the session's state, L, C, pages, queued frames and generated
tokens at once, and changes nothing of the session; so does QUERY of the device. -/
def Obligations.AtOnceFramesCancelCloseAndQuery : Prop :=
  ∀ s sid f rest,
    (AtOnce s sid 6 f rest → Owns s f → (getSess s sid).faulted = false →
      ∃ s', exec (.cancel sid) s = .next s' ∧ { s' with sess := s.sess } = s ∧
        getSess s' sid = { getSess s sid with urgent := rest, armed := (getSess s sid).armed ++ [f] } ∧
        ∀ k, k ≠ sid → getSess s' k = getSess s k) ∧
    ((getSess s sid).armed = f :: rest → (getSess s sid).closing = false → s.disp.step = none → (getSess s sid).busy = false →
      ∃ s', exec (.cancelApply sid) s = .next s' ∧ (getSess s' sid).gen = none ∧ (getSess s' sid).pend = [] ∧
        (getSess s' sid).armed = rest ∧ (getSess s' sid).tokens = (getSess s sid).tokens) ∧
    (AtOnce s sid 7 f rest → Owns s f → s.disp.step = none → (getSess s sid).busy = false → (getSess s sid).armed = [] →
      ∃ s', exec (.close sid) s = .next s' ∧ (getSess s' sid).isOpen = false ∧ (getSess s' sid).tokens = [] ∧
        (getSess s' sid).pages = [] ∧ (getSess s' sid).gen = none) ∧
    (AtOnce s sid 8 f rest → f.flags.testBit 1 = false → Owns s f →
      (∃ s', exec (.querySession sid) s = .next s' ∧ (getSess s' sid).urgent = rest ∧
        (getSess s' sid).tokens = (getSess s sid).tokens ∧ (getSess s' sid).gen = (getSess s sid).gen) ∧
      ((getSess s sid).outq = [] → qpLive (getQp s f.qp) = true → (getQp s f.qp).badHead = false → s.msix.busMaster = true →
        ∃ s' a bs more, exec (.querySession sid) s = .next s' ∧ s'.out = s.out ++ .write a bs :: more ∧
          bs.drop 16 = leBytes 4 f.tag ++ [0, 8, 0, 0] ++ leBytes 4 (sessState (getSess s sid)) ++
            leBytes 4 (getSess s sid).tokens.length ++ leBytes 4 (getSess s sid).comp ++ leBytes 4 (getSess s sid).pages.length ++
            leBytes 4 (getSess s sid).pend.length ++ leBytes 4 (((getSess s sid).gen.map (·.count)).getD 0) ++ List.replicate 16 0)) ∧
    (AtOnce s sid 8 f rest → f.flags.testBit 1 = true → ∃ s', exec (.queryDevice sid) s = .next s' ∧
      (getSess s' sid).urgent = rest ∧ (getSess s' sid).tokens = (getSess s sid).tokens)

/-- R152 to R154, R358, R367, R419: While the well controllers run, scheduled refresh and recalibration are debited to MAINT and change nothing
else of the part but the count of free values; in P0 to P2 one cistern line, or one beat of every stack, is scrubbed: the scrub position
moves on by one, wrapping after the last, and no byte changes. The size of a refresh debit is the model's free value (log entry 23). Patrol
scrub of Text SRAM with no error changes nothing, and corrects and counts a single-bit error; the rewrite of a failing word stores the
copy's bytes there, clears its error, and leaves every other byte. -/
def Obligations.MaintenanceAndScrubChangeNoData : Prop :=
  (
  ∀ s,
    (s.gov.ps ≠ .p3 → s.gov.ps ≠ .p4 → ∃ s' n, exec .wellRefresh s = .next s' ∧ s'.gov.maint = s.gov.maint + n ∧
      { s' with gov := s.gov, free := s.free } = s) ∧
    (s.gov.ps ≠ .p3 → s.gov.ps ≠ .p4 → ∃ s' n, exec .wellRecal s = .next s' ∧ s'.gov.maint = s.gov.maint + n ∧
      { s' with gov := s.gov, free := s.free } = s) ∧
    (s.gov.ps ∈ [PState.p0, .p1, .p2] → ∃ s', exec .scrubCistLine s = .next s' ∧ s'.scrubCist = (s.scrubCist + 1) % 81920 ∧
      s'.cist = s.cist ∧ s'.well = s.well ∧ s'.stns = s.stns) ∧
    (s.gov.ps ∈ [PState.p0, .p1, .p2] → ∃ s', exec .scrubWellBeat s = .next s' ∧
      s'.scrubWell = (s.scrubWell + 1) % 1509949440 ∧ s'.cist = s.cist ∧ s'.well = s.well ∧ s'.stns = s.stns)) ∧
  (
  ∀ s,
    (hasText s = true → s.gov.ps ≠ .p4 → s.text.err = [] → exec .textScrub s = .next s) ∧
    (∀ w, hasText s = true → s.gov.ps ≠ .p4 → s.text.err = [(w, .single)] → reg s Reg.textCe < 2 ^ 32 - 1 →
      ∃ s', exec .textScrub s = .next s' ∧ s'.text.err = [] ∧ reg s' Reg.textCe = reg s Reg.textCe + 1 ∧ s'.text.sram = s.text.sram) ∧
    (∀ w t, s.text.repair = w :: t → s.tap.scan = false → ∃ s', exec .textSramRepair s = .next s' ∧ s'.text.repair = t ∧
      s'.text.err = tabDel s.text.err w ∧ (∀ i, i < 8 → tabGet 0 s'.text.sram (8 * w + i) = s.text.copy.getD (8 * w + i) 0) ∧
      ∀ a, (a < 8 * w ∨ 8 * w + 8 ≤ a) → tabGet 0 s'.text.sram a = tabGet 0 s.text.sram a))

/-- R451 to R456, R462, R463, R488: LOAD with no image, where the hub has its leave, is refused where the lifecycle does not admit one, and
otherwise ends with the reason of the check that fails, or with the image placed and its priming due; UNLOAD of an image in READY clears
the image and KV regions; the peer's image and pages are kept; priming resumes every live unit with its events at 0, ends with the image in
READY after a load, and one that times out is tried again. -/
def Obligations.ImagesAreLoadedPrimedAndUnloaded : Prop :=
  ∀ s,
    (∀ ext bs bad, ext.length = reg s Reg.imgListCnt → (ext.map (·.2)).foldl (· + ·) 0 = bs.length → imgState s = 0 → loaderUp s = true →
      s.gov.ps = .p0 → 65536 ≤ s.gov.hubLeave →
      (loadAdmitted s = false → ∃ s', exec (.load ext ⟨some bs, bad⟩) s = .next s' ∧ imgState s' = 4 ∧
        bits (reg s' Reg.imgStatus) 15 8 = 0xC ∧ s'.ldr.image = none ∧ s'.well = s.well) ∧
      (loadAdmitted s = true → extentsOk ext = true → ∃ s', exec (.load ext ⟨some bs, bad⟩) s = .next s' ∧
        match checkImage (loadEnd (loadRequest s) bs) bs bad with
        | .error e => imgState s' = 4 ∧ bits (reg s' Reg.imgStatus) 15 8 = e.reason % 256 ∧ s'.ldr.image = none
        | .ok _ => imgState s' = 2 ∧ s'.ldr.image.isSome ∧ s'.disp.prime = .due .load ∧ s'.sec.keyGone = false)) ∧
    (imgState s = 3 → openCount s = 0 → s.sec.zero = none → reg s Reg.bootStatus % 16 = 7 → s.tap.scan = false →
      ∃ s', exec .unload s = .next s' ∧ imgState s' = 0 ∧ s'.ldr.image = none ∧ s'.sec.keyGone = true ∧ s'.text.loaded = false ∧
        ∀ d o, d < dies s → o < 0x1660000000 → wellByte s' (d * 2 ^ 37 + o) = 0) ∧
    (∀ id pages, s.paired = true → id.length = 16 → pages.length = 4 → ∃ s', exec (.peerImageId true id pages) s = .next s' ∧
      s'.ldr.peer = some id ∧ s'.ldr.peerPages = pages ∧ s'.ldr.image = s.ldr.image) ∧
    (∀ what im, s.disp.prime = .due what → s.ldr.image = some im → allParked s = true → s.gov.ps ∈ [PState.p0, .p1] →
      s.sec.zero = none → s.tap.scan = false → spokesUp s = true → s.held = false → ∃ s', exec .primingStart s = .next s' ∧ s'.disp.prime = .running what ∧
        s'.disp.faultSeen = false ∧ s'.well = s.well ∧
        ∀ u, u ∈ liveUnits s → (stn s' u).parkReq = false ∧ ∀ e, evGet (stn s' u) e = 0) ∧
    (s.disp.prime = .running .load → primed s = true → s.disp.faultSeen = false → primeReport s = false → s.tap.scan = false → spokesUp s = true →
      s.cistErr = [] → ∃ s', exec .primingComplete s = .next s' ∧ s'.disp.prime = .none ∧ imgState s' = 3 ∧ s'.stns = s.stns ∧ s'.cist = s.cist ∧
        s'.well = s.well) ∧
    (∀ what, s.disp.prime = .running what → what ≠ .load → s.disp.primeFails = 0 → s.disp.faultSeen = false → primeReport s = false →
      wdogPaused s = false → s.tap.scan = false → ∃ s', exec .primingTimeout s = .next s' ∧ s'.disp.prime = .due what ∧
        s'.disp.primeFails = 1) ∧
    (s.disp.prime = .running .load → s.disp.faultSeen = true → ∃ s', exec .primingTimeout s = .next s' ∧ imgState s' = 4 ∧
      bits (reg s' Reg.imgStatus) 15 8 = 0xE)

/-- R400, R401, R408 to R411, R461: Where the Dispatcher may start a step with rows to compute, the step is in progress with its number and
rows, and a SIGNAL flit of STEP_EVT to every live unit is on the spoke of its die, or waits to be sent there; so it is where a secondary
receives its rows. Once every DONE_EVT has risen the step is complete and DISP_STEP_CNT counts it; a decode row's token is at the end of
its session. A cause of R409, or the watchdog, ends the step, counts it in DISP_FAULT_CNT, and makes priming due. -/
def Obligations.ModelStepsRunAndEnd : Prop :=
  ∀ s,
    (mayStep s = true → (buildStep s).2.1.any (fun r => !r.skipped) = true → ∃ s' st, exec .stepStart s = .next s' ∧
      s'.disp.step = some st ∧ st.no = (reg64 s Reg.stepCntLo + 1) % 2 ^ 64 ∧ st.rows = (buildStep s).2.1 ∧ s'.well = s.well ∧
      ∀ u, u ∈ liveUnits s → ∃ f, (f ∈ (hop s' (2 * (u / 32) + 1)).wire ∨ f ∈ (hop s' (2 * (u / 32) + 1)).sendq) ∧ f.type = 3 ∧
        f.hub = true ∧ f.payload = signalPayload u (theImage s).stepEvt false) ∧
    (∀ no bufs pts, bufs.length = dies s → (∀ b, b ∈ bufs → b.length = bufBytes s) → pts.length = dies s → isSecondary s = true →
      imgReady s = true → s.disp.step = none → s.disp.prime = .none → s.gov.ps ∈ [PState.p0, .p1] → spokesUp s = true →
      ∃ s' st, exec (.secondaryStepRows no bufs pts []) s = .next s' ∧ s'.disp.step = some st ∧ st.no = no ∧ st.secondary = true ∧
        ∀ u, u ∈ liveUnits s → ∃ f, (f ∈ (hop s' (2 * (u / 32) + 1)).wire ∨ f ∈ (hop s' (2 * (u / 32) + 1)).sendq) ∧ f.type = 3 ∧
          f.hub = true ∧ f.payload = signalPayload u (theImage s).stepEvt false) ∧
    (∀ st peer, s.disp.step = some st → stepDone s st = true → stepReport s st = false → s.disp.faultSeen = false →
      peerDone s st peer = true → s.text.repair = [] → s.gov.ps ∈ [PState.p0, .p1] → spokesUp s = true → s.cistErr = [] →
      (∃ s', exec (.stepComplete peer) s = .next s' ∧ s'.disp.step = none ∧
        reg64 s' Reg.stepCntLo = (reg64 s Reg.stepCntLo + 1) % 2 ^ 64 ∧ s'.stns = s.stns ∧ s'.cist = s.cist ∧ s'.well = s.well) ∧
      (∀ r v, st.rows = [r] → r.kind = 2 → r.skipped = false → (getSess s r.sid).isOpen = true → (getSess s r.sid).closing = false →
        (getSess s r.sid).faulted = false → (getSess s r.sid).inc = r.inc → (getSess s r.sid).gen.isSome →
        outOf s (readOuts s st.no (outRows s st)).2 (peer.getD []) r.row = v → v < (theImage s).vocab → v < 2 ^ 32 - 1 →
        ∃ s', exec (.stepComplete peer) s = .next s' ∧ (getSess s' r.sid).tokens = (getSess s r.sid).tokens ++ [v] ∧
          (getSess s' r.sid).comp = max (getSess s r.sid).comp (r.pos + 1))) ∧
    (∀ st c, c ∈ [Instr.stepWatchdog, .stepFault false] → s.disp.step = some st → s.gov.stretch = false → s.gov.thermStop = false →
      s.disp.faultSeen = true → reg s Reg.faultCnt < 2 ^ 32 - 1 → ∃ s', exec c s = .next s' ∧ s'.disp.step = none ∧
        s'.disp.prime = .due .fault ∧ reg s' Reg.faultCnt = reg s Reg.faultCnt + 1)

/-- R464, R466 to R468: A tick adds 65,536 × (1 + ρ) units of 2^−16 ns, held exactly; a measurement of a PTM master time stores its offset, and
a step that is due sets the time to it; a PPS edge stores the device time in TIME_PPS, a bad one is counted and changes nothing else of the
Timebase but the time of the last edge, and a good one that a time of day was given for steps to it; writing TIME_CTL makes the servo FREE with
a step due; TIME_TOD_HI arms one; the holdover of a locking or locked servo restarts its count. -/
def Obligations.TimebaseTicksStepsAndSlews : Prop :=
  ∀ s,
    (s.gov.ps ≠ .p4 → ∃ s', exec .timeTick s = .next s' ∧ { s' with time := s.time } = s ∧
      ((s'.time.time * 2 ^ 48 + s'.time.sub : Nat) : Int) =
        (((s.time.time * 2 ^ 48 + s.time.sub + 65536 * 2 ^ 48 : Nat) : Int) + 65536 * s.time.rho) % 2 ^ 128 ∧
      s'.time.rho = s.time.rho) ∧
    (∀ m th, s.gov.ps ≠ .p4 → reg s Reg.timeCtl % 4 = 1 → regBit s Reg.hostLink 13 = true → s.time.stepDue = true → m < 2 ^ 31 →
      timeNs s < 2 ^ 31 → reg s Reg.timeStepCnt < 2 ^ 32 - 1 → th = ((m * 65536 : Nat) : Int) - s.time.time →
      ∃ s', exec (.ptmMeasure (some m)) s = .next s' ∧
        timeNs s' = m ∧ s'.time.stepDue = false ∧ reg s' Reg.timeStepCnt = reg s Reg.timeStepCnt + 1 ∧
        reg s' Reg.timeOffset = unsigned 32 (Int.tdiv th 65536)) ∧
    (exec (.ptmMeasure none) s = .next s) ∧
    (s.gov.ps ≠ .p4 → ∃ s', exec .ppsEdge s = .next s' ∧ reg s' Reg.timePpsLo = timeNs s % 2 ^ 32 ∧
      reg s' Reg.timePpsHi = timeNs s / 2 ^ 32 % 2 ^ 32 ∧
      (reg s Reg.timeCtl % 4 = 2 → ppsGood s = false → reg s Reg.timePpsBadCnt < 2 ^ 32 - 1 →
        s'.time = { s.time with ppsLast := some (timeNs s) } ∧ reg s' Reg.timePpsBadCnt = reg s Reg.timePpsBadCnt + 1) ∧
      (reg s Reg.timeCtl % 4 = 2 → ppsGood s = true → s.time.todArmed = true → s.time.stepDue = true →
        timeNs s' = reg64 s Reg.timeTodLo ∧ s'.time.todArmed = false ∧ s'.time.stepDue = false)) ∧
    (s.time.servo ∈ [Servo.locking, .locked] → ∃ s', exec .servoHoldover s = .next s' ∧ s'.time.servo = .holdover ∧
      s'.time.count = 0 ∧ s'.time.time = s.time.time ∧ s'.time.rho = s.time.rho) ∧
    (∀ v, v < 2 ^ 32 → ∃ s', exec (.timeSrcSelect v) s = .next s' ∧ s'.time.servo = .free ∧ s'.time.stepDue = true ∧
      reg s' Reg.timeCtl % 4 = (if v % 4 = 3 then 0 else v % 4)) ∧
    (∀ v, v < 2 ^ 32 → v.testBit 2 = true → ∃ s', exec (.stepReq v) s = .next s' ∧ s'.time.servo = .free ∧ s'.time.stepDue = true ∧
      regBit s' Reg.timeCtl 2 = true) ∧
    (∀ v, v < 2 ^ 32 → ∃ s', exec (.timeTodHiWrite v) s = .next s' ∧ s'.time.todArmed = true ∧ s'.time.stepDue = true ∧
      reg s' Reg.timeTodHi = v ∧ s'.time.time = s.time.time)

namespace Sys2Proof.Stated

/-- Registers whose writes are clamped (Tables 11.8, 12.12, 15.3, 18.11 to 18.14): word address, least and greatest value. -/
def clampedRegs : List (Nat × Nat × Nat) :=
  [(0x089, 1, 16), (0x093, 70, 100), (0x0C7, 1, 1000000), (0x0C8, 1, 1000), (0x147, 10, 10000), (0x180, 50, 65535), (0x201, 1, 65535),
   (0x243, 1, 60000), (0x245, 1024, 16777216)]

end Sys2Proof.Stated

/-- R21, R24, R25, R472, R482, R484, R512, R537: A write of a clamped register stores the clamped value and nothing else; over BAR0 the security
and debug registers ignore writes; a read of an RC counter answers its value and clears it; a read of TIME_FRAC answers it and latches
TIME_NS; a 1 written to a W1C register clears its bit and a 0 leaves it; reading FLOAT_OP latches its float, reading SUMP_REC the record
that SUMP_SEL names; a word of a queue pair's block reads as it stands; an access of BAR0 that is not of an aligned word ends as an Unsupported
Request; EVT_MASK is stored. -/
def Obligations.RegistersReadAndWriteByTheirAttributes : Prop :=
  ∀ s, s.gov.ps ≠ .p4 →
    (∀ a lo hi v, (a, lo, hi) ∈ clampedRegs → v < 2 ^ 32 → pathUp s 0 = true → ∃ s', exec (.regWrite 0 a v) s = .next s' ∧
      { s' with regs := s.regs } = s ∧ reg s' a = min (max lo v) hi ∧ ∀ b, b ≠ a → reg s' b = reg s b) ∧
    (∀ a v, 0x280 ≤ a → a < 0x300 → v < 2 ^ 32 → pathUp s 1 = true → exec (.regWrite 1 a v) s = .next s) ∧
    (∀ p a, p < 2 → a ∈ rcWords → absent s a = false → pathUp s p = true → ∃ s', exec (.rcRead p a) s = .next s' ∧
      s'.out = s.out ++ [.value p a (reg s a)] ∧ reg s' a = 0 ∧ ∀ b, b ≠ a → reg s' b = reg s b) ∧
    (∀ p, p < 2 → pathUp s p = true → ∃ s', exec (.snapshotRead p 0x0C0) s = .next s' ∧
      s'.out = s.out ++ [.value p 0x0C0 (s.time.time % 65536)] ∧ regValue s' 0x0C1 = timeNs s % 2 ^ 32 ∧
      regValue s' 0x0C2 = timeNs s / 2 ^ 32 % 2 ^ 32 ∧ s'.time = s.time ∧ s'.regs = s.regs) ∧
    (∀ p a v, p < 2 → a ∈ [0x240, 0x102, 0x103] → v < 2 ^ 32 → pathUp s p = true → ∃ s', exec (.w1cWrite p a v) s = .next s' ∧
      (∀ b, (reg s' a).testBit b = ((reg s a).testBit b && !v.testBit b)) ∧ ∀ b, b ≠ a → reg s' b = reg s b) ∧
    (∀ p n, p < 2 → n < 8 → pathUp s p = true → ∃ s', exec (.floatOpRead p n) s = .next s' ∧
      tabGet {} s'.floatLatch n = getFloat s n ∧ s'.floats = s.floats ∧ s'.out = s.out ++ [.value p (0x050 + 6 * n)
        ((getFloat s n).op + 256 * (getFloat s n).st + 65536 * (getFloat s n).result + 2 ^ 24 * (getFloat s n).seq)]) ∧
    (∀ p, p < 2 → pathUp s p = true → ∃ s', exec (.sumpRecRead p) s = .next s' ∧
      s'.sump.latched = tabGet {} s.sump.slots (reg s 0x301 % 64) ∧ s'.sump.intake = s.sump.intake ∧ s'.regs = s.regs) ∧
    (∀ n, n < 64 → pathUp s 1 = true →
      exec (.rcRead 2 (16 * n + 7)) s = .next { s with out := s.out ++ [.value 2 (16 * n + 7) (getQp s n).sqHead] }) ∧
    (∀ a, a < 2 ^ 20 → pathUp s 1 = true → ∃ s', exec (.rcRead 7 a) s = .next s' ∧ s'.out = s.out ++ [.unsupported 7 a] ∧
      s'.regs = s.regs) ∧
    (∀ v, v < 2 ^ 32 → ∃ s', exec (.evtMaskWrite v) s = .next s' ∧ reg s' 0x241 = v % 2 ^ 14 ∧ reg s' 0x240 = reg s 0x240)

/-- R476, R477, R486, R487, R358: The sump takes the oldest record of its intake into the slot of its sequence number, with the time, and
SUMP_WR and SUMP_NEW follow; a telemetry snapshot fills the buffer that is not the newest, which then is, under the next number. -/
def Obligations.SumpAndTelemetryRecord : Prop :=
  ∀ s,
    (∀ r rest, s.sump.intake = r :: rest → ∃ s', exec .sumpIntake s = .next s' ∧ s'.sump.intake = rest ∧
      reg s' 0x300 = (reg s 0x300 + 1) % 2 ^ 32 ∧ regBit s' 0x240 0 = true ∧
      tabGet {} s'.sump.slots (reg s 0x300 % 64) =
        { time := s.time.time, kind := r.kind, index := r.index, code := r.code, seq := reg s 0x300, ctx := r.ctx } ∧
      ∀ k, k ≠ reg s 0x300 % 64 → tabGet {} s'.sump.slots k = tabGet {} s.sump.slots k) ∧
    (supervisor s = true → ∃ s', exec .telemSnapshot s = .next s' ∧ s'.telem.newest = 1 - s.telem.newest % 2 ∧
      reg s' 0x244 = (reg s 0x244 + 1) % 2 ^ 32 ∧
      (tabGet [] s'.telem.bufs s'.telem.newest).head? = some ((reg s 0x244 + 1) % 2 ^ 32) ∧
      (tabGet [] s'.telem.bufs s'.telem.newest).length = 72 ∧
      tabGet [] s'.telem.bufs (s.telem.newest % 2) = tabGet [] s.telem.bufs (s.telem.newest % 2))

/-- R531 to R534, Tables 17.4, 17.5: WIN_TABLE selects a table open to its path at index 0; a read of WIN_DATA answers the word at the index and
moves on, wrapping after the last; a write of a table that takes writes stores its four bytes and moves on; a write to one that does not
only moves on and sets IGNORED. -/
def Obligations.WindowSelectsReadsAndWritesTables : Prop :=
  ∀ s p, p < 2 →
    (∀ v, v < 2 ^ 32 → tableLen (v % 256) ≠ 0 → (p = 0 ∨ v % 256 ≤ 3) → bits v 22 16 < stationsEnabled s →
      ∃ s', exec (.winTableWrite p v) s = .next s' ∧ { s' with wins := s.wins } = s ∧
        win s' p = { win s p with table := v % 256, station := bits v 22 16, index := 0, ignored := false, wrapped := false } ∧
        win s' (1 - p) = win s (1 - p)) ∧
    (∀ k, (win s p).table = 1 → (win s p).index = k → k < 80 → pathUp s p = true → s.gov.ps ≠ .p4 →
      ∃ s', exec (.winDataRead p) s = .next s' ∧ s'.out = s.out ++ [.value p 0x342 (leaveCost s k)] ∧
        (win s' p).index = (if k < 79 then k + 1 else 0) ∧ (k = 79 → (win s' p).wrapped = true)) ∧
    (∀ k v, p = 0 → (win s 0).table = 0x15 → (win s 0).index = k → k < 25 → v < 2 ^ 32 →
      ∃ s', exec (.winDataWrite 0 v) s = .next s' ∧ memRead s'.sec.resp (4 * k) 4 = leBytes 4 v ∧
        (win s' 0).index = (if k < 24 then k + 1 else 0) ∧
        ∀ a, (a < 4 * k ∨ 4 * k + 4 ≤ a) → tabGet 0 s'.sec.resp a = tabGet 0 s.sec.resp a) ∧
    (∀ v, (win s p).table = 1 → v < 2 ^ 32 → ∃ s', exec (.winDataWrite p v) s = .next s' ∧ { s' with wins := s.wins } = s ∧
      (win s' p).ignored = true)

/-- R489 to R492, R495, R498 to R500: A confirmed zeroize in service starts float 4, and once the machine stands still and the hub has its leave
it clears the cistern and the well, forgets the content key, and, where FULL, blows the kill fuse. A transition from BLANK to OPEN that is
not refused is in progress; it blows the staged owner key, then its check, then the state's fuses one at a time, and with the third it is
complete, at level D0; a transition while one runs is refused with BUSY. A slot is programmed once, in OPEN, and a revoked slot has no key;
SEC_SVN_ADVANCE raises the count to at most that of the running firmware and changes nothing else. -/
def Obligations.SecurityFusesAndZeroize : Prop :=
  ∀ s,
    (∀ v, v < 2 ^ 32 → v % 2 = 1 → v / 65536 = 0x4C43 → s.gov.ps ∈ [PState.p0, .p1, .p2] → s.sec.zero = none → s.sec.zpend = none →
      ∃ s', exec (.zeroize (some v)) s = .next s' ∧ s'.sec.zero.isSome ∧ (getFloat s' 4).op = 6 ∧ (getFloat s' 4).st = 1 ∧ s'.fuses = s.fuses) ∧
    (∀ z, s.sec.zero = some z → z.begun = true → supervisor s = true → s.boot.ctrlRun = false → s.gov.ps ≠ .p3 → s.disp.step = none →
      s.stns.all (fun p => unitQuiet p.2 && !p.2.inReset) = true → hubReady s (dies s * wellEnd) = true → s.sec.unlock = none →
      ∃ s', exec (.zeroize none) s = .next s' ∧ s'.cist = [] ∧ s'.well = [] ∧ s'.text.sram = [] ∧ s'.sec.zero = none ∧
        s'.sec.keyGone = true ∧ regBit s' Reg.evtStatus 12 = true ∧ (z.kind = 2 → s'.fuses.killed = true) ∧
        (z.kind = 1 → s'.fuses = s.fuses)) ∧
    (∀ v, v < 2 ^ 32 → v / 65536 = 0x4C43 → v % 4 = 1 → s.sec.lifecycle = 0 → s.sec.lcTo = none → s.gov.ps = .p0 → imgState s = 0 →
      s.sec.ownerStage.length = 32 →
      exec (.lcTransition (some v)) s = .next { s with sec := { s.sec with lcTo := some 1 } }) ∧
    (s.sec.lcTo = some 1 → s.sec.lifecycle = 0 → s.sec.zero = none → s.pins.pwrOk = true → ∃ s', exec (.lcTransition none) s = .next s' ∧
      (s.sec.keyStep = 0 → s.fuses.ownerKey = none → s'.sec = { s.sec with keyStep := 1 } ∧
        s'.fuses = { s.fuses with ownerKey := some ((List.range 32).map (fun i => tabGet 0 s.sec.ownerStage i)) }) ∧
      (s.sec.keyStep = 1 → s'.sec = { s.sec with keyStep := 2 } ∧ { s'.fuses with ownerCheck := s.fuses.ownerCheck } = s.fuses) ∧
      (s.sec.keyStep = 2 → s.fuses.openF < 2 → s'.sec = s.sec ∧ s'.fuses = { s.fuses with openF := s.fuses.openF + 1 }) ∧
      (s.sec.keyStep = 2 → s.fuses.openF = 2 → s.boot.ctrlWait = false → s'.sec.lifecycle = 1 ∧ s'.sec.lcTo = none ∧
        s'.fuses = { s.fuses with openF := 3 } ∧ reg s' Reg.dbgLevel = 0 ∧ reg s' Reg.lcStatus = 0)) ∧
    (∀ v, v < 2 ^ 32 → v / 65536 = 0x4C43 → s.sec.lcTo.isSome → ∃ s', exec (.lcTransition (some v)) s = .next s' ∧
      s'.sec.lifecycle = s.sec.lifecycle ∧ s'.sec.lcTo = s.sec.lcTo ∧ s'.fuses = s.fuses ∧ reg s' Reg.lcStatus = 1) ∧
    (∀ v k, v = 0x4C43 * 65536 + 0x100 + k → 1 ≤ k → k ≤ 4 → s.sec.lifecycle = 1 → s.fuses.slots.any (fun p => p.1 == k) = false →
      ∃ s', exec (.slotProgram v) s = .next s' ∧ (k, (List.range 96).map (fun i => tabGet 0 s.sec.slotStage i)) ∈ s'.fuses.slots ∧
        s'.fuses.revoked = s.fuses.revoked ∧ reg s' Reg.lcStatus = 0) ∧
    (∀ v k, v = 0x4C43 * 65536 + 0x200 + k → 1 ≤ k → k ≤ 5 → s.sec.lifecycle ∈ [1, 2] → ∃ s', exec (.slotRevoke v) s = .next s' ∧
      slotKey s' k = none ∧ s'.fuses.slots = s.fuses.slots ∧ reg s' Reg.lcStatus = 0) ∧
    (∀ v, v < 2 ^ 32 → exec (.svnAdvance v) s = .next { s with fuses := { s.fuses with
      svn := max s.fuses.svn (min (min (v % 128) (bits (reg s Reg.idFwVer) 31 24)) 64) } })

/-- R494, R497, R506 to R509: The entropy source's failure clears its flag and its passing sets it and reseeds; an attestation leaves the host's
32 bytes and puts the lifecycle, debug level and SVN where Table 16.5 has them; in OPEN level D1 is granted at once and in SEALED a
challenge for it is issued; a lower level is taken at once; a response that verifies grants the level, one that does not is counted; a
response with no challenge, and an expired challenge, read EXPIRED, and any response after eight failures in a row reads LOCKED. -/
def Obligations.EntropyAttestationAndUnlock : Prop :=
  ∀ s,
    (∃ s', exec .entropyHealthFail s = .next s' ∧ s'.sec = { s.sec with entOk := false } ∧ regBit s' Reg.evtStatus 12 = true) ∧
    (s.sec.waits = [] → ∃ s', exec .entropyStartupPass s = .next s' ∧ s'.sec = { s.sec with entOk := true, drbg := 0 }) ∧
    (s.sec.waits = [] → s.sec.entOk = true → ∃ s', exec .drbgReseed s = .next s' ∧ s'.sec = { s.sec with drbg := 0 }) ∧
    (∀ v, v < 2 ^ 32 → v % 2 = 1 → s.sec.waits = [] → s.sec.drbg < 2 ^ 20 → s.sec.devId.length = 16 → s.sec.lifecycle < 4 →
      ∃ s', exec (.attest v) s = .next s' ∧ (∀ a, a < 32 → tabGet 0 s'.sec.attest a = tabGet 0 s.sec.attest a) ∧
        (imgReady s = false → (tabGet 0 s'.sec.attest 64).toNat = s.sec.lifecycle ∧
          (tabGet 0 s'.sec.attest 65).toNat = reg s Reg.dbgLevel % 4) ∧ s'.sec.drbg = s.sec.drbg + 1) ∧
    (∀ j v, v = 1 → s.gov.ps ≠ .p4 → s.sec.fails < 8 → reg s Reg.dbgLevel % 4 = 0 →
      (s.sec.lifecycle = 1 → ∃ s', exec (.dbgReqWrite j v) s = .next s' ∧ reg s' Reg.dbgLevel = 1 + 4 * b2n j ∧
        reg s' Reg.dbgStatus % 16 = 4) ∧
      (s.sec.lifecycle = 2 → s.sec.drbg < 2 ^ 20 → ∃ s' c, exec (.dbgReqWrite j v) s = .next s' ∧ s'.sec.chal = some c ∧
        c.level = 1 ∧ c.bytes.length = 64 ∧ reg s' Reg.dbgLevel = reg s Reg.dbgLevel ∧ reg s' Reg.dbgStatus % 16 = 1)) ∧
    (∀ j, reg s Reg.dbgLevel % 4 ∈ [1, 2] → ∃ s', exec (.dbgReqWrite j 0) s = .next s' ∧ reg s' Reg.dbgLevel % 4 = 0 ∧
      s'.sec.chal = none ∧ reg s' Reg.dbgStatus % 16 = 0) ∧
    (∀ j, s.sec.chal = none → s.sec.fails < 8 → ∃ s', exec (.dbgResponse j 0x100) s = .next s' ∧ reg s' Reg.dbgStatus % 16 = 6 ∧
      reg s' Reg.dbgLevel = reg s Reg.dbgLevel) ∧
    (∀ j, 8 ≤ s.sec.fails → ∃ s', exec (.dbgResponse j 0x100) s = .next s' ∧ reg s' Reg.dbgStatus % 16 = 7 ∧ s'.sec = s.sec ∧
      reg s' Reg.dbgLevel = reg s Reg.dbgLevel) ∧
    (∀ j c pub, s.sec.chal = some c → c.level = 1 → s.sec.lifecycle = 2 → s.sec.fails < 7 →
      leNat ((stageBytes s.sec.resp 100).take 2) = 4 → slotKey s 4 = some pub →
      ∃ s', exec (.dbgResponse j 0x100) s = .next s' ∧
        (ecdsaVerify pub (sha384 c.bytes) (((stageBytes s.sec.resp 100).drop 4).take 96) = true →
          reg s' Reg.dbgLevel % 4 = 1 ∧ s'.sec.fails = 0 ∧ s'.sec.chal = none) ∧
        (ecdsaVerify pub (sha384 c.bytes) (((stageBytes s.sec.resp 100).drop 4).take 96) = false →
          reg s' Reg.dbgLevel = reg s Reg.dbgLevel ∧ s'.sec.fails = s.sec.fails + 1)) ∧
    (s.sec.chal.isSome → ∃ s', exec .challengeExpire s = .next s' ∧ s'.sec = { s.sec with chal := none } ∧
      reg s' Reg.dbgStatus % 16 = 6)

namespace Sys2Proof.Stated

/-- The debug commands that act on a station, with their OP and the level they need (Table 16.8). -/
def debugOps : List ((Nat → Instr) × Nat × Nat) :=
  [(.readThread, 0x01, 1), (.readEvents, 0x02, 1), (.readPump, 0x03, 1), (.halt, 0x10, 2), (.dbgResume, 0x11, 2), (.dbgStep, 0x12, 2),
   (.brkArm, 0x13, 2), (.brkDisarm, 0x14, 2), (.readScalar, 0x15, 2), (.writeScalar, 0x16, 2), (.readTile, 0x17, 2),
   (.writeTile, 0x20, 3), (.readMem, 0x21, 3), (.writeMem, 0x22, 3)]

/-- A debug command word of an OP for thread `t` of logical station `ls` finds no command running, its level in force, its station
there and powered (R502, Table 16.13); `u` is the unit on the station. -/
structure Debugs (s : State) (op level w ls t u : Nat) : Prop where
  word : w = op + 256 * ls + 65536 * t
  ranges : ls < 128 ∧ t < 4
  idle : reg s Reg.dbgCmdStatus ≠ 1 ∧ s.dbg.run = none
  level : level ≤ reg s Reg.dbgLevel % 4
  station : ls < stationsEnabled s ∧ residentUnit s ls = u
  power : s.gov.ps = .p0 ∨ s.gov.ps = .p1

/-- The command ended OK. -/
def Ok (s' : State) : Prop := reg s' Reg.dbgCmdStatus = 0

end Sys2Proof.Stated

/-- R501 to R503, Table 16.13: A debug command below its level ends with DENIED and touches nothing but the command registers, and one for a
station that does not exist, at its level, ends with BAD_ARG. -/
def Obligations.DebugCommandsNeedTheirLevelAndStation : Prop :=
  ∀ c op l, (c, op, l) ∈ debugOps → ∀ s w, w < 2 ^ 20 → w % 256 = op → reg s Reg.dbgCmdStatus ≠ 1 →
    (reg s Reg.dbgLevel % 4 < l → ∃ s', exec (c w) s = .next s' ∧ reg s' Reg.dbgCmdStatus = 2 ∧ { s' with regs := s.regs } = s ∧
      ∀ a, a ∉ [Reg.dbgCmd, Reg.dbgCmdStatus] → reg s' a = reg s a) ∧
    (l ≤ reg s Reg.dbgLevel % 4 → stationsEnabled s ≤ bits w 14 8 → ∃ s', exec (c w) s = .next s' ∧
      reg s' Reg.dbgCmdStatus = 5 ∧ { s' with regs := s.regs } = s)

/-- R501, R503 to R505: The debug commands' effects on their station: the reads put a thread's state, event counters, pump status, a scalar
register, or a cistern word into DBG_DATA and change no station; HALT asks the station to park and is done once it stands still; RESUME,
STEP, the breakpoint and the writes do what they name, where the thread is parked or the station halted. -/
def Obligations.DebugCommandsObserveAndControlTheStation : Prop :=
  ∀ s ls t u,
    (∀ w, Debugs s 0x01 1 w ls t u → ∃ s', exec (.readThread w) s = .next s' ∧ Ok s' ∧ { s' with regs := s.regs } = s ∧
      reg s' Reg.dbgData = stCode (thr (stn s u) t).st ∧
      ((thr (stn s u) t).st ≠ .wait → (thr (stn s u) t).pc < 2 ^ 32 → reg s' (Reg.dbgData + 1) = (thr (stn s u) t).pc) ∧
      (∀ i, (thr (stn s u) t).st = .wait → front (stn s u) t = some i → i.pc < 2 ^ 32 → reg s' (Reg.dbgData + 1) = i.pc)) ∧
    (∀ w k, Debugs s 0x02 1 w ls t u → reg64 s Reg.dbgAddrLo = 0 → k < 16 → ∃ s', exec (.readEvents w) s = .next s' ∧ Ok s' ∧
      { s' with regs := s.regs } = s ∧ reg s' (Reg.dbgData + k) = (evGet (stn s u) k).toNat) ∧
    (∀ w, Debugs s 0x03 1 w ls t u → ∃ s', exec (.readPump w) s = .next s' ∧ Ok s' ∧ { s' with regs := s.regs } = s ∧
      reg s' Reg.dbgData = (getChan (stn s u) t).last % 2 ^ 32) ∧
    (∀ w, Debugs s 0x10 2 w ls t u → ∃ s' r, exec (.halt w) s = .next s' ∧ reg s' Reg.dbgCmdStatus = 1 ∧ OnlyUnit u { s with regs := s'.regs, dbg := s'.dbg } s' ∧
      (stn s' u).parkReq = true ∧ s'.dbg.run = some r ∧ r.unit = u) ∧
    (∀ r, s.dbg.run = some r → r.op = 0x10 → isHalted (stn s r.unit) = true → ∃ s', exec .haltDone s = .next s' ∧ Ok s' ∧
      s'.dbg.run = none ∧ s'.stns = s.stns) ∧
    (∀ w, Debugs s 0x11 2 w ls t u → ∃ s', exec (.dbgResume w) s = .next s' ∧ Ok s' ∧ (stn s' u).parkReq = false ∧
      (stn s' u).haltWas = [] ∧ ∀ k, k < 4 → thr (stn s' u) k = if k ∈ (stn s u).haltWas ∧ (thr (stn s u) k).st = .parked
        then { thr (stn s u) k with st := .run } else thr (stn s u) k) ∧
    (∀ w, Debugs s 0x12 2 w ls t u → (thr (stn s u) t).st = .parked → ∃ s', exec (.dbgStep w) s = .next s' ∧
      reg s' Reg.dbgCmdStatus = 1 ∧ thr (stn s' u) t = { thr (stn s u) t with st := .run } ∧ (stn s' u).stepThread = some t ∧
      (stn s' u).parkReq = false) ∧
    (∀ w, Debugs s 0x13 2 w ls t u → ∃ s', exec (.brkArm w) s = .next s' ∧ Ok s' ∧ stn s' u = { stn s u with brkArmed := true }) ∧
    (∀ w, Debugs s 0x14 2 w ls t u → ∃ s', exec (.brkDisarm w) s = .next s' ∧ Ok s' ∧ stn s' u = { stn s u with brkArmed := false }) ∧
    (∀ w r, Debugs s 0x15 2 w ls t u → reg64 s Reg.dbgAddrLo = r → r < 32 → (thr (stn s u) t).st = .parked →
      ∃ s', exec (.readScalar w) s = .next s' ∧ Ok s' ∧ { s' with regs := s.regs } = s ∧
        reg s' Reg.dbgData = (sread (thr (stn s u) t) r).toNat) ∧
    (∀ w r, Debugs s 0x16 2 w ls t u → reg64 s Reg.dbgAddrLo = r → r < 32 → (thr (stn s u) t).st = .parked →
      ∃ s' h, exec (.writeScalar w) s = .next s' ∧ Ok s' ∧ stn s' u = setThr (stn s u) t h ∧
        WritesReg r (BitVec.ofNat 32 (reg s Reg.dbgData)) (thr (stn s u) t) h) ∧
    (∀ w a, Debugs s 0x17 2 w ls t u → reg64 s Reg.dbgAddrLo = a → a % 64 = 0 → a < 262144 → isHalted (stn s u) = true →
      (stn s u).trfErr = [] → (stn s u).trfFree = [] → ∃ s', exec (.readTile w) s = .next s' ∧ Ok s' ∧ { s' with regs := s.regs } = s ∧
        reg s' Reg.dbgData = leNat ((List.range 4).map (fun k => tabGet 0 (stn s u).trf (a + k)))) ∧
    (∀ w a, Debugs s 0x20 3 w ls t u → reg64 s Reg.dbgAddrLo = a → a % 64 = 0 → a < 262144 → isHalted (stn s u) = true →
      ∃ s', exec (.writeTile w) s = .next s' ∧ Ok s' ∧ s'.cist = s.cist ∧
        leNat ((List.range 4).map (fun k => tabGet 0 (stn s' u).trf (a + k))) = reg s Reg.dbgData) ∧
    (∀ w a, Debugs s 0x21 3 w ls t u → reg64 s Reg.dbgAddrLo = a → a + 64 ≤ cistEnd → s.cistErr = [] →
      ∃ s', exec (.readMem w) s = .next s' ∧ Ok s' ∧ { s' with regs := s.regs } = s ∧
        reg s' Reg.dbgData = leNat ((List.range 4).map (fun k => cistByte s (gaddr u a + k)))) ∧
    (∀ w a, Debugs s 0x22 3 w ls t u → reg64 s Reg.dbgAddrLo = a → a + 64 ≤ cistEnd → s.cistErr = [] →
      ∃ s', exec (.writeMem w) s = .next s' ∧ Ok s' ∧ s'.stns = s.stns ∧ s'.well = s.well ∧
        leNat ((List.range 4).map (fun k => cistByte s' (gaddr u a + k))) = reg s Reg.dbgData ∧
        ∀ g, (g < gaddr u a ∨ gaddr u a + 64 ≤ g) → cistByte s' g = cistByte s g)

/-- R510, R511, R599: With PWR_OK high the TAP selects IDCODE and BYPASS, whose registers it shifts out, SAMPLE/PRELOAD (with its bits), DBG_ACCESS
(through which DBG_ registers are written), and SCAN at D3 only; EXTEST and its kin are accepted at D3, or with no image placed, and put the outputs under the boundary
register; elsewhere they select BYPASS and change nothing else. -/
def Obligations.TapSelectsItsInstructions : Prop :=
  ∀ s, s.pins.pwrOk = true →
    (exec .idcode s = .next { s with tap := { s.tap with ir := 0x01 }, out := s.out ++ [.tdo 32 (s.part.stepping * 2 ^ 28 +
      (match s.part.variant with | 0 => 0x5434 | 1 => 0x544E | _ => 0x5432) * 2 ^ 12 + 0x5B3)] }) ∧
    (exec .bypass s = .next { s with tap := { s.tap with ir := 0xFF }, out := s.out ++ [.tdo 1 0] }) ∧
    (exec .testLogicReset s = .next { s with tap := { s.tap with ir := 0x01 } }) ∧
    (∀ bs, exec (.samplePreload bs) s = .next { s with tap := { s.tap with ir := 0x02, boundary := bs } }) ∧
    (exec .scan s = .next { s with tap := { s.tap with ir := if reg s Reg.dbgLevel % 4 = 3 then 0x20 else 0xFF } }) ∧
    (exec (.dbgAccess none) s = .next { s with tap := { s.tap with ir := 0x10 } }) ∧
    (∀ v, v < 2 ^ 32 → s.boot.mapReady = true → s.pins.refLost = false → s.gov.ps ≠ .p4 →
      ∃ s', exec (.dbgAccess (some (0x2C5, some v))) s = .next s' ∧ reg s' 0x2C5 = v ∧ s'.tap.ir = 0x10) ∧
    (∀ c ir, (c, ir) ∈ [(Instr.extest, 0x03), (.extestPulse, 0x04), (.extestTrain, 0x05), (.clamp, 0x06), (.highz, 0x07)] →
      ((reg s Reg.dbgLevel % 4 = 3 ∨ imgState s = 0 ∨ imgState s = 4) →
        ∃ s', exec c s = .next s' ∧ s'.tap.ir = ir ∧ s'.tap.scan = true ∧
          (s.tap.scan = false → reg s' Reg.hostLink = 0 ∧ s'.paired = false)) ∧
      (reg s Reg.dbgLevel % 4 ≠ 3 → imgState s ≠ 0 → imgState s ≠ 4 →
        exec c s = .next { s with tap := { s.tap with ir := 0xFF } }))

/-- R516 to R530: A frame whose CRC is wrong writes nothing and is counted in PORT_CRC; a WRITE frame of one word to a clamped register stores
it and answers status 0x80; a READ frame of one word answers status, the word most significant byte first, and the CRC-8 of them; a frame
that is abandoned is counted in PORT_BAD. -/
def Obligations.ControlPortFramesAnswerTheirStatus : Prop :=
  ∀ s, s.pins.pwrOk = true → s.pins.refLost = false → s.boot.mapReady = true → s.gov.ps ≠ .p4 → s.tap.scan = false →
    (∀ c a1 a0 v3 v2 v1 v0 k, c = (0x40 : Byte) →
      (k ≠ BitVec.ofNat 8 (crc8 [c, a1, a0, v3, v2, v1, v0]) → reg s Reg.portCrc < 2 ^ 32 - 1 →
        ∃ s', exec (.cpWriteFrame [c, a1, a0, v3, v2, v1, v0, k]) s = .next s' ∧ s'.pins.miso = [0x81] ∧
          reg s' Reg.portCrc = reg s Reg.portCrc + 1 ∧ ∀ b, b ≠ Reg.portCrc → reg s' b = reg s b) ∧
      (∀ a lo hi, k = BitVec.ofNat 8 (crc8 [c, a1, a0, v3, v2, v1, v0]) → (a, lo, hi) ∈ clampedRegs → a1.toNat * 256 + a0.toNat = a →
        ∃ s', exec (.cpWriteFrame [c, a1, a0, v3, v2, v1, v0, k]) s = .next s' ∧ s'.pins.miso = [0x80] ∧
          reg s' a = min (max lo (leNat [v0, v1, v2, v3])) hi ∧ ∀ b, b ≠ a → reg s' b = reg s b)) ∧
    (∀ a lo hi a1 a0 k, (a, lo, hi) ∈ clampedRegs → a1.toNat * 256 + a0.toNat = a → k = BitVec.ofNat 8 (crc8 [0x80, a1, a0]) →
      ∃ s' b3 b2 b1 b0, exec (.cpReadFrame [0x80, a1, a0, k]) s = .next s' ∧ leNat [b0, b1, b2, b3] = reg s a ∧
        s'.pins.miso = [0x80, b3, b2, b1, b0, BitVec.ofNat 8 (crc8 [0x80, b3, b2, b1, b0])] ∧ s'.regs = s.regs) ∧
    (∀ b, reg s Reg.portBad < 2 ^ 32 - 1 → ∃ s', exec (.cpFrameAbandon [b]) s = .next s' ∧ s'.pins.miso = [] ∧
      reg s' Reg.portBad = reg s Reg.portBad + 1 ∧ ∀ r, r ≠ Reg.portBad → reg s' r = reg s r)

/-- R565 to R570, R489, R495: Stage ROM makes the register map ready, with the lifecycle that its fuses give, and goes to FLASH or FW_WAIT;
FLASH reads a copy for FW_AUTH; firmware that passes its checks goes to LINK_TRAIN and one that fails does not; the links, the memory and
the tests passed, the part is in READY in P0 Run; what fails ends the boot in FAILED with its code; GO in FW_WAIT takes the staged firmware. -/
def Obligations.BootStagesFollowEachOther : Prop :=
  ∀ s,
    (s.pins.pwrOk = true → s.pins.refLost = false → stage s = 0 → s.boot.mapReady = false → s.boot.fullZero = false →
      regBit s Reg.bootCtl 1 = false → ∃ s', exec .bootRom s = .next s' ∧ stage s' = 1 ∧ s'.boot.mapReady = true ∧ s'.fuses = s.fuses ∧
        (s.fuses.retiredF < 2 → s.fuses.sealedF < 2 → s.fuses.openF < 2 → s'.sec.lifecycle = 0) ∧
        (2 ≤ s.fuses.retiredF → s'.sec.lifecycle = 3)) ∧
    (∀ bs, bs.length ≤ 4194304 → s.boot.mapReady = true → stage s = 1 → s.boot.tryB = false → s.tap.scan = false →
      ∃ s', exec (.bootFlash bs) s = .next s' ∧ stage s' = 3 ∧ s'.boot.fw = some (1, bs)) ∧
    (∀ src bs, s.boot.fw = some (src, bs) → stage s = 3 → s.tap.scan = false → ∃ s', exec .fwAuth s = .next s' ∧ s'.boot.fw = none ∧
      (fwCheck s src bs = 0 → stage s' = 4) ∧
      (fwCheck s src bs ≠ 0 → (src = 1 → stage s' = 1 ∧ s'.boot.tryB = true) ∧ (src ≠ 1 → stage s' = 2) ∧
        bits (reg s' Reg.bootStatus) 15 8 = fwCheck s src bs)) ∧
    (stage s = 4 → s.tap.scan = false → (s.boot.ctrlBoot = false → ∃ s', exec (.bootLinkTrain 0) s = .next s' ∧ stage s' = 5 ∧
        ∀ l, l ∈ dieLinks s → linkUp s' l = true) ∧
      (∃ s', exec (.bootLinkTrain 0x11) s = .next s' ∧ stage s' = 8 ∧ bits (reg s' Reg.bootStatus) 15 8 = 0x11)) ∧
    (stage s = 5 → s.tap.scan = false → (∃ s', exec (.memTrain []) s = .next s' ∧ stage s' = 6 ∧ bits (reg s' Reg.mapSummary) 11 8 = stackCount s ∧
        (getFloat s' 1).st = 2) ∧
      (∃ s', exec (.memTrain [(0, 0), (0, 1)]) s = .next s' ∧ stage s' = 8 ∧ bits (reg s' Reg.bootStatus) 15 8 = 0x12)) ∧
    (stage s = 6 → s.tap.scan = false → (∀ d, d < dies s → 30 ≤ dieCount s d) →
      (∃ s', exec (.selfTest [] [] false) s = .next s' ∧ stage s' = 7 ∧ s'.gov.ps = .p0 ∧ (getFloat s' 2).st = 2) ∧
      (∃ s', exec (.selfTest [] [] true) s = .next s' ∧ stage s' = 8 ∧ bits (reg s' Reg.bootStatus) 15 8 = 0x14)) ∧
    (s.boot.mapReady = true → stage s = 2 → ∃ s', exec (.bootGo 1) s = .next s' ∧ stage s' = 3 ∧
      s'.boot.fw = some (3, memRead s.boot.stage 0 (reg s Reg.bootFwLen)))

/-- R377, R558, R561 to R564, R571, R572, R600: A function level reset and a warm reset end every session and return the queue pairs to their
reset state, the warm one taking the host link down; so does a control reset, which leaves no priming due; the host's reset
of a station, once confirmed and allowed, starts it; PERST_N high, the link trains to its rate and width. -/
def Obligations.ResetsClearWhatTheyName : Prop :=
  ∀ s,
    (regBit s Reg.hostLink 12 = true → s.gov.ps ≠ .p4 → ∃ s', exec .flr s = .next s' ∧ s'.sess = [] ∧ s'.qps = [] ∧ s'.msix = {} ∧
      s'.disp.step = none ∧ s'.fuses = s.fuses ∧ regBit s' Reg.hostLink 13 = false) ∧
    (s.pins.pwrOk = true → s.boot.mapReady = true → s.gov.ps ≠ .p4 → ∃ s', exec .warmReset s = .next s' ∧ s'.sess = [] ∧ s'.qps = [] ∧
      s'.pins.perstLow = true ∧ reg s' Reg.hostLink = 0 ∧ reg s' Reg.dispCtl = 1 ∧ s'.fuses = s.fuses ∧ s'.tap.scan = false) ∧
    (∀ v, v = 0x4C43 * 65536 + 0x100 → s.boot.mapReady = true → stage s = 7 → s.boot.ctrlRun = false → s.gov.ps = .p0 →
      s.sec.lcTo = none → ∃ s', exec (.ctrlReset v) s = .next s' ∧ s'.sess = [] ∧ s'.qps = [] ∧ s'.disp.prime = .none ∧
        s'.fuses = s.fuses) ∧
    (∀ v ls, v = 0x4C43 * 65536 + ls → ls < 128 → s.boot.mapReady = true → ls < stationsEnabled s → anyReset s = false →
      regBit s Reg.dispCtl 0 = false → s.disp.step = none → stage s = 7 → s.boot.ctrlRun = false → s.boot.stnWait = false →
      ∃ s', exec (.mapStnReset v) s = .next s' ∧ regBit s' Reg.mapStatus 1 = false ∧
        ∀ u, u ∈ unitsOf s ls → (stn s' u).inReset = true) ∧
    (∀ r w, 1 ≤ r → r ≤ 5 → w ∈ [1, 2, 4, 8, 16] → s.boot.mapReady = true → s.pins.pwrOk = true → s.pins.refLost = false →
      s.gov.ps ≠ .p4 → s.tap.scan = false → regBit s Reg.hostLink 12 = false →
      ∃ s', exec (.pcieLinkTrain r w) s = .next s' ∧ s'.pins.perstLow = false ∧ reg s' Reg.hostLink = r + 16 * w + 4096)

/-- The command at the front of the queue is what a step runs, with the queue's rest; with no command waiting a step is one cycle of CCLK, which
counts where the part has power and a clock (the model's choice, log entry 11); no word spells a command (log entry 2). -/
def Obligations.StepRunsTheFrontCommand : Prop :=
  (∀ c s rest, s.pending = c :: rest → step s = exec c { s with pending := rest }) ∧
  (∀ s, s.pending = [] → s.pins.pwrOk = true → s.pins.refLost = false → s.gov.ps ≠ .p4 →
    ∃ s', step s = .next s' ∧ s'.cyc = s.cyc + 1 ∧ s'.regs = s.regs ∧ s'.cist = s.cist ∧ s'.well = s.well ∧ s'.pending = []) ∧
  (∀ nbits w (s : State), decodeTableWord nbits w = none ∧ s.withFetchWord nbits w = s)

/-- R22, Tables 03.10, 05.7, 11.8, 12.12, 14.7, 15.3, 15.12: The registers for which the manual gives a reset value other than 0 hold it after
reset, and those of the counters, events and sump hold 0; no session, queue pair or image stands, time is 0, no station has run, nothing
waits, and the byte RAMs are in their canonical form. -/
def Obligations.ResetGivesTheManualsValues : Prop :=
  (∀ a v, (a, v) ∈ [(0x048, 1), (0x082, 280), (0x089, 2), (0x093, 95), (0x0C7, 100), (0x0C8, 10), (0x140, 1), (0x147, 200), (0x180, 200),
    (0x201, 16), (0x241, 0x31FE), (0x243, 100), (0x245, 65536)] → reg State.reset a = v) ∧
  (∀ a, a ∈ rcWords ++ [0x240, 0x300, 0x2C0] → reg State.reset a = 0) ∧
  State.reset.sess = [] ∧ State.reset.qps = [] ∧ State.reset.ldr.image = none ∧ State.reset.time.time = 0 ∧
  State.reset.time.servo = .free ∧ State.reset.stns = [] ∧ State.reset.pending = [] ∧ State.reset.sump.intake = [] ∧
  (thr (stn State.reset 0) 0).st = .parked ∧ (thr (stn State.reset 0) 0).pc = 0 ∧ evGet (stn State.reset 0) 0 = 0 ∧
  memWf State.reset = true

/-- R110, R117: Every step keeps the byte RAMs of the part in their canonical form: addresses rising, and no byte listed that reads as an
unlisted one (the form is the model's; that no command can break it is what is stated). -/
def Obligations.EveryStepKeepsMemoryCanonical : Prop :=
  ∀ s s', memWf s = true → step s = .next s' → memWf s' = true

/-- R3, R4, R495, R491, R489: No step changes what the part is, and none unblows a fuse: the SVN does not fall, a revoked slot stays revoked,
the owner key's kill fuse stays blown, and the lifecycle fuses do not fall. -/
def Obligations.NoStepUnblowsAFuse : Prop :=
  ∀ s s', step s = .next s' → s'.part = s.part ∧ s.fuses.svn ≤ s'.fuses.svn ∧
    (∀ k, s.fuses.revoked.testBit k = true → s'.fuses.revoked.testBit k = true) ∧
    (s.fuses.killed = true → s'.fuses.killed = true) ∧
    s.fuses.openF ≤ s'.fuses.openF ∧ s.fuses.sealedF ≤ s'.fuses.sealedF ∧ s.fuses.retiredF ≤ s'.fuses.retiredF ∧
    s'.fuses.dus = s.fuses.dus

namespace Sys2Proof.Stated

/-- The float element formats with their layouts (Table 02.2). -/
def floatFmts : List (Fmt × FSpec) :=
  [(.fp32, fp32Spec), (.bf16, bf16Spec), (.fp16, fp16Spec), (.e4m3, e4m3Spec), (.e5m2, e5m2Spec), (.mxfp8, e4m3Spec), (.mxfp4, e2m1Spec)]

end Sys2Proof.Stated

/-- R69, R51, R64: In every float format −0 converts to −0, and a negative value that rounds to zero gives −0; in every integer and grid format
−0 converts to the code of +0; and the value of every finite code of a float format converts back to that code. -/
def Obligations.FloatCodesKeepTheirValueAndSign : Prop :=
  (∀ f sp, (f, sp) ∈ floatFmts → ∀ z tab,
    (∀ d, 0 < d → (encElem f z tab none (.fin true 0 d)).code = 2 ^ (sp.w - 1)) ∧
    (∀ n d, 0 < d → (encElem f z tab none (.fin false n d)).code = 0 → (encElem f z tab none (.fin true n d)).code = 2 ^ (sp.w - 1)) ∧
    (∀ c, c < 2 ^ sp.w → (decFloat sp c).isFin = true → (encElem f z tab none (decFloat sp c)).code = c)) ∧
  (∀ f, f ∈ [Fmt.int32, .int16, .int8, .int4, .uint8, .u4, .n4, .mxint8, .rb8] → ∀ z tab d, 0 < d →
    (encElem f z tab none (.fin true 0 d)).code = (encElem f z tab none (.fin false 0 d)).code)
end

