-- ==== Sys2Proof/Laws/Tab.lean ====
section
/-! SUPPORT. Laws/Tab.lean: reading after writing a sparse table, and the canonical form that every write keeps. -/

namespace Sys2Proof.Machine

variable {α : Type} (d : α)

@[simp] theorem tabGet_nil (i : Nat) : tabGet d [] i = d := rfl

/-- Dropping the keys up to `i` leaves nothing at `i`, and every later key as it was. -/
theorem tabGet_tabDrop (t : Tab α) (i j : Nat) (h : i < j) : tabGet d (tabDrop t i) j = tabGet d t j := by
  induction t with
  | nil => rfl
  | cons p t ih =>
    obtain ⟨k, v⟩ := p
    by_cases hk : k ≤ i
    · have h1 : ¬ j = k := by omega
      have h2 : ¬ j < k := by omega
      simp [tabDrop, hk, ih, tabGet, h1, h2]
    · simp [tabDrop, hk]

theorem tabGet_tabDrop_le (t : Tab α) (i j : Nat) (h : j ≤ i) : tabGet d (tabDrop t i) j = d := by
  induction t with
  | nil => rfl
  | cons p t ih =>
    obtain ⟨k, v⟩ := p
    by_cases hk : k ≤ i
    · simp [tabDrop, hk, ih]
    · have h1 : ¬ j = k := by omega
      have h2 : j < k := by omega
      simp [tabDrop, hk, tabGet, h1, h2]

/-- A listed write is read back, and no other key changes. -/
theorem tabGet_tabPut (t : Tab α) (i j : Nat) (v : α) :
    tabGet d (tabPut t i v) j = if j = i then v else tabGet d t j := by
  induction t with
  | nil =>
    by_cases h : j = i
    · simp [tabPut, tabGet, h]
    · simp [tabPut, tabGet, h]
  | cons p t ih =>
    obtain ⟨k, w⟩ := p
    by_cases h1 : i < k
    · by_cases h : j = i
      · simp [tabPut, h1, tabGet, h]
      · by_cases h3 : j < i
        · have h4 : j < k := by omega
          have h5 : ¬ j = k := by omega
          simp [tabPut, h1, tabGet, h, h3, h4, h5]
        · simp [tabPut, h1, tabGet, h, h3]
    · by_cases h2 : i = k
      · subst h2
        by_cases h : j = i <;> simp [tabPut, tabGet, h]
      · by_cases h : j = k
        · have h6 : ¬ k = i := by omega
          subst h; simp [tabPut, h1, h2, tabGet, h6]
        · by_cases h3 : j < k
          · have h4 : ¬ j = i := by omega
            simp [tabPut, h1, h2, tabGet, h, h3, h4]
          · simp [tabPut, h1, h2, tabGet, h, h3, ih]

@[simp] theorem tabGet_tabPut_self (t : Tab α) (i : Nat) (v : α) : tabGet d (tabPut t i v) i = v := by
  simp [tabGet_tabPut]

theorem tabGet_tabPut_ne (t : Tab α) (i j : Nat) (v : α) (h : j ≠ i) : tabGet d (tabPut t i v) j = tabGet d t j := by
  simp [tabGet_tabPut, h]

variable [DecidableEq α]

/-- A canonical write is read back, and no other key changes. -/
theorem tabGet_tabSet (t : Tab α) (i j : Nat) (v : α) :
    tabGet d (tabSet d t i v) j = if j = i then v else tabGet d t j := by
  induction t with
  | nil =>
    by_cases hv : v = d
    · by_cases h : j = i <;> simp [tabSet, hv, tabGet]
    · by_cases h : j = i <;> simp [tabSet, hv, tabGet, h]
  | cons p t ih =>
    obtain ⟨k, w⟩ := p
    by_cases h1 : i < k
    · by_cases hv : v = d
      · by_cases h : j = i
        · subst h
          have h5 : ¬ j = k := by omega
          simp [tabSet, h1, hv, tabGet, h5]
        · simp [tabSet, h1, hv, h]
      · by_cases h : j = i
        · simp [tabSet, h1, hv, tabGet, h]
        · by_cases h3 : j < i
          · have h4 : j < k := by omega
            have h5 : ¬ j = k := by omega
            simp [tabSet, h1, hv, tabGet, h, h3, h4, h5]
          · simp [tabSet, h1, hv, tabGet, h, h3]
    · by_cases h2 : i = k
      · subst h2
        by_cases hv : v = d
        · by_cases h : j ≤ i
          · by_cases h' : j = i
            · subst h'; simp [tabSet, hv, tabGet_tabDrop_le]
            · have h3 : j < i := by omega
              simp [tabSet, hv, tabGet_tabDrop_le d t i j h, tabGet, h', h3]
          · have h' : ¬ j = i := by omega
            have h3 : ¬ j < i := by omega
            simp [tabSet, hv, tabGet_tabDrop d t i j (by omega), tabGet, h', h3]
        · by_cases h : j = i <;> simp [tabSet, hv, tabGet, h]
      · by_cases h : j = k
        · subst h
          have h6 : ¬ j = i := by omega
          simp [tabSet, h1, h2, tabGet, h6]
        · by_cases h3 : j < k
          · have h4 : ¬ j = i := by omega
            simp [tabSet, h1, h2, tabGet, h, h3, h4]
          · simp [tabSet, h1, h2, tabGet, h, h3, ih]

@[simp] theorem tabGet_tabSet_self (t : Tab α) (i : Nat) (v : α) : tabGet d (tabSet d t i v) i = v := by
  simp [tabGet_tabSet]

theorem tabGet_tabSet_ne (t : Tab α) (i j : Nat) (v : α) (h : j ≠ i) : tabGet d (tabSet d t i v) j = tabGet d t j := by
  simp [tabGet_tabSet, h]

-- the canonical form

theorem tabWfFrom_le {lo lo' : Nat} (h : lo' ≤ lo) (t : Tab α) (w : tabWfFrom d lo t = true) : tabWfFrom d lo' t = true := by
  cases t with
  | nil => rfl
  | cons p t =>
    obtain ⟨k, v⟩ := p
    simp only [tabWfFrom, Bool.and_eq_true, decide_eq_true_eq] at w ⊢
    exact ⟨⟨by omega, w.1.2⟩, w.2⟩

theorem tabDrop_wf (lo i : Nat) (t : Tab α) (w : tabWfFrom d lo t = true) : tabWfFrom d lo (tabDrop t i) = true := by
  induction t generalizing lo with
  | nil => rfl
  | cons p t ih =>
    obtain ⟨k, v⟩ := p
    by_cases h : k ≤ i
    · simp only [tabDrop, h, if_true]
      simp only [tabWfFrom, Bool.and_eq_true, decide_eq_true_eq] at w
      exact tabWfFrom_le d (by omega) _ (ih (k + 1) w.2)
    · simpa [tabDrop, h] using w

/-- A canonical write keeps the canonical form. -/
theorem tabSet_wfFrom (lo i : Nat) (hi : lo ≤ i) (v : α) (t : Tab α) (w : tabWfFrom d lo t = true) :
    tabWfFrom d lo (tabSet d t i v) = true := by
  induction t generalizing lo with
  | nil =>
    by_cases hv : v = d <;> simp [tabSet, hv, tabWfFrom, hi]
  | cons p t ih =>
    obtain ⟨k, x⟩ := p
    have w' := w
    simp only [tabWfFrom, Bool.and_eq_true, decide_eq_true_eq] at w
    obtain ⟨⟨hk, hx⟩, ht⟩ := w
    by_cases h1 : i < k
    · by_cases hv : v = d
      · simpa [tabSet, h1, hv] using w'
      · simp [tabSet, h1, hv, tabWfFrom, hi, hx, ht]
    · by_cases h2 : i = k
      · subst h2
        by_cases hv : v = d
        · simp only [tabSet, lt_self_iff_false, if_false, hv, if_true]
          exact tabDrop_wf d lo i t (tabWfFrom_le d (by omega) t ht)
        · simp [tabSet, hv, tabWfFrom, hk, ht]
      · have := ih (k + 1) (by omega) ht
        simp [tabSet, h1, h2, tabWfFrom, hk, hx, this]

theorem tabSet_wf (t : Tab α) (i : Nat) (v : α) (w : tabWf d t = true) : tabWf d (tabSet d t i v) = true :=
  tabSet_wfFrom d 0 i (Nat.zero_le i) v t w

/-- Dropping entries keeps the canonical form. -/
theorem filter_wfFrom (lo : Nat) (f : Nat × α → Bool) (t : Tab α) (w : tabWfFrom d lo t = true) :
    tabWfFrom d lo (t.filter f) = true := by
  induction t generalizing lo with
  | nil => rfl
  | cons p t ih =>
    obtain ⟨k, v⟩ := p
    simp only [tabWfFrom, Bool.and_eq_true, decide_eq_true_eq] at w
    obtain ⟨⟨hk, hv⟩, ht⟩ := w
    by_cases h : f (k, v)
    · simp [h, tabWfFrom, hk, hv, ih _ ht]
    · simp [h]
      exact tabWfFrom_le d (by omega) _ (ih _ ht)

theorem filter_wf (f : Nat × α → Bool) (t : Tab α) (w : tabWf d t = true) : tabWf d (t.filter f) = true :=
  filter_wfFrom d 0 f t w

-- byte memories

/-- The entries of a run, before entries that hold nothing up to its end. -/
theorem tabGet_memRun (a : Nat) (bs : List Byte) (t : List (Nat × BitVec 8))
    (ht : ∀ j, j < a + bs.length → tabGet 0 t j = 0) (j : Nat) :
    tabGet 0 (memRun a bs t) j = if h : a ≤ j ∧ j - a < bs.length then bs[j - a]'h.2 else tabGet 0 t j := by
  induction bs generalizing a with
  | nil => simp [memRun]
  | cons b bs ih =>
    have ih' := ih (a + 1) (fun j hj => ht j (by simp only [List.length_cons]; omega))
    have key : (if h : a + 1 ≤ j ∧ j - (a + 1) < bs.length then bs[j - (a + 1)]'h.2 else tabGet 0 t j) =
        if j = a then 0 else if h : a ≤ j ∧ j - a < (b :: bs).length then (b :: bs)[j - a]'h.2 else tabGet 0 t j := by
      by_cases h0 : j = a
      · subst h0
        have : ¬ (j + 1 ≤ j ∧ j - (j + 1) < bs.length) := by omega
        rw [dif_neg this, if_pos rfl]
        exact ht j (by simp only [List.length_cons]; omega)
      · rw [if_neg h0]
        by_cases h1 : a + 1 ≤ j ∧ j - (a + 1) < bs.length
        · have h2 : a ≤ j ∧ j - a < (b :: bs).length := by simp only [List.length_cons]; omega
          have h3 : j - a = (j - (a + 1)) + 1 := by omega
          rw [dif_pos h1, dif_pos h2]
          simp [h3]
        · have h2 : ¬ (a ≤ j ∧ j - a < (b :: bs).length) := by simp only [List.length_cons]; omega
          rw [dif_neg h1, dif_neg h2]
    by_cases hb : b = 0
    · simp only [memRun, hb, if_true]
      rw [ih', key]
      by_cases h0 : j = a
      · subst h0; simp
      · simp [h0, hb]
    · simp only [memRun, hb, if_false, tabGet]
      by_cases h0 : j = a
      · subst h0; simp
      · rw [if_neg h0]
        by_cases h1 : j < a
        · have h2 : ¬ (a ≤ j ∧ j - a < (b :: bs).length) := by omega
          rw [if_pos h1, dif_neg h2]
          exact (ht j (by simp only [List.length_cons]; omega)).symm
        · rw [if_neg h1, ih', key, if_neg h0]

/-- A run of bytes written is read back there, and every other byte is as it was. -/
theorem tabGet_memWrite (m : List (Nat × BitVec 8)) (a : Nat) (bs : List Byte) (j : Nat) :
    tabGet 0 (memWrite m a bs) j = if h : a ≤ j ∧ j - a < bs.length then bs[j - a]'h.2 else tabGet 0 m j := by
  induction m with
  | nil => exact tabGet_memRun a bs [] (fun _ _ => rfl) j
  | cons p t ih =>
    obtain ⟨k, w⟩ := p
    by_cases hk : k < a
    · simp only [memWrite, hk, if_true, tabGet, ih]
      by_cases h1 : j = k
      · have h2 : ¬ (a ≤ j ∧ j - a < bs.length) := by omega
        rw [if_pos h1, dif_neg h2, if_pos h1]
      · by_cases h3 : j < k
        · have h2 : ¬ (a ≤ j ∧ j - a < bs.length) := by omega
          simp [h1, h3, h2]
        · simp [h1, h3]
    · cases bs with
      | nil => simp [memWrite, hk]
      | cons b r =>
        simp only [memWrite, hk, if_false]
        rw [tabGet_memRun]
        · by_cases h1 : a ≤ j ∧ j - a < (b :: r).length
          · rw [dif_pos h1, dif_pos h1]
          · rw [dif_neg h1, dif_neg h1]
            by_cases h2 : a + r.length < j
            · exact tabGet_tabDrop 0 _ _ _ h2
            · have h3 : j < a := by simp only [List.length_cons] at h1; omega
              have h4 : ¬ j = k := by omega
              have h5 : j < k := by omega
              rw [tabGet_tabDrop_le 0 _ _ _ (by omega)]
              simp [tabGet, h4, h5]
        · intro i hi
          exact tabGet_tabDrop_le 0 _ _ _ (by simp only [List.length_cons] at hi; omega)

theorem memRun_wf (lo a : Nat) (h : lo ≤ a) (bs : List Byte) (t : List (Nat × BitVec 8))
    (w : tabWfFrom 0 (a + bs.length) t = true) : tabWfFrom 0 lo (memRun a bs t) = true := by
  induction bs generalizing lo a with
  | nil => exact tabWfFrom_le 0 (by simpa using h) _ w
  | cons b bs ih =>
    have w' : tabWfFrom 0 (a + 1 + bs.length) t = true := by
      have e : a + (b :: bs).length = a + 1 + bs.length := by simp only [List.length_cons]; omega
      rw [← e]; exact w
    by_cases hb : b = 0
    · simp only [memRun, hb, if_true]
      exact ih lo (a + 1) (by omega) w'
    · simp only [memRun, hb, if_false, tabWfFrom, Bool.and_eq_true, decide_eq_true_eq]
      exact ⟨⟨h, hb⟩, ih (a + 1) (a + 1) (Nat.le_refl _) w'⟩

/-- Dropping the keys up to `i` leaves keys above it. -/
theorem tabDrop_wfFrom (lo i : Nat) (t : Tab α) (w : tabWfFrom d lo t = true) : tabWfFrom d (i + 1) (tabDrop t i) = true := by
  induction t generalizing lo with
  | nil => rfl
  | cons p t ih =>
    obtain ⟨k, v⟩ := p
    simp only [tabWfFrom, Bool.and_eq_true, decide_eq_true_eq] at w
    by_cases h : k ≤ i
    · simp only [tabDrop, h, if_true]
      exact ih (k + 1) w.2
    · simp only [tabDrop, h, if_false, tabWfFrom, Bool.and_eq_true, decide_eq_true_eq]
      exact ⟨⟨by omega, w.1.2⟩, w.2⟩

theorem memWrite_wfFrom (lo a : Nat) (h : lo ≤ a) (bs : List Byte) (m : List (Nat × BitVec 8)) (w : tabWfFrom 0 lo m = true) :
    tabWfFrom 0 lo (memWrite m a bs) = true := by
  induction m generalizing lo with
  | nil => exact memRun_wf lo a h bs [] rfl
  | cons p t ih =>
    obtain ⟨k, v⟩ := p
    by_cases hk : k < a
    · simp only [tabWfFrom, Bool.and_eq_true, decide_eq_true_eq] at w
      simp only [memWrite, hk, if_true, tabWfFrom, Bool.and_eq_true, decide_eq_true_eq]
      exact ⟨w.1, ih (k + 1) (by omega) w.2⟩
    · cases bs with
      | nil => simpa [memWrite, hk] using w
      | cons b r =>
        simp only [memWrite, hk, if_false]
        exact memRun_wf lo a h _ _ (tabDrop_wfFrom 0 lo (a + r.length) _ w)

theorem memWrite_wf (m : List (Nat × BitVec 8)) (a : Nat) (bs : List Byte) (w : tabWf 0 m = true) :
    tabWf 0 (memWrite m a bs) = true := memWrite_wfFrom 0 a (Nat.zero_le a) bs m w

theorem memClear_wf (m : List (Nat × BitVec 8)) (a n : Nat) (w : tabWf 0 m = true) : tabWf 0 (memClear m a n) = true :=
  filter_wf 0 _ m w

@[simp] theorem length_memRead (m : List (Nat × BitVec 8)) (a n : Nat) : (memRead m a n).length = n := by
  induction n generalizing a m with
  | zero => rfl
  | succ n ih => simp [memRead, ih]

/-- Reading a run gives the bytes at its addresses. -/
theorem getElem_memRead (m : List (Nat × BitVec 8)) (a n k : Nat) (h : k < (memRead m a n).length) :
    (memRead m a n)[k] = tabGet 0 m (a + k) := by
  induction n generalizing a k m with
  | zero => simp at h
  | succ n ih =>
    cases k with
    | zero => simp [memRead]
    | succ k =>
      simp only [memRead, List.getElem_cons_succ]
      rw [ih, tabGet_tabDrop 0 m a _ (by omega)]; congr 1; omega

end Sys2Proof.Machine
end

