-- ==== Sys2Proof/Laws/State.lean ====
section
/-! SUPPORT. Laws/State.lean: what each named update of one field of State leaves as it was, one lemma per field per
update, and what it writes, so that no proof unfolds a record update. -/

namespace Sys2Proof.Machine

-- setReg

@[simp] theorem setReg_part (s : State) (a v : Nat) : (setReg s a v).part = s.part := rfl
@[simp] theorem setReg_cyc (s : State) (a v : Nat) : (setReg s a v).cyc = s.cyc := rfl
@[simp] theorem setReg_free (s : State) (a v : Nat) : (setReg s a v).free = s.free := rfl
@[simp] theorem setReg_latch (s : State) (a v : Nat) : (setReg s a v).latch = s.latch := rfl
@[simp] theorem setReg_stns (s : State) (a v : Nat) : (setReg s a v).stns = s.stns := rfl
@[simp] theorem setReg_resident (s : State) (a v : Nat) : (setReg s a v).resident = s.resident := rfl
@[simp] theorem setReg_heldSig (s : State) (a v : Nat) : (setReg s a v).heldSig = s.heldSig := rfl
@[simp] theorem setReg_cist (s : State) (a v : Nat) : (setReg s a v).cist = s.cist := rfl
@[simp] theorem setReg_cistErr (s : State) (a v : Nat) : (setReg s a v).cistErr = s.cistErr := rfl
@[simp] theorem setReg_cistWb (s : State) (a v : Nat) : (setReg s a v).cistWb = s.cistWb := rfl
@[simp] theorem setReg_cistBad (s : State) (a v : Nat) : (setReg s a v).cistBad = s.cistBad := rfl
@[simp] theorem setReg_well (s : State) (a v : Nat) : (setReg s a v).well = s.well := rfl
@[simp] theorem setReg_wellErr (s : State) (a v : Nat) : (setReg s a v).wellErr = s.wellErr := rfl
@[simp] theorem setReg_reread (s : State) (a v : Nat) : (setReg s a v).reread = s.reread := rfl
@[simp] theorem setReg_wellBad (s : State) (a v : Nat) : (setReg s a v).wellBad = s.wellBad := rfl
@[simp] theorem setReg_scrubCist (s : State) (a v : Nat) : (setReg s a v).scrubCist = s.scrubCist := rfl
@[simp] theorem setReg_scrubWell (s : State) (a v : Nat) : (setReg s a v).scrubWell = s.scrubWell := rfl
@[simp] theorem setReg_hops (s : State) (a v : Nat) : (setReg s a v).hops = s.hops := rfl
@[simp] theorem setReg_arrivals (s : State) (a v : Nat) : (setReg s a v).arrivals = s.arrivals := rfl
@[simp] theorem setReg_dieUp (s : State) (a v : Nat) : (setReg s a v).dieUp = s.dieUp := rfl
@[simp] theorem setReg_ext (s : State) (a v : Nat) : (setReg s a v).ext = s.ext := rfl
@[simp] theorem setReg_credits (s : State) (a v : Nat) : (setReg s a v).credits = s.credits := rfl
@[simp] theorem setReg_gov (s : State) (a v : Nat) : (setReg s a v).gov = s.gov := rfl
@[simp] theorem setReg_time (s : State) (a v : Nat) : (setReg s a v).time = s.time := rfl
@[simp] theorem setReg_floats (s : State) (a v : Nat) : (setReg s a v).floats = s.floats := rfl
@[simp] theorem setReg_floatLatch (s : State) (a v : Nat) : (setReg s a v).floatLatch = s.floatLatch := rfl
@[simp] theorem setReg_sump (s : State) (a v : Nat) : (setReg s a v).sump = s.sump := rfl
@[simp] theorem setReg_msix (s : State) (a v : Nat) : (setReg s a v).msix = s.msix := rfl
@[simp] theorem setReg_paired (s : State) (a v : Nat) : (setReg s a v).paired = s.paired := rfl
@[simp] theorem setReg_held (s : State) (a v : Nat) : (setReg s a v).held = s.held := rfl
@[simp] theorem setReg_roleNow (s : State) (a v : Nat) : (setReg s a v).roleNow = s.roleNow := rfl
@[simp] theorem setReg_trainLinks (s : State) (a v : Nat) : (setReg s a v).trainLinks = s.trainLinks := rfl
@[simp] theorem setReg_orphans (s : State) (a v : Nat) : (setReg s a v).orphans = s.orphans := rfl
@[simp] theorem setReg_peerEn (s : State) (a v : Nat) : (setReg s a v).peerEn = s.peerEn := rfl
@[simp] theorem setReg_qps (s : State) (a v : Nat) : (setReg s a v).qps = s.qps := rfl
@[simp] theorem setReg_sess (s : State) (a v : Nat) : (setReg s a v).sess = s.sess := rfl
@[simp] theorem setReg_disp (s : State) (a v : Nat) : (setReg s a v).disp = s.disp := rfl
@[simp] theorem setReg_text (s : State) (a v : Nat) : (setReg s a v).text = s.text := rfl
@[simp] theorem setReg_ldr (s : State) (a v : Nat) : (setReg s a v).ldr = s.ldr := rfl
@[simp] theorem setReg_fuses (s : State) (a v : Nat) : (setReg s a v).fuses = s.fuses := rfl
@[simp] theorem setReg_sec (s : State) (a v : Nat) : (setReg s a v).sec = s.sec := rfl
@[simp] theorem setReg_dbg (s : State) (a v : Nat) : (setReg s a v).dbg = s.dbg := rfl
@[simp] theorem setReg_tap (s : State) (a v : Nat) : (setReg s a v).tap = s.tap := rfl
@[simp] theorem setReg_wins (s : State) (a v : Nat) : (setReg s a v).wins = s.wins := rfl
@[simp] theorem setReg_boot (s : State) (a v : Nat) : (setReg s a v).boot = s.boot := rfl
@[simp] theorem setReg_pins (s : State) (a v : Nat) : (setReg s a v).pins = s.pins := rfl
@[simp] theorem setReg_telem (s : State) (a v : Nat) : (setReg s a v).telem = s.telem := rfl
@[simp] theorem setReg_out (s : State) (a v : Nat) : (setReg s a v).out = s.out := rfl
@[simp] theorem setReg_pending (s : State) (a v : Nat) : (setReg s a v).pending = s.pending := rfl
@[simp] theorem setReg_rbLen (s : State) (a v : Nat) : (setReg s a v).rbLen = s.rbLen := rfl
@[simp] theorem setReg_credTurn (s : State) (a v : Nat) : (setReg s a v).credTurn = s.credTurn := rfl

-- setStn

@[simp] theorem setStn_part (s : State) (u : Nat) (x : Station) : (setStn s u x).part = s.part := rfl
@[simp] theorem setStn_cyc (s : State) (u : Nat) (x : Station) : (setStn s u x).cyc = s.cyc := rfl
@[simp] theorem setStn_free (s : State) (u : Nat) (x : Station) : (setStn s u x).free = s.free := rfl
@[simp] theorem setStn_regs (s : State) (u : Nat) (x : Station) : (setStn s u x).regs = s.regs := rfl
@[simp] theorem setStn_latch (s : State) (u : Nat) (x : Station) : (setStn s u x).latch = s.latch := rfl
@[simp] theorem setStn_resident (s : State) (u : Nat) (x : Station) : (setStn s u x).resident = s.resident := rfl
@[simp] theorem setStn_heldSig (s : State) (u : Nat) (x : Station) : (setStn s u x).heldSig = s.heldSig := rfl
@[simp] theorem setStn_cist (s : State) (u : Nat) (x : Station) : (setStn s u x).cist = s.cist := rfl
@[simp] theorem setStn_cistErr (s : State) (u : Nat) (x : Station) : (setStn s u x).cistErr = s.cistErr := rfl
@[simp] theorem setStn_cistWb (s : State) (u : Nat) (x : Station) : (setStn s u x).cistWb = s.cistWb := rfl
@[simp] theorem setStn_cistBad (s : State) (u : Nat) (x : Station) : (setStn s u x).cistBad = s.cistBad := rfl
@[simp] theorem setStn_well (s : State) (u : Nat) (x : Station) : (setStn s u x).well = s.well := rfl
@[simp] theorem setStn_wellErr (s : State) (u : Nat) (x : Station) : (setStn s u x).wellErr = s.wellErr := rfl
@[simp] theorem setStn_reread (s : State) (u : Nat) (x : Station) : (setStn s u x).reread = s.reread := rfl
@[simp] theorem setStn_wellBad (s : State) (u : Nat) (x : Station) : (setStn s u x).wellBad = s.wellBad := rfl
@[simp] theorem setStn_scrubCist (s : State) (u : Nat) (x : Station) : (setStn s u x).scrubCist = s.scrubCist := rfl
@[simp] theorem setStn_scrubWell (s : State) (u : Nat) (x : Station) : (setStn s u x).scrubWell = s.scrubWell := rfl
@[simp] theorem setStn_hops (s : State) (u : Nat) (x : Station) : (setStn s u x).hops = s.hops := rfl
@[simp] theorem setStn_arrivals (s : State) (u : Nat) (x : Station) : (setStn s u x).arrivals = s.arrivals := rfl
@[simp] theorem setStn_dieUp (s : State) (u : Nat) (x : Station) : (setStn s u x).dieUp = s.dieUp := rfl
@[simp] theorem setStn_ext (s : State) (u : Nat) (x : Station) : (setStn s u x).ext = s.ext := rfl
@[simp] theorem setStn_credits (s : State) (u : Nat) (x : Station) : (setStn s u x).credits = s.credits := rfl
@[simp] theorem setStn_gov (s : State) (u : Nat) (x : Station) : (setStn s u x).gov = s.gov := rfl
@[simp] theorem setStn_time (s : State) (u : Nat) (x : Station) : (setStn s u x).time = s.time := rfl
@[simp] theorem setStn_floats (s : State) (u : Nat) (x : Station) : (setStn s u x).floats = s.floats := rfl
@[simp] theorem setStn_floatLatch (s : State) (u : Nat) (x : Station) : (setStn s u x).floatLatch = s.floatLatch := rfl
@[simp] theorem setStn_sump (s : State) (u : Nat) (x : Station) : (setStn s u x).sump = s.sump := rfl
@[simp] theorem setStn_msix (s : State) (u : Nat) (x : Station) : (setStn s u x).msix = s.msix := rfl
@[simp] theorem setStn_paired (s : State) (u : Nat) (x : Station) : (setStn s u x).paired = s.paired := rfl
@[simp] theorem setStn_held (s : State) (u : Nat) (x : Station) : (setStn s u x).held = s.held := rfl
@[simp] theorem setStn_roleNow (s : State) (u : Nat) (x : Station) : (setStn s u x).roleNow = s.roleNow := rfl
@[simp] theorem setStn_trainLinks (s : State) (u : Nat) (x : Station) : (setStn s u x).trainLinks = s.trainLinks := rfl
@[simp] theorem setStn_orphans (s : State) (u : Nat) (x : Station) : (setStn s u x).orphans = s.orphans := rfl
@[simp] theorem setStn_peerEn (s : State) (u : Nat) (x : Station) : (setStn s u x).peerEn = s.peerEn := rfl
@[simp] theorem setStn_qps (s : State) (u : Nat) (x : Station) : (setStn s u x).qps = s.qps := rfl
@[simp] theorem setStn_sess (s : State) (u : Nat) (x : Station) : (setStn s u x).sess = s.sess := rfl
@[simp] theorem setStn_disp (s : State) (u : Nat) (x : Station) : (setStn s u x).disp = s.disp := rfl
@[simp] theorem setStn_text (s : State) (u : Nat) (x : Station) : (setStn s u x).text = s.text := rfl
@[simp] theorem setStn_ldr (s : State) (u : Nat) (x : Station) : (setStn s u x).ldr = s.ldr := rfl
@[simp] theorem setStn_fuses (s : State) (u : Nat) (x : Station) : (setStn s u x).fuses = s.fuses := rfl
@[simp] theorem setStn_sec (s : State) (u : Nat) (x : Station) : (setStn s u x).sec = s.sec := rfl
@[simp] theorem setStn_dbg (s : State) (u : Nat) (x : Station) : (setStn s u x).dbg = s.dbg := rfl
@[simp] theorem setStn_tap (s : State) (u : Nat) (x : Station) : (setStn s u x).tap = s.tap := rfl
@[simp] theorem setStn_wins (s : State) (u : Nat) (x : Station) : (setStn s u x).wins = s.wins := rfl
@[simp] theorem setStn_boot (s : State) (u : Nat) (x : Station) : (setStn s u x).boot = s.boot := rfl
@[simp] theorem setStn_pins (s : State) (u : Nat) (x : Station) : (setStn s u x).pins = s.pins := rfl
@[simp] theorem setStn_telem (s : State) (u : Nat) (x : Station) : (setStn s u x).telem = s.telem := rfl
@[simp] theorem setStn_out (s : State) (u : Nat) (x : Station) : (setStn s u x).out = s.out := rfl
@[simp] theorem setStn_pending (s : State) (u : Nat) (x : Station) : (setStn s u x).pending = s.pending := rfl
@[simp] theorem setStn_rbLen (s : State) (u : Nat) (x : Station) : (setStn s u x).rbLen = s.rbLen := rfl
@[simp] theorem setStn_credTurn (s : State) (u : Nat) (x : Station) : (setStn s u x).credTurn = s.credTurn := rfl

-- modStn

@[simp] theorem modStn_part (s : State) (u : Nat) (f : Station → Station) : (modStn s u f).part = s.part := rfl
@[simp] theorem modStn_cyc (s : State) (u : Nat) (f : Station → Station) : (modStn s u f).cyc = s.cyc := rfl
@[simp] theorem modStn_free (s : State) (u : Nat) (f : Station → Station) : (modStn s u f).free = s.free := rfl
@[simp] theorem modStn_regs (s : State) (u : Nat) (f : Station → Station) : (modStn s u f).regs = s.regs := rfl
@[simp] theorem modStn_latch (s : State) (u : Nat) (f : Station → Station) : (modStn s u f).latch = s.latch := rfl
@[simp] theorem modStn_resident (s : State) (u : Nat) (f : Station → Station) : (modStn s u f).resident = s.resident := rfl
@[simp] theorem modStn_heldSig (s : State) (u : Nat) (f : Station → Station) : (modStn s u f).heldSig = s.heldSig := rfl
@[simp] theorem modStn_cist (s : State) (u : Nat) (f : Station → Station) : (modStn s u f).cist = s.cist := rfl
@[simp] theorem modStn_cistErr (s : State) (u : Nat) (f : Station → Station) : (modStn s u f).cistErr = s.cistErr := rfl
@[simp] theorem modStn_cistWb (s : State) (u : Nat) (f : Station → Station) : (modStn s u f).cistWb = s.cistWb := rfl
@[simp] theorem modStn_cistBad (s : State) (u : Nat) (f : Station → Station) : (modStn s u f).cistBad = s.cistBad := rfl
@[simp] theorem modStn_well (s : State) (u : Nat) (f : Station → Station) : (modStn s u f).well = s.well := rfl
@[simp] theorem modStn_wellErr (s : State) (u : Nat) (f : Station → Station) : (modStn s u f).wellErr = s.wellErr := rfl
@[simp] theorem modStn_reread (s : State) (u : Nat) (f : Station → Station) : (modStn s u f).reread = s.reread := rfl
@[simp] theorem modStn_wellBad (s : State) (u : Nat) (f : Station → Station) : (modStn s u f).wellBad = s.wellBad := rfl
@[simp] theorem modStn_scrubCist (s : State) (u : Nat) (f : Station → Station) : (modStn s u f).scrubCist = s.scrubCist := rfl
@[simp] theorem modStn_scrubWell (s : State) (u : Nat) (f : Station → Station) : (modStn s u f).scrubWell = s.scrubWell := rfl
@[simp] theorem modStn_hops (s : State) (u : Nat) (f : Station → Station) : (modStn s u f).hops = s.hops := rfl
@[simp] theorem modStn_arrivals (s : State) (u : Nat) (f : Station → Station) : (modStn s u f).arrivals = s.arrivals := rfl
@[simp] theorem modStn_dieUp (s : State) (u : Nat) (f : Station → Station) : (modStn s u f).dieUp = s.dieUp := rfl
@[simp] theorem modStn_ext (s : State) (u : Nat) (f : Station → Station) : (modStn s u f).ext = s.ext := rfl
@[simp] theorem modStn_credits (s : State) (u : Nat) (f : Station → Station) : (modStn s u f).credits = s.credits := rfl
@[simp] theorem modStn_gov (s : State) (u : Nat) (f : Station → Station) : (modStn s u f).gov = s.gov := rfl
@[simp] theorem modStn_time (s : State) (u : Nat) (f : Station → Station) : (modStn s u f).time = s.time := rfl
@[simp] theorem modStn_floats (s : State) (u : Nat) (f : Station → Station) : (modStn s u f).floats = s.floats := rfl
@[simp] theorem modStn_floatLatch (s : State) (u : Nat) (f : Station → Station) : (modStn s u f).floatLatch = s.floatLatch := rfl
@[simp] theorem modStn_sump (s : State) (u : Nat) (f : Station → Station) : (modStn s u f).sump = s.sump := rfl
@[simp] theorem modStn_msix (s : State) (u : Nat) (f : Station → Station) : (modStn s u f).msix = s.msix := rfl
@[simp] theorem modStn_paired (s : State) (u : Nat) (f : Station → Station) : (modStn s u f).paired = s.paired := rfl
@[simp] theorem modStn_held (s : State) (u : Nat) (f : Station → Station) : (modStn s u f).held = s.held := rfl
@[simp] theorem modStn_roleNow (s : State) (u : Nat) (f : Station → Station) : (modStn s u f).roleNow = s.roleNow := rfl
@[simp] theorem modStn_trainLinks (s : State) (u : Nat) (f : Station → Station) : (modStn s u f).trainLinks = s.trainLinks := rfl
@[simp] theorem modStn_orphans (s : State) (u : Nat) (f : Station → Station) : (modStn s u f).orphans = s.orphans := rfl
@[simp] theorem modStn_peerEn (s : State) (u : Nat) (f : Station → Station) : (modStn s u f).peerEn = s.peerEn := rfl
@[simp] theorem modStn_qps (s : State) (u : Nat) (f : Station → Station) : (modStn s u f).qps = s.qps := rfl
@[simp] theorem modStn_sess (s : State) (u : Nat) (f : Station → Station) : (modStn s u f).sess = s.sess := rfl
@[simp] theorem modStn_disp (s : State) (u : Nat) (f : Station → Station) : (modStn s u f).disp = s.disp := rfl
@[simp] theorem modStn_text (s : State) (u : Nat) (f : Station → Station) : (modStn s u f).text = s.text := rfl
@[simp] theorem modStn_ldr (s : State) (u : Nat) (f : Station → Station) : (modStn s u f).ldr = s.ldr := rfl
@[simp] theorem modStn_fuses (s : State) (u : Nat) (f : Station → Station) : (modStn s u f).fuses = s.fuses := rfl
@[simp] theorem modStn_sec (s : State) (u : Nat) (f : Station → Station) : (modStn s u f).sec = s.sec := rfl
@[simp] theorem modStn_dbg (s : State) (u : Nat) (f : Station → Station) : (modStn s u f).dbg = s.dbg := rfl
@[simp] theorem modStn_tap (s : State) (u : Nat) (f : Station → Station) : (modStn s u f).tap = s.tap := rfl
@[simp] theorem modStn_wins (s : State) (u : Nat) (f : Station → Station) : (modStn s u f).wins = s.wins := rfl
@[simp] theorem modStn_boot (s : State) (u : Nat) (f : Station → Station) : (modStn s u f).boot = s.boot := rfl
@[simp] theorem modStn_pins (s : State) (u : Nat) (f : Station → Station) : (modStn s u f).pins = s.pins := rfl
@[simp] theorem modStn_telem (s : State) (u : Nat) (f : Station → Station) : (modStn s u f).telem = s.telem := rfl
@[simp] theorem modStn_out (s : State) (u : Nat) (f : Station → Station) : (modStn s u f).out = s.out := rfl
@[simp] theorem modStn_pending (s : State) (u : Nat) (f : Station → Station) : (modStn s u f).pending = s.pending := rfl
@[simp] theorem modStn_rbLen (s : State) (u : Nat) (f : Station → Station) : (modStn s u f).rbLen = s.rbLen := rfl
@[simp] theorem modStn_credTurn (s : State) (u : Nat) (f : Station → Station) : (modStn s u f).credTurn = s.credTurn := rfl

-- noteFault

@[simp] theorem noteFault_part (s : State) : (noteFault s).part = s.part := rfl
@[simp] theorem noteFault_cyc (s : State) : (noteFault s).cyc = s.cyc := rfl
@[simp] theorem noteFault_free (s : State) : (noteFault s).free = s.free := rfl
@[simp] theorem noteFault_regs (s : State) : (noteFault s).regs = s.regs := rfl
@[simp] theorem noteFault_latch (s : State) : (noteFault s).latch = s.latch := rfl
@[simp] theorem noteFault_stns (s : State) : (noteFault s).stns = s.stns := rfl
@[simp] theorem noteFault_resident (s : State) : (noteFault s).resident = s.resident := rfl
@[simp] theorem noteFault_heldSig (s : State) : (noteFault s).heldSig = s.heldSig := rfl
@[simp] theorem noteFault_cist (s : State) : (noteFault s).cist = s.cist := rfl
@[simp] theorem noteFault_cistErr (s : State) : (noteFault s).cistErr = s.cistErr := rfl
@[simp] theorem noteFault_cistWb (s : State) : (noteFault s).cistWb = s.cistWb := rfl
@[simp] theorem noteFault_cistBad (s : State) : (noteFault s).cistBad = s.cistBad := rfl
@[simp] theorem noteFault_well (s : State) : (noteFault s).well = s.well := rfl
@[simp] theorem noteFault_wellErr (s : State) : (noteFault s).wellErr = s.wellErr := rfl
@[simp] theorem noteFault_reread (s : State) : (noteFault s).reread = s.reread := rfl
@[simp] theorem noteFault_wellBad (s : State) : (noteFault s).wellBad = s.wellBad := rfl
@[simp] theorem noteFault_scrubCist (s : State) : (noteFault s).scrubCist = s.scrubCist := rfl
@[simp] theorem noteFault_scrubWell (s : State) : (noteFault s).scrubWell = s.scrubWell := rfl
@[simp] theorem noteFault_hops (s : State) : (noteFault s).hops = s.hops := rfl
@[simp] theorem noteFault_arrivals (s : State) : (noteFault s).arrivals = s.arrivals := rfl
@[simp] theorem noteFault_dieUp (s : State) : (noteFault s).dieUp = s.dieUp := rfl
@[simp] theorem noteFault_ext (s : State) : (noteFault s).ext = s.ext := rfl
@[simp] theorem noteFault_credits (s : State) : (noteFault s).credits = s.credits := rfl
@[simp] theorem noteFault_gov (s : State) : (noteFault s).gov = s.gov := rfl
@[simp] theorem noteFault_time (s : State) : (noteFault s).time = s.time := rfl
@[simp] theorem noteFault_floats (s : State) : (noteFault s).floats = s.floats := rfl
@[simp] theorem noteFault_floatLatch (s : State) : (noteFault s).floatLatch = s.floatLatch := rfl
@[simp] theorem noteFault_sump (s : State) : (noteFault s).sump = s.sump := rfl
@[simp] theorem noteFault_msix (s : State) : (noteFault s).msix = s.msix := rfl
@[simp] theorem noteFault_paired (s : State) : (noteFault s).paired = s.paired := rfl
@[simp] theorem noteFault_held (s : State) : (noteFault s).held = s.held := rfl
@[simp] theorem noteFault_roleNow (s : State) : (noteFault s).roleNow = s.roleNow := rfl
@[simp] theorem noteFault_trainLinks (s : State) : (noteFault s).trainLinks = s.trainLinks := rfl
@[simp] theorem noteFault_orphans (s : State) : (noteFault s).orphans = s.orphans := rfl
@[simp] theorem noteFault_peerEn (s : State) : (noteFault s).peerEn = s.peerEn := rfl
@[simp] theorem noteFault_qps (s : State) : (noteFault s).qps = s.qps := rfl
@[simp] theorem noteFault_sess (s : State) : (noteFault s).sess = s.sess := rfl
@[simp] theorem noteFault_text (s : State) : (noteFault s).text = s.text := rfl
@[simp] theorem noteFault_ldr (s : State) : (noteFault s).ldr = s.ldr := rfl
@[simp] theorem noteFault_fuses (s : State) : (noteFault s).fuses = s.fuses := rfl
@[simp] theorem noteFault_sec (s : State) : (noteFault s).sec = s.sec := rfl
@[simp] theorem noteFault_dbg (s : State) : (noteFault s).dbg = s.dbg := rfl
@[simp] theorem noteFault_tap (s : State) : (noteFault s).tap = s.tap := rfl
@[simp] theorem noteFault_wins (s : State) : (noteFault s).wins = s.wins := rfl
@[simp] theorem noteFault_boot (s : State) : (noteFault s).boot = s.boot := rfl
@[simp] theorem noteFault_pins (s : State) : (noteFault s).pins = s.pins := rfl
@[simp] theorem noteFault_telem (s : State) : (noteFault s).telem = s.telem := rfl
@[simp] theorem noteFault_out (s : State) : (noteFault s).out = s.out := rfl
@[simp] theorem noteFault_pending (s : State) : (noteFault s).pending = s.pending := rfl
@[simp] theorem noteFault_rbLen (s : State) : (noteFault s).rbLen = s.rbLen := rfl
@[simp] theorem noteFault_credTurn (s : State) : (noteFault s).credTurn = s.credTurn := rfl

-- putFloat

@[simp] theorem putFloat_part (s : State) (n : Nat) (f : Float8) : (putFloat s n f).part = s.part := rfl
@[simp] theorem putFloat_cyc (s : State) (n : Nat) (f : Float8) : (putFloat s n f).cyc = s.cyc := rfl
@[simp] theorem putFloat_free (s : State) (n : Nat) (f : Float8) : (putFloat s n f).free = s.free := rfl
@[simp] theorem putFloat_regs (s : State) (n : Nat) (f : Float8) : (putFloat s n f).regs = s.regs := rfl
@[simp] theorem putFloat_latch (s : State) (n : Nat) (f : Float8) : (putFloat s n f).latch = s.latch := rfl
@[simp] theorem putFloat_stns (s : State) (n : Nat) (f : Float8) : (putFloat s n f).stns = s.stns := rfl
@[simp] theorem putFloat_resident (s : State) (n : Nat) (f : Float8) : (putFloat s n f).resident = s.resident := rfl
@[simp] theorem putFloat_heldSig (s : State) (n : Nat) (f : Float8) : (putFloat s n f).heldSig = s.heldSig := rfl
@[simp] theorem putFloat_cist (s : State) (n : Nat) (f : Float8) : (putFloat s n f).cist = s.cist := rfl
@[simp] theorem putFloat_cistErr (s : State) (n : Nat) (f : Float8) : (putFloat s n f).cistErr = s.cistErr := rfl
@[simp] theorem putFloat_cistWb (s : State) (n : Nat) (f : Float8) : (putFloat s n f).cistWb = s.cistWb := rfl
@[simp] theorem putFloat_cistBad (s : State) (n : Nat) (f : Float8) : (putFloat s n f).cistBad = s.cistBad := rfl
@[simp] theorem putFloat_well (s : State) (n : Nat) (f : Float8) : (putFloat s n f).well = s.well := rfl
@[simp] theorem putFloat_wellErr (s : State) (n : Nat) (f : Float8) : (putFloat s n f).wellErr = s.wellErr := rfl
@[simp] theorem putFloat_reread (s : State) (n : Nat) (f : Float8) : (putFloat s n f).reread = s.reread := rfl
@[simp] theorem putFloat_wellBad (s : State) (n : Nat) (f : Float8) : (putFloat s n f).wellBad = s.wellBad := rfl
@[simp] theorem putFloat_scrubCist (s : State) (n : Nat) (f : Float8) : (putFloat s n f).scrubCist = s.scrubCist := rfl
@[simp] theorem putFloat_scrubWell (s : State) (n : Nat) (f : Float8) : (putFloat s n f).scrubWell = s.scrubWell := rfl
@[simp] theorem putFloat_hops (s : State) (n : Nat) (f : Float8) : (putFloat s n f).hops = s.hops := rfl
@[simp] theorem putFloat_arrivals (s : State) (n : Nat) (f : Float8) : (putFloat s n f).arrivals = s.arrivals := rfl
@[simp] theorem putFloat_dieUp (s : State) (n : Nat) (f : Float8) : (putFloat s n f).dieUp = s.dieUp := rfl
@[simp] theorem putFloat_ext (s : State) (n : Nat) (f : Float8) : (putFloat s n f).ext = s.ext := rfl
@[simp] theorem putFloat_credits (s : State) (n : Nat) (f : Float8) : (putFloat s n f).credits = s.credits := rfl
@[simp] theorem putFloat_gov (s : State) (n : Nat) (f : Float8) : (putFloat s n f).gov = s.gov := rfl
@[simp] theorem putFloat_time (s : State) (n : Nat) (f : Float8) : (putFloat s n f).time = s.time := rfl
@[simp] theorem putFloat_floatLatch (s : State) (n : Nat) (f : Float8) : (putFloat s n f).floatLatch = s.floatLatch := rfl
@[simp] theorem putFloat_sump (s : State) (n : Nat) (f : Float8) : (putFloat s n f).sump = s.sump := rfl
@[simp] theorem putFloat_msix (s : State) (n : Nat) (f : Float8) : (putFloat s n f).msix = s.msix := rfl
@[simp] theorem putFloat_paired (s : State) (n : Nat) (f : Float8) : (putFloat s n f).paired = s.paired := rfl
@[simp] theorem putFloat_held (s : State) (n : Nat) (f : Float8) : (putFloat s n f).held = s.held := rfl
@[simp] theorem putFloat_roleNow (s : State) (n : Nat) (f : Float8) : (putFloat s n f).roleNow = s.roleNow := rfl
@[simp] theorem putFloat_trainLinks (s : State) (n : Nat) (f : Float8) : (putFloat s n f).trainLinks = s.trainLinks := rfl
@[simp] theorem putFloat_orphans (s : State) (n : Nat) (f : Float8) : (putFloat s n f).orphans = s.orphans := rfl
@[simp] theorem putFloat_peerEn (s : State) (n : Nat) (f : Float8) : (putFloat s n f).peerEn = s.peerEn := rfl
@[simp] theorem putFloat_qps (s : State) (n : Nat) (f : Float8) : (putFloat s n f).qps = s.qps := rfl
@[simp] theorem putFloat_sess (s : State) (n : Nat) (f : Float8) : (putFloat s n f).sess = s.sess := rfl
@[simp] theorem putFloat_disp (s : State) (n : Nat) (f : Float8) : (putFloat s n f).disp = s.disp := rfl
@[simp] theorem putFloat_text (s : State) (n : Nat) (f : Float8) : (putFloat s n f).text = s.text := rfl
@[simp] theorem putFloat_ldr (s : State) (n : Nat) (f : Float8) : (putFloat s n f).ldr = s.ldr := rfl
@[simp] theorem putFloat_fuses (s : State) (n : Nat) (f : Float8) : (putFloat s n f).fuses = s.fuses := rfl
@[simp] theorem putFloat_sec (s : State) (n : Nat) (f : Float8) : (putFloat s n f).sec = s.sec := rfl
@[simp] theorem putFloat_dbg (s : State) (n : Nat) (f : Float8) : (putFloat s n f).dbg = s.dbg := rfl
@[simp] theorem putFloat_tap (s : State) (n : Nat) (f : Float8) : (putFloat s n f).tap = s.tap := rfl
@[simp] theorem putFloat_wins (s : State) (n : Nat) (f : Float8) : (putFloat s n f).wins = s.wins := rfl
@[simp] theorem putFloat_boot (s : State) (n : Nat) (f : Float8) : (putFloat s n f).boot = s.boot := rfl
@[simp] theorem putFloat_pins (s : State) (n : Nat) (f : Float8) : (putFloat s n f).pins = s.pins := rfl
@[simp] theorem putFloat_telem (s : State) (n : Nat) (f : Float8) : (putFloat s n f).telem = s.telem := rfl
@[simp] theorem putFloat_out (s : State) (n : Nat) (f : Float8) : (putFloat s n f).out = s.out := rfl
@[simp] theorem putFloat_pending (s : State) (n : Nat) (f : Float8) : (putFloat s n f).pending = s.pending := rfl
@[simp] theorem putFloat_rbLen (s : State) (n : Nat) (f : Float8) : (putFloat s n f).rbLen = s.rbLen := rfl
@[simp] theorem putFloat_credTurn (s : State) (n : Nat) (f : Float8) : (putFloat s n f).credTurn = s.credTurn := rfl

-- takeFree

@[simp] theorem takeFree_part (s : State) : ((takeFree s).2).part = s.part := rfl
@[simp] theorem takeFree_cyc (s : State) : ((takeFree s).2).cyc = s.cyc := rfl
@[simp] theorem takeFree_regs (s : State) : ((takeFree s).2).regs = s.regs := rfl
@[simp] theorem takeFree_latch (s : State) : ((takeFree s).2).latch = s.latch := rfl
@[simp] theorem takeFree_stns (s : State) : ((takeFree s).2).stns = s.stns := rfl
@[simp] theorem takeFree_resident (s : State) : ((takeFree s).2).resident = s.resident := rfl
@[simp] theorem takeFree_heldSig (s : State) : ((takeFree s).2).heldSig = s.heldSig := rfl
@[simp] theorem takeFree_cist (s : State) : ((takeFree s).2).cist = s.cist := rfl
@[simp] theorem takeFree_cistErr (s : State) : ((takeFree s).2).cistErr = s.cistErr := rfl
@[simp] theorem takeFree_cistWb (s : State) : ((takeFree s).2).cistWb = s.cistWb := rfl
@[simp] theorem takeFree_cistBad (s : State) : ((takeFree s).2).cistBad = s.cistBad := rfl
@[simp] theorem takeFree_well (s : State) : ((takeFree s).2).well = s.well := rfl
@[simp] theorem takeFree_wellErr (s : State) : ((takeFree s).2).wellErr = s.wellErr := rfl
@[simp] theorem takeFree_reread (s : State) : ((takeFree s).2).reread = s.reread := rfl
@[simp] theorem takeFree_wellBad (s : State) : ((takeFree s).2).wellBad = s.wellBad := rfl
@[simp] theorem takeFree_scrubCist (s : State) : ((takeFree s).2).scrubCist = s.scrubCist := rfl
@[simp] theorem takeFree_scrubWell (s : State) : ((takeFree s).2).scrubWell = s.scrubWell := rfl
@[simp] theorem takeFree_hops (s : State) : ((takeFree s).2).hops = s.hops := rfl
@[simp] theorem takeFree_arrivals (s : State) : ((takeFree s).2).arrivals = s.arrivals := rfl
@[simp] theorem takeFree_dieUp (s : State) : ((takeFree s).2).dieUp = s.dieUp := rfl
@[simp] theorem takeFree_ext (s : State) : ((takeFree s).2).ext = s.ext := rfl
@[simp] theorem takeFree_credits (s : State) : ((takeFree s).2).credits = s.credits := rfl
@[simp] theorem takeFree_gov (s : State) : ((takeFree s).2).gov = s.gov := rfl
@[simp] theorem takeFree_time (s : State) : ((takeFree s).2).time = s.time := rfl
@[simp] theorem takeFree_floats (s : State) : ((takeFree s).2).floats = s.floats := rfl
@[simp] theorem takeFree_floatLatch (s : State) : ((takeFree s).2).floatLatch = s.floatLatch := rfl
@[simp] theorem takeFree_sump (s : State) : ((takeFree s).2).sump = s.sump := rfl
@[simp] theorem takeFree_msix (s : State) : ((takeFree s).2).msix = s.msix := rfl
@[simp] theorem takeFree_paired (s : State) : ((takeFree s).2).paired = s.paired := rfl
@[simp] theorem takeFree_held (s : State) : ((takeFree s).2).held = s.held := rfl
@[simp] theorem takeFree_roleNow (s : State) : ((takeFree s).2).roleNow = s.roleNow := rfl
@[simp] theorem takeFree_trainLinks (s : State) : ((takeFree s).2).trainLinks = s.trainLinks := rfl
@[simp] theorem takeFree_orphans (s : State) : ((takeFree s).2).orphans = s.orphans := rfl
@[simp] theorem takeFree_peerEn (s : State) : ((takeFree s).2).peerEn = s.peerEn := rfl
@[simp] theorem takeFree_qps (s : State) : ((takeFree s).2).qps = s.qps := rfl
@[simp] theorem takeFree_sess (s : State) : ((takeFree s).2).sess = s.sess := rfl
@[simp] theorem takeFree_disp (s : State) : ((takeFree s).2).disp = s.disp := rfl
@[simp] theorem takeFree_text (s : State) : ((takeFree s).2).text = s.text := rfl
@[simp] theorem takeFree_ldr (s : State) : ((takeFree s).2).ldr = s.ldr := rfl
@[simp] theorem takeFree_fuses (s : State) : ((takeFree s).2).fuses = s.fuses := rfl
@[simp] theorem takeFree_sec (s : State) : ((takeFree s).2).sec = s.sec := rfl
@[simp] theorem takeFree_dbg (s : State) : ((takeFree s).2).dbg = s.dbg := rfl
@[simp] theorem takeFree_tap (s : State) : ((takeFree s).2).tap = s.tap := rfl
@[simp] theorem takeFree_wins (s : State) : ((takeFree s).2).wins = s.wins := rfl
@[simp] theorem takeFree_boot (s : State) : ((takeFree s).2).boot = s.boot := rfl
@[simp] theorem takeFree_pins (s : State) : ((takeFree s).2).pins = s.pins := rfl
@[simp] theorem takeFree_telem (s : State) : ((takeFree s).2).telem = s.telem := rfl
@[simp] theorem takeFree_out (s : State) : ((takeFree s).2).out = s.out := rfl
@[simp] theorem takeFree_pending (s : State) : ((takeFree s).2).pending = s.pending := rfl
@[simp] theorem takeFree_rbLen (s : State) : ((takeFree s).2).rbLen = s.rbLen := rfl
@[simp] theorem takeFree_credTurn (s : State) : ((takeFree s).2).credTurn = s.credTurn := rfl

-- setHop

@[simp] theorem setHop_part (s : State) (h : Nat) (x : Hop) : (setHop s h x).part = s.part := rfl
@[simp] theorem setHop_cyc (s : State) (h : Nat) (x : Hop) : (setHop s h x).cyc = s.cyc := rfl
@[simp] theorem setHop_free (s : State) (h : Nat) (x : Hop) : (setHop s h x).free = s.free := rfl
@[simp] theorem setHop_regs (s : State) (h : Nat) (x : Hop) : (setHop s h x).regs = s.regs := rfl
@[simp] theorem setHop_latch (s : State) (h : Nat) (x : Hop) : (setHop s h x).latch = s.latch := rfl
@[simp] theorem setHop_stns (s : State) (h : Nat) (x : Hop) : (setHop s h x).stns = s.stns := rfl
@[simp] theorem setHop_resident (s : State) (h : Nat) (x : Hop) : (setHop s h x).resident = s.resident := rfl
@[simp] theorem setHop_heldSig (s : State) (h : Nat) (x : Hop) : (setHop s h x).heldSig = s.heldSig := rfl
@[simp] theorem setHop_cist (s : State) (h : Nat) (x : Hop) : (setHop s h x).cist = s.cist := rfl
@[simp] theorem setHop_cistErr (s : State) (h : Nat) (x : Hop) : (setHop s h x).cistErr = s.cistErr := rfl
@[simp] theorem setHop_cistWb (s : State) (h : Nat) (x : Hop) : (setHop s h x).cistWb = s.cistWb := rfl
@[simp] theorem setHop_cistBad (s : State) (h : Nat) (x : Hop) : (setHop s h x).cistBad = s.cistBad := rfl
@[simp] theorem setHop_well (s : State) (h : Nat) (x : Hop) : (setHop s h x).well = s.well := rfl
@[simp] theorem setHop_wellErr (s : State) (h : Nat) (x : Hop) : (setHop s h x).wellErr = s.wellErr := rfl
@[simp] theorem setHop_reread (s : State) (h : Nat) (x : Hop) : (setHop s h x).reread = s.reread := rfl
@[simp] theorem setHop_wellBad (s : State) (h : Nat) (x : Hop) : (setHop s h x).wellBad = s.wellBad := rfl
@[simp] theorem setHop_scrubCist (s : State) (h : Nat) (x : Hop) : (setHop s h x).scrubCist = s.scrubCist := rfl
@[simp] theorem setHop_scrubWell (s : State) (h : Nat) (x : Hop) : (setHop s h x).scrubWell = s.scrubWell := rfl
@[simp] theorem setHop_arrivals (s : State) (h : Nat) (x : Hop) : (setHop s h x).arrivals = s.arrivals := rfl
@[simp] theorem setHop_dieUp (s : State) (h : Nat) (x : Hop) : (setHop s h x).dieUp = s.dieUp := rfl
@[simp] theorem setHop_ext (s : State) (h : Nat) (x : Hop) : (setHop s h x).ext = s.ext := rfl
@[simp] theorem setHop_credits (s : State) (h : Nat) (x : Hop) : (setHop s h x).credits = s.credits := rfl
@[simp] theorem setHop_gov (s : State) (h : Nat) (x : Hop) : (setHop s h x).gov = s.gov := rfl
@[simp] theorem setHop_time (s : State) (h : Nat) (x : Hop) : (setHop s h x).time = s.time := rfl
@[simp] theorem setHop_floats (s : State) (h : Nat) (x : Hop) : (setHop s h x).floats = s.floats := rfl
@[simp] theorem setHop_floatLatch (s : State) (h : Nat) (x : Hop) : (setHop s h x).floatLatch = s.floatLatch := rfl
@[simp] theorem setHop_sump (s : State) (h : Nat) (x : Hop) : (setHop s h x).sump = s.sump := rfl
@[simp] theorem setHop_msix (s : State) (h : Nat) (x : Hop) : (setHop s h x).msix = s.msix := rfl
@[simp] theorem setHop_paired (s : State) (h : Nat) (x : Hop) : (setHop s h x).paired = s.paired := rfl
@[simp] theorem setHop_held (s : State) (h : Nat) (x : Hop) : (setHop s h x).held = s.held := rfl
@[simp] theorem setHop_roleNow (s : State) (h : Nat) (x : Hop) : (setHop s h x).roleNow = s.roleNow := rfl
@[simp] theorem setHop_trainLinks (s : State) (h : Nat) (x : Hop) : (setHop s h x).trainLinks = s.trainLinks := rfl
@[simp] theorem setHop_orphans (s : State) (h : Nat) (x : Hop) : (setHop s h x).orphans = s.orphans := rfl
@[simp] theorem setHop_peerEn (s : State) (h : Nat) (x : Hop) : (setHop s h x).peerEn = s.peerEn := rfl
@[simp] theorem setHop_qps (s : State) (h : Nat) (x : Hop) : (setHop s h x).qps = s.qps := rfl
@[simp] theorem setHop_sess (s : State) (h : Nat) (x : Hop) : (setHop s h x).sess = s.sess := rfl
@[simp] theorem setHop_disp (s : State) (h : Nat) (x : Hop) : (setHop s h x).disp = s.disp := rfl
@[simp] theorem setHop_text (s : State) (h : Nat) (x : Hop) : (setHop s h x).text = s.text := rfl
@[simp] theorem setHop_ldr (s : State) (h : Nat) (x : Hop) : (setHop s h x).ldr = s.ldr := rfl
@[simp] theorem setHop_fuses (s : State) (h : Nat) (x : Hop) : (setHop s h x).fuses = s.fuses := rfl
@[simp] theorem setHop_sec (s : State) (h : Nat) (x : Hop) : (setHop s h x).sec = s.sec := rfl
@[simp] theorem setHop_dbg (s : State) (h : Nat) (x : Hop) : (setHop s h x).dbg = s.dbg := rfl
@[simp] theorem setHop_tap (s : State) (h : Nat) (x : Hop) : (setHop s h x).tap = s.tap := rfl
@[simp] theorem setHop_wins (s : State) (h : Nat) (x : Hop) : (setHop s h x).wins = s.wins := rfl
@[simp] theorem setHop_boot (s : State) (h : Nat) (x : Hop) : (setHop s h x).boot = s.boot := rfl
@[simp] theorem setHop_pins (s : State) (h : Nat) (x : Hop) : (setHop s h x).pins = s.pins := rfl
@[simp] theorem setHop_telem (s : State) (h : Nat) (x : Hop) : (setHop s h x).telem = s.telem := rfl
@[simp] theorem setHop_out (s : State) (h : Nat) (x : Hop) : (setHop s h x).out = s.out := rfl
@[simp] theorem setHop_pending (s : State) (h : Nat) (x : Hop) : (setHop s h x).pending = s.pending := rfl
@[simp] theorem setHop_rbLen (s : State) (h : Nat) (x : Hop) : (setHop s h x).rbLen = s.rbLen := rfl
@[simp] theorem setHop_credTurn (s : State) (h : Nat) (x : Hop) : (setHop s h x).credTurn = s.credTurn := rfl

-- putExt

@[simp] theorem putExt_part (s : State) (l : Nat) (e : ExtLink) : (putExt s l e).part = s.part := rfl
@[simp] theorem putExt_cyc (s : State) (l : Nat) (e : ExtLink) : (putExt s l e).cyc = s.cyc := rfl
@[simp] theorem putExt_free (s : State) (l : Nat) (e : ExtLink) : (putExt s l e).free = s.free := rfl
@[simp] theorem putExt_regs (s : State) (l : Nat) (e : ExtLink) : (putExt s l e).regs = s.regs := rfl
@[simp] theorem putExt_latch (s : State) (l : Nat) (e : ExtLink) : (putExt s l e).latch = s.latch := rfl
@[simp] theorem putExt_stns (s : State) (l : Nat) (e : ExtLink) : (putExt s l e).stns = s.stns := rfl
@[simp] theorem putExt_resident (s : State) (l : Nat) (e : ExtLink) : (putExt s l e).resident = s.resident := rfl
@[simp] theorem putExt_heldSig (s : State) (l : Nat) (e : ExtLink) : (putExt s l e).heldSig = s.heldSig := rfl
@[simp] theorem putExt_cist (s : State) (l : Nat) (e : ExtLink) : (putExt s l e).cist = s.cist := rfl
@[simp] theorem putExt_cistErr (s : State) (l : Nat) (e : ExtLink) : (putExt s l e).cistErr = s.cistErr := rfl
@[simp] theorem putExt_cistWb (s : State) (l : Nat) (e : ExtLink) : (putExt s l e).cistWb = s.cistWb := rfl
@[simp] theorem putExt_cistBad (s : State) (l : Nat) (e : ExtLink) : (putExt s l e).cistBad = s.cistBad := rfl
@[simp] theorem putExt_well (s : State) (l : Nat) (e : ExtLink) : (putExt s l e).well = s.well := rfl
@[simp] theorem putExt_wellErr (s : State) (l : Nat) (e : ExtLink) : (putExt s l e).wellErr = s.wellErr := rfl
@[simp] theorem putExt_reread (s : State) (l : Nat) (e : ExtLink) : (putExt s l e).reread = s.reread := rfl
@[simp] theorem putExt_wellBad (s : State) (l : Nat) (e : ExtLink) : (putExt s l e).wellBad = s.wellBad := rfl
@[simp] theorem putExt_scrubCist (s : State) (l : Nat) (e : ExtLink) : (putExt s l e).scrubCist = s.scrubCist := rfl
@[simp] theorem putExt_scrubWell (s : State) (l : Nat) (e : ExtLink) : (putExt s l e).scrubWell = s.scrubWell := rfl
@[simp] theorem putExt_hops (s : State) (l : Nat) (e : ExtLink) : (putExt s l e).hops = s.hops := rfl
@[simp] theorem putExt_arrivals (s : State) (l : Nat) (e : ExtLink) : (putExt s l e).arrivals = s.arrivals := rfl
@[simp] theorem putExt_dieUp (s : State) (l : Nat) (e : ExtLink) : (putExt s l e).dieUp = s.dieUp := rfl
@[simp] theorem putExt_credits (s : State) (l : Nat) (e : ExtLink) : (putExt s l e).credits = s.credits := rfl
@[simp] theorem putExt_gov (s : State) (l : Nat) (e : ExtLink) : (putExt s l e).gov = s.gov := rfl
@[simp] theorem putExt_time (s : State) (l : Nat) (e : ExtLink) : (putExt s l e).time = s.time := rfl
@[simp] theorem putExt_floats (s : State) (l : Nat) (e : ExtLink) : (putExt s l e).floats = s.floats := rfl
@[simp] theorem putExt_floatLatch (s : State) (l : Nat) (e : ExtLink) : (putExt s l e).floatLatch = s.floatLatch := rfl
@[simp] theorem putExt_sump (s : State) (l : Nat) (e : ExtLink) : (putExt s l e).sump = s.sump := rfl
@[simp] theorem putExt_msix (s : State) (l : Nat) (e : ExtLink) : (putExt s l e).msix = s.msix := rfl
@[simp] theorem putExt_paired (s : State) (l : Nat) (e : ExtLink) : (putExt s l e).paired = s.paired := rfl
@[simp] theorem putExt_held (s : State) (l : Nat) (e : ExtLink) : (putExt s l e).held = s.held := rfl
@[simp] theorem putExt_roleNow (s : State) (l : Nat) (e : ExtLink) : (putExt s l e).roleNow = s.roleNow := rfl
@[simp] theorem putExt_trainLinks (s : State) (l : Nat) (e : ExtLink) : (putExt s l e).trainLinks = s.trainLinks := rfl
@[simp] theorem putExt_orphans (s : State) (l : Nat) (e : ExtLink) : (putExt s l e).orphans = s.orphans := rfl
@[simp] theorem putExt_peerEn (s : State) (l : Nat) (e : ExtLink) : (putExt s l e).peerEn = s.peerEn := rfl
@[simp] theorem putExt_qps (s : State) (l : Nat) (e : ExtLink) : (putExt s l e).qps = s.qps := rfl
@[simp] theorem putExt_sess (s : State) (l : Nat) (e : ExtLink) : (putExt s l e).sess = s.sess := rfl
@[simp] theorem putExt_disp (s : State) (l : Nat) (e : ExtLink) : (putExt s l e).disp = s.disp := rfl
@[simp] theorem putExt_text (s : State) (l : Nat) (e : ExtLink) : (putExt s l e).text = s.text := rfl
@[simp] theorem putExt_ldr (s : State) (l : Nat) (e : ExtLink) : (putExt s l e).ldr = s.ldr := rfl
@[simp] theorem putExt_fuses (s : State) (l : Nat) (e : ExtLink) : (putExt s l e).fuses = s.fuses := rfl
@[simp] theorem putExt_sec (s : State) (l : Nat) (e : ExtLink) : (putExt s l e).sec = s.sec := rfl
@[simp] theorem putExt_dbg (s : State) (l : Nat) (e : ExtLink) : (putExt s l e).dbg = s.dbg := rfl
@[simp] theorem putExt_tap (s : State) (l : Nat) (e : ExtLink) : (putExt s l e).tap = s.tap := rfl
@[simp] theorem putExt_wins (s : State) (l : Nat) (e : ExtLink) : (putExt s l e).wins = s.wins := rfl
@[simp] theorem putExt_boot (s : State) (l : Nat) (e : ExtLink) : (putExt s l e).boot = s.boot := rfl
@[simp] theorem putExt_pins (s : State) (l : Nat) (e : ExtLink) : (putExt s l e).pins = s.pins := rfl
@[simp] theorem putExt_telem (s : State) (l : Nat) (e : ExtLink) : (putExt s l e).telem = s.telem := rfl
@[simp] theorem putExt_out (s : State) (l : Nat) (e : ExtLink) : (putExt s l e).out = s.out := rfl
@[simp] theorem putExt_pending (s : State) (l : Nat) (e : ExtLink) : (putExt s l e).pending = s.pending := rfl
@[simp] theorem putExt_rbLen (s : State) (l : Nat) (e : ExtLink) : (putExt s l e).rbLen = s.rbLen := rfl
@[simp] theorem putExt_credTurn (s : State) (l : Nat) (e : ExtLink) : (putExt s l e).credTurn = s.credTurn := rfl

-- setQp

@[simp] theorem setQp_part (s : State) (n : Nat) (q : QPair) : (setQp s n q).part = s.part := rfl
@[simp] theorem setQp_cyc (s : State) (n : Nat) (q : QPair) : (setQp s n q).cyc = s.cyc := rfl
@[simp] theorem setQp_free (s : State) (n : Nat) (q : QPair) : (setQp s n q).free = s.free := rfl
@[simp] theorem setQp_regs (s : State) (n : Nat) (q : QPair) : (setQp s n q).regs = s.regs := rfl
@[simp] theorem setQp_latch (s : State) (n : Nat) (q : QPair) : (setQp s n q).latch = s.latch := rfl
@[simp] theorem setQp_stns (s : State) (n : Nat) (q : QPair) : (setQp s n q).stns = s.stns := rfl
@[simp] theorem setQp_resident (s : State) (n : Nat) (q : QPair) : (setQp s n q).resident = s.resident := rfl
@[simp] theorem setQp_heldSig (s : State) (n : Nat) (q : QPair) : (setQp s n q).heldSig = s.heldSig := rfl
@[simp] theorem setQp_cist (s : State) (n : Nat) (q : QPair) : (setQp s n q).cist = s.cist := rfl
@[simp] theorem setQp_cistErr (s : State) (n : Nat) (q : QPair) : (setQp s n q).cistErr = s.cistErr := rfl
@[simp] theorem setQp_cistWb (s : State) (n : Nat) (q : QPair) : (setQp s n q).cistWb = s.cistWb := rfl
@[simp] theorem setQp_cistBad (s : State) (n : Nat) (q : QPair) : (setQp s n q).cistBad = s.cistBad := rfl
@[simp] theorem setQp_well (s : State) (n : Nat) (q : QPair) : (setQp s n q).well = s.well := rfl
@[simp] theorem setQp_wellErr (s : State) (n : Nat) (q : QPair) : (setQp s n q).wellErr = s.wellErr := rfl
@[simp] theorem setQp_reread (s : State) (n : Nat) (q : QPair) : (setQp s n q).reread = s.reread := rfl
@[simp] theorem setQp_wellBad (s : State) (n : Nat) (q : QPair) : (setQp s n q).wellBad = s.wellBad := rfl
@[simp] theorem setQp_scrubCist (s : State) (n : Nat) (q : QPair) : (setQp s n q).scrubCist = s.scrubCist := rfl
@[simp] theorem setQp_scrubWell (s : State) (n : Nat) (q : QPair) : (setQp s n q).scrubWell = s.scrubWell := rfl
@[simp] theorem setQp_hops (s : State) (n : Nat) (q : QPair) : (setQp s n q).hops = s.hops := rfl
@[simp] theorem setQp_arrivals (s : State) (n : Nat) (q : QPair) : (setQp s n q).arrivals = s.arrivals := rfl
@[simp] theorem setQp_dieUp (s : State) (n : Nat) (q : QPair) : (setQp s n q).dieUp = s.dieUp := rfl
@[simp] theorem setQp_ext (s : State) (n : Nat) (q : QPair) : (setQp s n q).ext = s.ext := rfl
@[simp] theorem setQp_credits (s : State) (n : Nat) (q : QPair) : (setQp s n q).credits = s.credits := rfl
@[simp] theorem setQp_gov (s : State) (n : Nat) (q : QPair) : (setQp s n q).gov = s.gov := rfl
@[simp] theorem setQp_time (s : State) (n : Nat) (q : QPair) : (setQp s n q).time = s.time := rfl
@[simp] theorem setQp_floats (s : State) (n : Nat) (q : QPair) : (setQp s n q).floats = s.floats := rfl
@[simp] theorem setQp_floatLatch (s : State) (n : Nat) (q : QPair) : (setQp s n q).floatLatch = s.floatLatch := rfl
@[simp] theorem setQp_sump (s : State) (n : Nat) (q : QPair) : (setQp s n q).sump = s.sump := rfl
@[simp] theorem setQp_msix (s : State) (n : Nat) (q : QPair) : (setQp s n q).msix = s.msix := rfl
@[simp] theorem setQp_paired (s : State) (n : Nat) (q : QPair) : (setQp s n q).paired = s.paired := rfl
@[simp] theorem setQp_held (s : State) (n : Nat) (q : QPair) : (setQp s n q).held = s.held := rfl
@[simp] theorem setQp_roleNow (s : State) (n : Nat) (q : QPair) : (setQp s n q).roleNow = s.roleNow := rfl
@[simp] theorem setQp_trainLinks (s : State) (n : Nat) (q : QPair) : (setQp s n q).trainLinks = s.trainLinks := rfl
@[simp] theorem setQp_orphans (s : State) (n : Nat) (q : QPair) : (setQp s n q).orphans = s.orphans := rfl
@[simp] theorem setQp_peerEn (s : State) (n : Nat) (q : QPair) : (setQp s n q).peerEn = s.peerEn := rfl
@[simp] theorem setQp_sess (s : State) (n : Nat) (q : QPair) : (setQp s n q).sess = s.sess := rfl
@[simp] theorem setQp_disp (s : State) (n : Nat) (q : QPair) : (setQp s n q).disp = s.disp := rfl
@[simp] theorem setQp_text (s : State) (n : Nat) (q : QPair) : (setQp s n q).text = s.text := rfl
@[simp] theorem setQp_ldr (s : State) (n : Nat) (q : QPair) : (setQp s n q).ldr = s.ldr := rfl
@[simp] theorem setQp_fuses (s : State) (n : Nat) (q : QPair) : (setQp s n q).fuses = s.fuses := rfl
@[simp] theorem setQp_sec (s : State) (n : Nat) (q : QPair) : (setQp s n q).sec = s.sec := rfl
@[simp] theorem setQp_dbg (s : State) (n : Nat) (q : QPair) : (setQp s n q).dbg = s.dbg := rfl
@[simp] theorem setQp_tap (s : State) (n : Nat) (q : QPair) : (setQp s n q).tap = s.tap := rfl
@[simp] theorem setQp_wins (s : State) (n : Nat) (q : QPair) : (setQp s n q).wins = s.wins := rfl
@[simp] theorem setQp_boot (s : State) (n : Nat) (q : QPair) : (setQp s n q).boot = s.boot := rfl
@[simp] theorem setQp_pins (s : State) (n : Nat) (q : QPair) : (setQp s n q).pins = s.pins := rfl
@[simp] theorem setQp_telem (s : State) (n : Nat) (q : QPair) : (setQp s n q).telem = s.telem := rfl
@[simp] theorem setQp_out (s : State) (n : Nat) (q : QPair) : (setQp s n q).out = s.out := rfl
@[simp] theorem setQp_pending (s : State) (n : Nat) (q : QPair) : (setQp s n q).pending = s.pending := rfl
@[simp] theorem setQp_rbLen (s : State) (n : Nat) (q : QPair) : (setQp s n q).rbLen = s.rbLen := rfl
@[simp] theorem setQp_credTurn (s : State) (n : Nat) (q : QPair) : (setQp s n q).credTurn = s.credTurn := rfl

-- setSess

@[simp] theorem setSess_part (s : State) (i : Nat) (x : Sess) : (setSess s i x).part = s.part := rfl
@[simp] theorem setSess_cyc (s : State) (i : Nat) (x : Sess) : (setSess s i x).cyc = s.cyc := rfl
@[simp] theorem setSess_free (s : State) (i : Nat) (x : Sess) : (setSess s i x).free = s.free := rfl
@[simp] theorem setSess_regs (s : State) (i : Nat) (x : Sess) : (setSess s i x).regs = s.regs := rfl
@[simp] theorem setSess_latch (s : State) (i : Nat) (x : Sess) : (setSess s i x).latch = s.latch := rfl
@[simp] theorem setSess_stns (s : State) (i : Nat) (x : Sess) : (setSess s i x).stns = s.stns := rfl
@[simp] theorem setSess_resident (s : State) (i : Nat) (x : Sess) : (setSess s i x).resident = s.resident := rfl
@[simp] theorem setSess_heldSig (s : State) (i : Nat) (x : Sess) : (setSess s i x).heldSig = s.heldSig := rfl
@[simp] theorem setSess_cist (s : State) (i : Nat) (x : Sess) : (setSess s i x).cist = s.cist := rfl
@[simp] theorem setSess_cistErr (s : State) (i : Nat) (x : Sess) : (setSess s i x).cistErr = s.cistErr := rfl
@[simp] theorem setSess_cistWb (s : State) (i : Nat) (x : Sess) : (setSess s i x).cistWb = s.cistWb := rfl
@[simp] theorem setSess_cistBad (s : State) (i : Nat) (x : Sess) : (setSess s i x).cistBad = s.cistBad := rfl
@[simp] theorem setSess_well (s : State) (i : Nat) (x : Sess) : (setSess s i x).well = s.well := rfl
@[simp] theorem setSess_wellErr (s : State) (i : Nat) (x : Sess) : (setSess s i x).wellErr = s.wellErr := rfl
@[simp] theorem setSess_reread (s : State) (i : Nat) (x : Sess) : (setSess s i x).reread = s.reread := rfl
@[simp] theorem setSess_wellBad (s : State) (i : Nat) (x : Sess) : (setSess s i x).wellBad = s.wellBad := rfl
@[simp] theorem setSess_scrubCist (s : State) (i : Nat) (x : Sess) : (setSess s i x).scrubCist = s.scrubCist := rfl
@[simp] theorem setSess_scrubWell (s : State) (i : Nat) (x : Sess) : (setSess s i x).scrubWell = s.scrubWell := rfl
@[simp] theorem setSess_hops (s : State) (i : Nat) (x : Sess) : (setSess s i x).hops = s.hops := rfl
@[simp] theorem setSess_arrivals (s : State) (i : Nat) (x : Sess) : (setSess s i x).arrivals = s.arrivals := rfl
@[simp] theorem setSess_dieUp (s : State) (i : Nat) (x : Sess) : (setSess s i x).dieUp = s.dieUp := rfl
@[simp] theorem setSess_ext (s : State) (i : Nat) (x : Sess) : (setSess s i x).ext = s.ext := rfl
@[simp] theorem setSess_credits (s : State) (i : Nat) (x : Sess) : (setSess s i x).credits = s.credits := rfl
@[simp] theorem setSess_gov (s : State) (i : Nat) (x : Sess) : (setSess s i x).gov = s.gov := rfl
@[simp] theorem setSess_time (s : State) (i : Nat) (x : Sess) : (setSess s i x).time = s.time := rfl
@[simp] theorem setSess_floats (s : State) (i : Nat) (x : Sess) : (setSess s i x).floats = s.floats := rfl
@[simp] theorem setSess_floatLatch (s : State) (i : Nat) (x : Sess) : (setSess s i x).floatLatch = s.floatLatch := rfl
@[simp] theorem setSess_sump (s : State) (i : Nat) (x : Sess) : (setSess s i x).sump = s.sump := rfl
@[simp] theorem setSess_msix (s : State) (i : Nat) (x : Sess) : (setSess s i x).msix = s.msix := rfl
@[simp] theorem setSess_paired (s : State) (i : Nat) (x : Sess) : (setSess s i x).paired = s.paired := rfl
@[simp] theorem setSess_held (s : State) (i : Nat) (x : Sess) : (setSess s i x).held = s.held := rfl
@[simp] theorem setSess_roleNow (s : State) (i : Nat) (x : Sess) : (setSess s i x).roleNow = s.roleNow := rfl
@[simp] theorem setSess_trainLinks (s : State) (i : Nat) (x : Sess) : (setSess s i x).trainLinks = s.trainLinks := rfl
@[simp] theorem setSess_orphans (s : State) (i : Nat) (x : Sess) : (setSess s i x).orphans = s.orphans := rfl
@[simp] theorem setSess_peerEn (s : State) (i : Nat) (x : Sess) : (setSess s i x).peerEn = s.peerEn := rfl
@[simp] theorem setSess_qps (s : State) (i : Nat) (x : Sess) : (setSess s i x).qps = s.qps := rfl
@[simp] theorem setSess_disp (s : State) (i : Nat) (x : Sess) : (setSess s i x).disp = s.disp := rfl
@[simp] theorem setSess_text (s : State) (i : Nat) (x : Sess) : (setSess s i x).text = s.text := rfl
@[simp] theorem setSess_ldr (s : State) (i : Nat) (x : Sess) : (setSess s i x).ldr = s.ldr := rfl
@[simp] theorem setSess_fuses (s : State) (i : Nat) (x : Sess) : (setSess s i x).fuses = s.fuses := rfl
@[simp] theorem setSess_sec (s : State) (i : Nat) (x : Sess) : (setSess s i x).sec = s.sec := rfl
@[simp] theorem setSess_dbg (s : State) (i : Nat) (x : Sess) : (setSess s i x).dbg = s.dbg := rfl
@[simp] theorem setSess_tap (s : State) (i : Nat) (x : Sess) : (setSess s i x).tap = s.tap := rfl
@[simp] theorem setSess_wins (s : State) (i : Nat) (x : Sess) : (setSess s i x).wins = s.wins := rfl
@[simp] theorem setSess_boot (s : State) (i : Nat) (x : Sess) : (setSess s i x).boot = s.boot := rfl
@[simp] theorem setSess_pins (s : State) (i : Nat) (x : Sess) : (setSess s i x).pins = s.pins := rfl
@[simp] theorem setSess_telem (s : State) (i : Nat) (x : Sess) : (setSess s i x).telem = s.telem := rfl
@[simp] theorem setSess_out (s : State) (i : Nat) (x : Sess) : (setSess s i x).out = s.out := rfl
@[simp] theorem setSess_pending (s : State) (i : Nat) (x : Sess) : (setSess s i x).pending = s.pending := rfl
@[simp] theorem setSess_rbLen (s : State) (i : Nat) (x : Sess) : (setSess s i x).rbLen = s.rbLen := rfl
@[simp] theorem setSess_credTurn (s : State) (i : Nat) (x : Sess) : (setSess s i x).credTurn = s.credTurn := rfl

-- what the updates write

@[simp] theorem reg_setReg (s : State) (a b v : Nat) :
    reg (setReg s a v) b = if b = a then v % 2 ^ 32 else reg s b := by
  by_cases h : b = a <;> simp [reg, setReg, tabGet_tabSet, h]

@[simp] theorem stn_setStn (s : State) (u v : Nat) (x : Station) :
    stn (setStn s u x) v = if v = u then x else stn s v := by
  simp [stn, setStn, tabGet_tabPut]

@[simp] theorem stn_modStn (s : State) (u v : Nat) (f : Station → Station) :
    stn (modStn s u f) v = if v = u then f (stn s u) else stn s v := by
  simp [modStn]

@[simp] theorem thr_setThr (x : Station) (t k : Nat) (h : Thread) :
    thr (setThr x t h) k = if k = t then h else thr x k := by
  simp [thr, setThr, tabGet_tabPut]

@[simp] theorem thr_modThr (x : Station) (t k : Nat) (f : Thread → Thread) :
    thr (modThr x t f) k = if k = t then f (thr x t) else thr x k := by
  simp [modThr]

@[simp] theorem hop_setHop (s : State) (h k : Nat) (x : Hop) : hop (setHop s h x) k = if k = h then x else hop s k := by
  simp [hop, setHop, tabGet_tabPut]

@[simp] theorem getExt_putExt (s : State) (l k : Nat) (e : ExtLink) :
    getExt (putExt s l e) k = if k = l then e else getExt s k := by
  simp [getExt, putExt, tabGet_tabPut]

@[simp] theorem getFloat_putFloat (s : State) (n k : Nat) (f : Float8) :
    getFloat (putFloat s n f) k = if k = n then f else getFloat s k := by
  simp [getFloat, putFloat, tabGet_tabPut]

@[simp] theorem getQp_setQp (s : State) (n k : Nat) (q : QPair) : getQp (setQp s n q) k = if k = n then q else getQp s k := by
  simp [getQp, setQp, tabGet_tabSet]

@[simp] theorem getSess_setSess (s : State) (i k : Nat) (x : Sess) :
    getSess (setSess s i x) k = if k = i then x else getSess s k := by
  simp [getSess, setSess, tabGet_tabSet]

/-- R165: s0 reads 0 and takes no write; every other register reads what was written. -/
theorem sread_swrite (h : Thread) (r k : Nat) (v : Word) :
    sread (swrite h r v) k = if k = r ∧ r ≠ 0 then v else sread h k := by
  by_cases hr : r = 0
  · simp [swrite, hr]
  · by_cases hk : k = 0
    · subst hk
      have : ¬ 0 = r := fun e => hr e.symm
      simp [sread, this]
    · by_cases e : k = r
      · subst e; simp [sread, swrite, hr]
      · simp [sread, swrite, hr, hk, e, tabGet_tabSet]

@[simp] theorem evGet_evSet (x : Station) (e k : Nat) (v : Word) : evGet (evSet x e v) k = if k = e then v else evGet x k := by
  simp [evGet, evSet, tabGet_tabSet]

end Sys2Proof.Machine
end

