-- ==== Sys2Proof/Laws/Ops.lean ====
section
/-! SUPPORT. Laws/Ops.lean: what each shared operation answers: the forms of an outcome, the retirement of an
instruction, and the accesses to the byte RAMs, which keep their canonical form. -/

namespace Sys2Proof.Machine

-- outcomes

@[simp] theorem guard_true (s t : State) : guard s true t = .next t := rfl
@[simp] theorem guard_false (s t : State) : guard s false t = .next s := rfl

theorem guard_of {c : Bool} (h : c = true) (s t : State) : guard s c t = .next t := by simp [guard, h]

/-- Everything a guarded step can do: it comes about, or the part stays as it is (log entry 6). -/
theorem guard_next {s t s' : State} {c : Bool} (h : guard s c t = .next s') : (c = true ∧ s' = t) ∨ (c = false ∧ s' = s) := by
  cases c <;> simp [guard] at h <;> simp [h]

@[simp] theorem withOperand_true (o : Host.Outcome State Fault Refusal) : withOperand true o = o := rfl
@[simp] theorem withOperand_false (o : Host.Outcome State Fault Refusal) : withOperand false o = .fault .badOperand := rfl

theorem withOperand_of {c : Bool} (h : c = true) (o : Host.Outcome State Fault Refusal) : withOperand c o = o := by
  simp [withOperand, h]

theorem withOperand_next {c : Bool} {o : Host.Outcome State Fault Refusal} {s' : State} (h : withOperand c o = .next s') :
    c = true ∧ o = .next s' := by
  unfold withOperand at h
  split at h
  · exact ⟨‹_›, h⟩
  · cases h

@[simp] theorem enabled_some (s t : State) : enabled s (some t) = .next t := rfl
@[simp] theorem enabled_none (s : State) : enabled s none = .next s := rfl

/-- Everything a step over an optional state can do. -/
theorem enabled_next {s s' : State} {o : Option State} (h : enabled s o = .next s') :
    o = some s' ∨ (o = none ∧ s' = s) := by
  cases o with
  | none => simp [enabled] at h; simp [h]
  | some t => simp [enabled] at h; simp [h]

-- retirement (R158 to R163)

theorem front_thread {x : Station} {t : Nat} {i : InFlight} (h : front x t = some i) : i.thread = t := by
  have := List.find?_some h
  simpa using this

/-- An instruction at its retirement retires with its body's outcome. -/
theorem retire_of {op : SOp} {s : State} {u t : Nat} {i : InFlight} (h : AtRetire op s u t i)
    (body : State → InFlight → Ret) : retire op body u t s = .next (finish u t i s (body s i)) := by
  simp [retire, h.oldest, h.runs, h.head, h.free, h.inRun, h.isOp]

/-- Everything the retirement of an instruction can do: it retires, or does not come about (log entry 6). -/
theorem retire_next {op : SOp} {body : State → InFlight → Ret} {u t : Nat} {s s' : State}
    (h : retire op body u t s = .next s') : s' = s ∨ ∃ i, AtRetire op s u t i ∧ s' = finish u t i s (body s i) := by
  unfold retire at h
  split at h
  · exact .inl (by simpa using h.symm)
  · rename_i i hi
    split at h
    · rename_i hc
      simp only [Bool.and_eq_true, beq_iff_eq, Bool.not_eq_true'] at hc
      obtain ⟨⟨⟨⟨h1, h2⟩, h3⟩, h4⟩, h5⟩ := hc
      exact .inr ⟨i, ⟨hi, h1, h2, h3, h4, h5⟩, by simpa using h.symm⟩
    · exact .inl (by simpa using h.symm)

/-- What a retirement that only changes the unit's station leaves. -/
theorem onlyUnit_modStn (s : State) (u : Nat) (f : Station → Station) : OnlyUnit u s (modStn s u f) :=
  ⟨rfl, fun v hv => by simp [hv]⟩

theorem modStn_modStn (s : State) (u : Nat) (f g : Station → Station) :
    OnlyUnit u s (modStn (modStn s u f) u g) ∧ stn (modStn (modStn s u f) u g) u = g (f (stn s u)) :=
  ⟨⟨rfl, fun v hv => by simp [hv]⟩, by simp⟩

/-- Writing one scalar register writes that register and nothing else of the thread. -/
theorem writesReg_swrite (h : Thread) (rd : Nat) (v : Word) : WritesReg rd v h (swrite h rd v) := by
  refine ⟨?_, ?_, ?_⟩
  · by_cases e : rd = 0
    · subst e; simp [sread_swrite]; simp [sread]
    · simp [sread_swrite, e]
  · intro r hr; simp [sread_swrite, hr]
  · by_cases e : rd = 0 <;> simp [swrite, e]

@[simp] theorem finish_done (u t : Nat) (i : InFlight) (s s' : State) :
    finish u t i s (.done s') = modStn s' u (fun x => popFront x t) := rfl

/-- A body that only changes the unit's station retires with that change. -/
theorem retires_done (u t : Nat) (i : InFlight) (s : State) (f : Station → Station) :
    Retires u t f s (finish u t i s (.done (modStn s u f))) := by
  rw [finish_done]; exact modStn_modStn s u f _

/-- A body that only changes the thread's record retires with that change. -/
theorem retiresThread_done (u t : Nat) (i : InFlight) (s : State) (f : Thread → Thread) :
    RetiresThread u t f s (finish u t i s (.done (modStn s u (fun x => modThr x t f)))) :=
  retires_done u t i s (fun x => modThr x t f)

/-- A body that writes one scalar register retires with that write. -/
theorem retiresReg_done {i : InFlight} {t : Nat} (e : i.thread = t) (u : Nat) (s : State) (rd : Nat) (v : Word) :
    RetiresReg u t rd v s (finish u t i s (.done (writeS s u i rd v))) := by
  subst e
  refine ⟨swrite (thr (stn s u) i.thread) rd v, writesReg_swrite _ _ _, ?_⟩
  exact retires_done u i.thread i s (fun x => modThr x i.thread (fun h => swrite h rd v))

-- the byte RAMs keep their canonical form

theorem memWf_of {s t : State} (hc : t.cist = s.cist) (hw : t.well = s.well) (h : memWf s = true) : memWf t = true := by
  simpa [memWf, hc, hw] using h

@[simp] theorem memWf_setReg (s : State) (a v : Nat) : memWf (setReg s a v) = memWf s := rfl
@[simp] theorem memWf_addReg (s : State) (a n : Nat) : memWf (addReg s a n) = memWf s := rfl
@[simp] theorem memWf_setStn (s : State) (u : Nat) (x : Station) : memWf (setStn s u x) = memWf s := rfl
@[simp] theorem memWf_modStn (s : State) (u : Nat) (f : Station → Station) : memWf (modStn s u f) = memWf s := rfl
@[simp] theorem memWf_noteFault (s : State) : memWf (noteFault s) = memWf s := rfl
@[simp] theorem memWf_putFloat (s : State) (n : Nat) (f : Float8) : memWf (putFloat s n f) = memWf s := rfl

@[simp] theorem memWf_pushRec (s : State) (r : RecIn) : memWf (pushRec s r) = memWf s := by
  unfold pushRec; split <;> rfl

@[simp] theorem memWf_sendMsix (s : State) (v : Nat) : memWf (sendMsix s v) = memWf s := by
  unfold sendMsix; simp only; split
  · rfl
  · split <;> rfl

@[simp] theorem memWf_evtRise (s : State) (old : Nat) : memWf (evtRise s old) = memWf s := by
  unfold evtRise; simp only; split
  · exact memWf_sendMsix _ _
  · rfl

@[simp] theorem memWf_setEvt (s : State) (b : Nat) : memWf (setEvt s b) = memWf s := by
  simp [setEvt]

@[simp] theorem memWf_cistUeReport (s : State) (w acc : Nat) : memWf (cistUeReport s w acc) = memWf s := by
  unfold cistUeReport pushRec
  simp only
  repeat' split
  all_goals rfl

@[simp] theorem memWf_cistCheck (s : State) (acc : Nat) (l : List Nat) : memWf (cistCheck s acc l).1 = memWf s := by
  induction l generalizing s with
  | nil => rfl
  | cons w t ih =>
    unfold cistCheck; split
    · exact ih s
    · simp only [ih]; rfl
    · simp

@[simp] theorem memWf_cistRead (s : State) (u a n acc : Nat) : memWf (cistRead s u a n acc).1 = memWf s := by
  simp [cistRead]

theorem memWf_cistWritePiece (s : State) (g : Nat) (bs : List Byte) (h : memWf s = true) :
    memWf (cistWritePiece s g bs).1 = true := by
  have hw : ∀ t : State, memWf t = true → memWf { t with cist := memWrite t.cist g bs } = true := by
    intro t ht
    simp only [memWf, Bool.and_eq_true] at ht ⊢
    exact ⟨memWrite_wf _ _ _ ht.1, ht.2⟩
  unfold cistWritePiece; simp only; split
  · exact hw s h
  · split
    · exact hw _ h
    · split
      · exact hw s h
      · exact hw _ h
      · simpa using h

theorem memWf_cistWritePieces (s : State) (l : List (Nat × List Byte)) (h : memWf s = true) :
    memWf (cistWritePieces s l).1 = true := by
  induction l generalizing s with
  | nil => exact h
  | cons p t ih => exact ih _ (memWf_cistWritePiece s p.1 p.2 h)

@[simp] theorem rbForget_cist (s : State) (k n : Nat) : (rbForget s k n).cist = s.cist := by unfold rbForget; split <;> rfl
@[simp] theorem rbForget_well (s : State) (k n : Nat) : (rbForget s k n).well = s.well := by unfold rbForget; split <;> rfl
@[simp] theorem memWf_rbForget (s : State) (k n : Nat) : memWf (rbForget s k n) = memWf s := by simp [memWf]

/-- Every write to the cistern keeps the canonical form. -/
theorem memWf_cistWrite (s : State) (u a : Nat) (bs : List Byte) (h : memWf s = true) : memWf (cistWrite s u a bs).1 = true := by
  rw [← memWf_rbForget s (entryKey false (gaddr u a)) bs.length] at h
  unfold cistWrite; simp only; split
  · simp only [memWf, Bool.and_eq_true] at h ⊢
    exact ⟨memWrite_wf _ _ _ h.1, h.2⟩
  · exact memWf_cistWritePieces _ _ h

@[simp] theorem memWf_wellUeReport (s : State) (b : Nat) (q : WellAcc) : memWf (wellUeReport s b q) = memWf s := by
  unfold wellUeReport pushRec
  simp only
  repeat' split
  all_goals rfl

@[simp] theorem memWf_wellCheck (s : State) (q : WellAcc) (l : List Nat) : memWf (wellCheck s q l).1 = memWf s := by
  induction l generalizing s with
  | nil => rfl
  | cons w t ih =>
    unfold wellCheck; split
    · exact ih s
    · simp only [ih]; rfl
    · simp only [ih]; rfl
    · split
      · simp only [ih]; rfl
      · simp

@[simp] theorem memWf_wellRead (s : State) (a n : Nat) (q : WellAcc) : memWf (wellRead s a n q).1 = memWf s := by
  simp [wellRead]

theorem memWf_wellWritePiece (s : State) (a : Nat) (bs : List Byte) (q : WellAcc) (h : memWf s = true) :
    memWf (wellWritePiece s a bs q).1 = true := by
  have hw : ∀ t : State, memWf t = true → memWf { t with well := memWrite t.well a bs } = true := by
    intro t ht
    simp only [memWf, Bool.and_eq_true] at ht ⊢
    exact ⟨ht.1, memWrite_wf _ _ _ ht.2⟩
  unfold wellWritePiece; simp only; split
  · exact hw _ h
  · split
    · exact hw _ (by simpa using h)
    · simpa using h

theorem memWf_wellWritePieces (s : State) (q : WellAcc) (l : List (Nat × List Byte)) (h : memWf s = true) :
    memWf (wellWritePieces s q l).1 = true := by
  induction l generalizing s with
  | nil => exact h
  | cons p t ih => exact ih _ (memWf_wellWritePiece s p.1 p.2 q h)

/-- Every write to the well keeps the canonical form. -/
theorem memWf_wellWrite (s : State) (a : Nat) (bs : List Byte) (q : WellAcc) (h : memWf s = true) :
    memWf (wellWrite s a bs q).1 = true := by
  rw [← memWf_rbForget s (entryKey true a) bs.length] at h
  unfold wellWrite; simp only; split
  · simp only [memWf, Bool.and_eq_true] at h ⊢
    exact ⟨h.1, memWrite_wf _ _ _ h.2⟩
  · exact memWf_wellWritePieces _ q _ h

@[simp] theorem memWf_trfReadWord (s : State) (u w : Nat) : memWf (trfReadWord s u w) = memWf s := by
  unfold trfReadWord; split
  · rfl
  · rfl
  · simp only; split <;> simp

@[simp] theorem memWf_tileRead (s : State) (u : Nat) (side : Bool) (r o n : Nat) : memWf (tileRead s u side r o n).1 = memWf s := by
  have fold : ∀ (l : List Nat) (s : State), memWf (l.foldl (fun s w => trfReadWord s u w) s) = memWf s := by
    intro l
    induction l with
    | nil => intro s; rfl
    | cons w t ih => intro s; simp [ih]
  unfold tileRead; simp only; split
  · rfl
  · exact fold _ s

@[simp] theorem memWf_tileWrite (s : State) (u : Nat) (side : Bool) (r o : Nat) (bs : List Byte) :
    memWf (tileWrite s u side r o bs) = memWf s := rfl

/-- A fatal trap changes no byte RAM. -/
@[simp] theorem memWf_fatalTrap (s : State) (u t pc cause : Nat) : memWf (fatalTrap s u t pc cause) = memWf s := by
  have h0 : memWf (stepEnd s u t) = memWf s := by unfold stepEnd; split <;> rfl
  unfold fatalTrap
  simp only [memWf_setEvt]
  split <;> split <;> simp [h0]

/-- Retirement keeps the canonical form where the instruction's body does. -/
theorem memWf_finish (u t : Nat) (i : InFlight) (s : State) (r : Ret) (hs : memWf s = true)
    (h : ∀ s', (r = .done s' ∨ r = .hold s' ∨ ∃ c, r = .trap c s') → memWf s' = true) : memWf (finish u t i s r) = true := by
  cases r with
  | done s' => simpa [finish] using h s' (.inl rfl)
  | hold s' => simpa [finish] using h s' (.inr (.inl rfl))
  | trap c s' => simpa [finish] using h s' (.inr (.inr ⟨c, rfl⟩))
  | transient c => simpa [finish] using hs

end Sys2Proof.Machine
end

