-- ==== Sys2Proof/Machine/Package.lean ====
section
/-! DEFINITION. Machine/Package.lean: the balls of the package, their names and functions (R580 to R585). No command reads
them: they say where the pins of State stand. -/

namespace Sys2Proof.Machine

/-- What a ball carries (Table 20.4). -/
inductive BallFn
  | vss | vddCore | vddSram | vddqMem | serdes0v9 | serdes1v2 | vddIo
  /-- a PCIe lane: transmit or receive, the lane, and whether it is the N leg -/
  | pcie (tx : Bool) (lane : Nat) (neg : Bool)
  /-- a lane of an Extium Link; without connection inside a T4N or a T2 (R583) -/
  | extium (link : Nat) (tx : Bool) (lane : Nat) (neg : Bool)
  | low (signal : String)
  deriving DecidableEq, Repr

/-- R581, Table 20.2: the name of row `r`, from 1. -/
def rowName (r : Nat) : String :=
  let letters := ["A", "B", "C", "D", "E", "F", "G", "H", "J", "K", "L", "M", "N", "P", "T", "U", "V", "W", "Y"]
  ["", "A", "B", "C"].getD ((r - 1) / 19) "" ++ letters.getD ((r - 1) % 19) ""

/-- R581: the ring depth of a ball. -/
def ringDepth (r c : Nat) : Nat := min (min (r - 1) (70 - r)) (min (c - 1) (70 - c))

/-- Table 20.5: the low-speed balls, by row index and column. -/
def lowBalls : List (Nat × Nat × String) :=
  [(70, 30, "CP_SCK"), (70, 31, "CP_CS_N"), (70, 32, "CP_MOSI"), (70, 33, "CP_MISO"), (70, 34, "CP_ALERT_N"), (70, 36, "PPS_IN"),
   (70, 37, "PWR_OK"), (70, 38, "PERST_N"), (70, 39, "DROOP_N"), (70, 40, "THERMTRIP_N")] ++
  [(69, 30, "FL_SCK"), (69, 31, "FL_CS_N"), (69, 32, "FL_MOSI"), (69, 33, "FL_MISO"), (69, 35, "TCK"), (69, 36, "TMS"),
   (69, 37, "TDI"), (69, 38, "TDO"), (69, 39, "TRST_N")] ++
  [(68, 30, "VID0"), (68, 31, "VID1"), (68, 32, "VID2"), (68, 33, "VID3"), (68, 34, "VID4"), (68, 35, "VID5"),
   (68, 38, "REFCLK_P"), (68, 39, "REFCLK_N")]

/-- R583, Table 20.3: the high-speed ball at a place. -/
def highBall (r c : Nat) : Option BallFn :=
  if (r = 1 ∨ r = 3) ∧ 20 ≤ c ∧ c < 52 then some (.pcie (r == 1) ((c - 20) / 2) ((c - 20) % 2 == 1))
  else if 20 ≤ r ∧ r < 52 ∧ (r - 20) % 4 < 2 then
    let leg (link : Nat) (tx : Bool) : Option BallFn := some (.extium link tx ((r - 20) / 4) ((r - 20) % 4 == 1))
    match c with
    | 1 => leg 0 true
    | 3 => leg 0 false
    | 70 => leg 1 true
    | 68 => leg 1 false
    | _ => none
  else none

/-- R582: the one function of the ball in row `r` and column `c`, each from 1 to 70. -/
def ballFn (r c : Nat) : BallFn :=
  match highBall r c with
  | some f => f
  | none =>
    match lowBalls.find? (fun b => b.1 == r && b.2.1 == c) with
    | some b => .low b.2.2
    | none =>
      let d := ringDepth r c
      if (r + c) % 2 = 0 then .vss
      else if 68 ≤ r then .vddIo
      else if d ≤ 2 then (if d = 1 then .serdes1v2 else .serdes0v9)
      else if d ≤ 5 then .vddqMem
      else if d ≤ 9 then .vddSram
      else .vddCore

/-- How many balls of some rows have a function of a kind (R584). -/
def ballCount (rows : List Nat) (p : BallFn → Bool) : Nat :=
  (rows.map (fun r => ((List.range 70).filter (fun c => p (ballFn r (c + 1)))).length)).foldl (· + ·) 0

end Sys2Proof.Machine
end

