-- ==== Sys2Proof/WellFormed.lean ====
section
/-! DEFINITION. WellFormed.lean: which commands some part of the family can be given at all: operands that name a unit,
thread, channel, link, die, queue pair or session within the largest part's counts (Table 00.1), words of 32 bits
(R21), and lists of the lengths their rules set. What this part's own counts refuse, the meaning refuses. -/

namespace Sys2Proof

/-- A command that can be sent. -/
def Instr.wf : Instr → Bool
  | .regWrite sp a v =>
    decide (sp < 8 ∧ a < 2 ^ 20 ∧ v < 2 ^ 32)
  | .rcRead p a =>
    decide (p < 8 ∧ a < 2 ^ 20)
  | .snapshotRead p a =>
    decide (p < 2 ∧ a < 1024)
  | .w1cWrite p a v =>
    decide (p < 2 ∧ a < 1024 ∧ v < 2 ^ 32)
  | .instrIssue u | .trapService u | .signalSend u | .vfenceFire u | .vecCmdStart u | .vecCmdComplete u
  | .stepBoundary u | .parkRequest u | .deadlockCountExpire u =>
    decide (u < 128)
  | .heldRetire u t | .nop u t | .park u t | .brk u t | .rdsr u t | .setvl u t | .add u t | .sub u t | .and u t
  | .or u t | .xor u t | .shl u t | .shr u t | .sra u t | .slt u t | .sltu u t | .min u t | .max u t | .minu u t
  | .maxu u t | .mul u t | .mulh u t | .mulhu u t | .adds u t | .subs u t | .clz u t | .popc u t | .addi u t
  | .andi u t | .ori u t | .xori u t | .slti u t | .sltiu u t | .lui u t | .shli u t | .shri u t | .srai u t
  | .beq u t | .bne u t | .blt u t | .bge u t | .bltu u t | .bgeu u t | .j u t | .call u t | .jr u t | .callr u t
  | .ret u t | .lw u t | .lh u t | .lhu u t | .lb u t | .lbu u t | .sw u t | .sh u t | .sb u t | .ewait u t
  | .waitWake u t | .esig u t | .eset u t | .erd u t | .rsig u t | .pissue u t | .pstat u t | .pclr u t
  | .pcancel u t | .chain u t | .cabort u t | .cpos u t | .cstat u t | .chainStart u t | .chainTileOutput u t
  | .attnPageRead u t | .chainComplete u t | .mshift u t | .mpass u t | .vopAdd u t | .vopSub u t | .vopMul u t
  | .vopFma u t | .vopMin u t | .vopMax u t | .vopAbs u t | .vopNeg u t | .vopSel u t | .vopAddb u t | .vopSubb u t
  | .vopMulb u t | .vopExp u t | .vopLog u t | .vopRcp u t | .vopRsqrt u t | .vopSqrt u t | .vopTanh u t
  | .vopSigmoid u t | .vopSilu u t | .vopGeluTanh u t | .vcmp u t | .vredRsum u t | .vredRmax u t | .vredRmin u t
  | .vredRmaxabs u t | .vmovMov u t | .splat u t | .compress u t | .expand u t | .zero u t | .mand u t | .mor u t
  | .mxor u t | .mnot u t | .mset u t | .vfence u t | .vcvt u t | .psetw u t | .slotw u t | .slotr u t | .ncucnt u t
  | .stepclose u t | .threadPark u t =>
    decide (u < 128 ∧ t < 4)
  | .signalApply _ | .cistCeWriteback _ | .tileLand _ | .landedReceive _ | .stepComplete _ | .stepFault _
  | .tokenizeAppend _ | .ptmMeasure _ | .samplePreload _ | .cpFrameAbandon _ =>
    true
  | .descStart u ch | .pumpBlock u ch | .descComplete u ch =>
    decide (u < 128 ∧ ch < 4)
  | .timeout u _ | .siphonTileSend u _ =>
    decide (u < 128)
  | .gatherShareStart u t d _ =>
    decide (u < 128 ∧ t < 4 ∧ d < 8)
  | .reduceCombine u t _ =>
    decide (u < 128 ∧ t < 4)
  | .shiftStart u ma | .shiftComplete u ma | .passStart u ma | .passComplete u ma =>
    decide (u < 128 ∧ ma < 8)
  | .wellRead a =>
    decide (a % 32 = 0 ∧ a < 2 ^ 40)
  | .wellReread | .wellRefresh | .wellRecal | .scrubCistLine | .scrubWellBeat | .textScrub | .linkTrainTimeout
  | .pairStandby | .pairHoldExpire | .windowStart | .leaveGrant | .droopStretchEnd | .pstateTransition
  | .autoIdleEnter | .p3Entry | .p3Exit | .vidStep | .refclkLoss | .flr | .stepStart | .stepWatchdog
  | .textSramRepair | .unload | .primingStart | .primingComplete | .primingTimeout | .timeTick | .ppsEdge
  | .servoHoldover | .sumpIntake | .telemSnapshot | .drbgReseed | .entropyHealthFail | .challengeExpire | .haltDone
  | .idcode | .bypass | .extest | .extestPulse | .extestTrain | .clamp | .highz | .scan | .coldReset | .pwrOkFall
  | .warmReset | .bootRom | .fwAuth | .entropyStartupPass | .testLogicReset | .vddIoValid | .railOutOfTolerance =>
    true
  | .pmWrite u a ws =>
    decide (u < 128 ∧ a + ws.length ≤ 2 ^ 14)
  | .resume u acts =>
    decide (u < 128 ∧ acts.length = 4 ∧ ∀ a ∈ acts, a < 2 ^ 14 + 2)
  | .stationReset ls | .stationResetRelease ls | .unitSwitch ls =>
    decide (ls < 128)
  | .flitReceive h _ bs =>
    decide (h < 20 ∧ bs.length ≤ 512)
  | .nakReceive h _ =>
    decide (h < 20)
  | .replayTimeout h | .linkAckTimeout h | .lossOfLock h | .idleAckFlit h =>
    decide (h < 20)
  | .ctrlDownReceive ⟨l, reason⟩ =>
    decide (l < 2 ∧ reason < 16)
  | .extLinkTrainState l | .extAutoRetrain l =>
    decide (l < 2)
  | .dieLinkRetrain l =>
    decide (l < 8)
  | .linkPairCtlWrite v | .linkRetrain v | .pwrCtlWrite v | .timeSrcSelect v | .stepReq v | .timeTodHiWrite v
  | .evtMaskWrite v | .slotProgram v | .slotRevoke v | .attest v | .svnAdvance v | .readThread v
  | .readEvents v | .readPump v | .halt v | .dbgResume v | .dbgStep v | .brkArm v | .brkDisarm v | .readScalar v
  | .writeScalar v | .readTile v | .writeTile v | .readMem v | .writeMem v | .bootGo v | .ctrlReset v
  | .mapStnReset v =>
    decide (v < 2 ^ 32)
  | .pairInfo l _ _ ms =>
    decide (l < 2 ∧ ms.length = 4 ∧ ∀ m ∈ ms, m < 2 ^ 32)
  | .leaveRequest k _ _ _ =>
    decide (k < 5)
  | .droopAssert k =>
    decide (k < 6)
  | .thermSample ds ks =>
    decide ((ds.length = 18 ∨ ds.length = 34) ∧ 4 * ks.length + 2 = ds.length ∧ ∀ v ∈ ds ++ ks, v < 16383875)
  | .sqTailDoorbell n v | .cqHeadDoorbell n v | .qpEnableWrite n v | .qpCoalWrite n v =>
    decide (n < 64 ∧ v < 2 ^ 32)
  | .qpDisableDone n | .msixCoalTimeout n =>
    decide (n < 64)
  | .sqFetch n e =>
    decide (n < 64 ∧ ∀ bs ∈ e, bs.length = 64)
  | .openSession sid | .generate sid | .cancel sid | .cancelApply sid | .close sid | .querySession sid
  | .queryDevice sid =>
    decide (sid < 4096)
  | .config sid _ | .appendText sid _ | .appendTokens sid _ =>
    decide (sid < 4096)
  | .load _ _ =>
    true
  | .floatOpRead p n =>
    decide (p < 2 ∧ n < 8)
  | .sumpRecRead p | .winDataRead p =>
    decide (p < 2)
  | .zeroize w | .lcTransition w =>
    decide (∀ v ∈ w, v < 2 ^ 32)
  | .dbgReqWrite _ v | .dbgResponse _ v =>
    decide (v < 2 ^ 32)
  | .dbgAccess r =>
    decide (∀ p ∈ r, p.1 < 1024 ∧ ∀ v ∈ p.2, v < 2 ^ 32)
  | .cpWriteFrame bs | .cpReadFrame bs =>
    decide (bs ≠ [])
  | .winTableWrite p v | .winDataWrite p v =>
    decide (p < 2 ∧ v < 2 ^ 32)
  | .pcieLinkTrain r w =>
    decide (1 ≤ r ∧ r ≤ 5 ∧ w ∈ [1, 2, 4, 8, 16])
  | .bootFlash bs =>
    decide (bs.length ≤ 4194304)
  | .bootLinkTrain r =>
    decide (r = 0 ∨ r = 0x10 ∨ r = 0x11)
  | .memTrain f =>
    decide ((∀ p ∈ f, p.1 < 8 ∧ p.2 < 17) ∧ f.Nodup)
  | .selfTest bs bk _ =>
    decide ((∀ p ∈ bs, p.1 < 4 ∧ p.2 < 32) ∧ ∀ k ∈ bk, k < 8)
  | .peerImageId _ i ps =>
    decide (i.length = 16 ∧ ps.length = 4)
  | .secondaryStepRows _ _ _ _ =>
    true
  | .msixVectorUnmask v =>
    decide (v < 64)

end Sys2Proof
end

