-- ==== Sys2Proof/Tests/Slice0.lean ====
section
/-! SUPPORT. Tests/Slice0.lean: ill-formed commands that the check refuses; for every statement that has hypotheses, and
each of its clauses, a concrete state and operands that meet them; and small runs of single commands, whose results are
those of the manual's examples and tables. -/

namespace Sys2Proof.Tests

open Sys2Proof Sys2Proof.Machine Sys2Proof.Stated

-- ill-formed commands

/-- One ill-formed command for each check of WellFormed. -/
theorem test_ill_formed_are_refused :
    ([.regWrite 8 0 0, .rcRead 8 0, .w1cWrite 0 0 (2 ^ 32), .instrIssue 128, .add 0 4, .descStart 0 4, .timeout 128 0,
      .gatherShareStart 0 0 8 0, .reduceCombine 0 4 0, .shiftStart 0 8, .wellRead 1, .pmWrite 0 (2 ^ 14) [0],
      .resume 0 [0, 0, 0], .stationReset 128, .flitReceive 20 {} [], .nakReceive 20 [], .replayTimeout 20,
      .ctrlDownReceive ⟨0, 16⟩, .dieLinkRetrain 8, .thermSample (List.replicate 18 0) [0, 0, 0], .msixVectorUnmask 64, .pwrCtlWrite (2 ^ 32)] : List Instr).all (fun c => !c.wf) = true := by decide

/-- A well-formed one of each. -/
theorem test_well_formed_are_taken :
    ([.regWrite 0 1023 0, .rcRead 7 (2 ^ 20 - 1), .w1cWrite 0 0 (2 ^ 32 - 1), .instrIssue 127, .add 0 3, .descStart 0 3, .timeout 127 0,
      .gatherShareStart 0 0 7 0, .reduceCombine 0 3 0, .shiftStart 0 7, .wellRead 32, .pmWrite 0 (2 ^ 14 - 1) [0],
      .resume 0 [0, 0, 0, 0], .stationReset 127, .flitReceive 19 {} [], .nakReceive 19 [], .replayTimeout 19,
      .ctrlDownReceive ⟨1, 15⟩, .dieLinkRetrain 7, .thermSample (List.replicate 18 0) [0, 0, 0, 0], .msixVectorUnmask 63, .pwrCtlWrite (2 ^ 32 - 1)] : List Instr).all (fun c => c.wf) = true := by decide

-- instruction words, from the encodings of Tables 06.1 to 06.16

/-- An instruction word: opcode [31:26], rd [25:21], ra [20:16], and bits [15:0]. -/
def wd (op rd ra low : Nat) : Nat := op * 2 ^ 26 + rd * 2 ^ 21 + ra * 2 ^ 16 + low

/-- Words of opcodes 0x00 and 0x01: rd s5, ra s1, rb s2. -/
def sysWords : List (SOp × Nat) :=
  [(.nop, wd 0 0 0 0), (.park, wd 0 0 0 1), (.brk, wd 0 0 0 2), (.rdsr, wd 0 5 0 3), (.setvl, wd 0 5 1 4)]
def regWords : List (SOp × Nat) :=
  [(.add, wd 1 5 1 0x1000), (.sub, wd 1 5 1 0x1001), (.and, wd 1 5 1 0x1002), (.or, wd 1 5 1 0x1003), (.xor, wd 1 5 1 0x1004),
   (.shl, wd 1 5 1 0x1005), (.shr, wd 1 5 1 0x1006), (.sra, wd 1 5 1 0x1007), (.slt, wd 1 5 1 0x1008), (.sltu, wd 1 5 1 0x1009),
   (.min, wd 1 5 1 0x100A), (.max, wd 1 5 1 0x100B), (.minu, wd 1 5 1 0x100C), (.maxu, wd 1 5 1 0x100D),
   (.mul, wd 1 5 1 0x100E), (.mulh, wd 1 5 1 0x100F), (.mulhu, wd 1 5 1 0x1010), (.adds, wd 1 5 1 0x1011),
   (.subs, wd 1 5 1 0x1012), (.clz, wd 1 5 1 0x1013), (.popc, wd 1 5 1 0x1014)]

/-- Words of the immediate, branch and memory operations; the loads and stores with an immediate of −4. -/
def immWords : List (SOp × Nat) :=
  [(.addi, wd 2 5 1 0xFFFF), (.andi, wd 3 5 1 0xFFFF), (.ori, wd 4 5 1 0xFFFF), (.xori, wd 5 5 1 0xFFFF), (.slti, wd 6 5 1 0xFFFF),
   (.sltiu, wd 7 5 1 0xFFFF), (.lui, wd 8 5 0 0x8000), (.shli, wd 9 5 1 0x1F), (.shri, wd 9 5 1 0x3F), (.srai, wd 9 5 1 0x5F)]
def ctlWords : List (SOp × Nat) :=
  [(.beq, wd 0x10 5 1 0xFFFF), (.bne, wd 0x11 5 1 0xFFFF), (.blt, wd 0x12 5 1 0xFFFF), (.bge, wd 0x13 5 1 0xFFFF),
   (.bltu, wd 0x14 5 1 0xFFFF), (.bgeu, wd 0x15 5 1 0xFFFF), (.j, wd 0x16 0 0 0x3FFF), (.call, wd 0x17 0 0 0x10),
   (.jr, wd 0x18 0 1 0), (.callr, wd 0x18 0 1 1), (.ret, wd 0x18 0 0 2)]
def memWords : List (SOp × Nat) :=
  [(.lw, wd 0x20 5 1 0xFFFC), (.lh, wd 0x21 5 1 0xFFFC), (.lhu, wd 0x22 5 1 0xFFFC), (.lb, wd 0x23 5 1 0xFFFC),
   (.lbu, wd 0x24 5 1 0xFFFC), (.sw, wd 0x25 5 1 0xFFFC), (.sh, wd 0x26 5 1 0xFFFC), (.sb, wd 0x27 5 1 0xFFFC)]

/-- Words of the event, pump, chain, array and numeric operations: event 16, channel 3. -/
def unitWords : List (SOp × Nat) :=
  [(.ewait, wd 0x28 16 1 0), (.esig, wd 0x28 16 0 0xFF01), (.eset, wd 0x28 16 1 2), (.erd, wd 0x28 16 5 3), (.rsig, wd 0x28 16 1 4),
   (.pissue, wd 0x29 0 1 0xC000), (.pstat, wd 0x29 5 0 0xC001), (.pclr, wd 0x29 0 0 0xC002), (.pcancel, wd 0x29 0 0 0xC003),
   (.chain, wd 0x2A 0 1 0), (.cabort, wd 0x2A 0 0 1), (.cpos, wd 0x2A 5 0 2), (.cstat, wd 0x2A 5 0 3),
   (.mshift, 0x2B * 2 ^ 26 + 7 * 2 ^ 23 + 4 * 2 ^ 18 + 1 * 2 ^ 13), (.mpass, 0x2C * 2 ^ 26 + 7 * 2 ^ 23 + 4 * 2 ^ 18 + 5 * 2 ^ 14 + 1 * 2 ^ 9),
   (.psetw, wd 0x38 5 0 0), (.slotw, wd 0x38 5 0 1), (.slotr, wd 0x38 5 0 2), (.ncucnt, wd 0x38 5 0 3), (.stepclose, wd 0x38 0 0 4)]

/-- Words of the vector operations: vd t6, va t8, vb t10 (or scalar s1), mask m1 enabled, type FP32; mask operations on m6 from m0 and m2. -/
def vecWords : List (SOp × Nat) :=
  [(.vadd, wd 0x30 6 8 0x5180), (.vsub, wd 0x30 6 8 0x5181), (.vmul, wd 0x30 6 8 0x5182), (.vfma, wd 0x30 6 8 0x5183),
   (.vmin, wd 0x30 6 8 0x5184), (.vmax, wd 0x30 6 8 0x5185), (.vabs, wd 0x30 6 8 0x5186), (.vneg, wd 0x30 6 8 0x5187),
   (.vsel, wd 0x30 6 8 0x5188), (.vaddb, wd 0x30 6 8 0x5189), (.vsubb, wd 0x30 6 8 0x518A), (.vmulb, wd 0x30 6 8 0x518B),
   (.vexp, wd 0x30 6 8 0x5190), (.vlog, wd 0x30 6 8 0x5191), (.vrcp, wd 0x30 6 8 0x5192), (.vrsqrt, wd 0x30 6 8 0x5193),
   (.vsqrt, wd 0x30 6 8 0x5194), (.vtanh, wd 0x30 6 8 0x5195), (.vsigmoid, wd 0x30 6 8 0x5196), (.vsilu, wd 0x30 6 8 0x5197),
   (.vgelu, wd 0x30 6 8 0x5198)]
def movWords : List (SOp × Nat) :=
  [(.vcmp, 0x31 * 2 ^ 26 + 6 * 2 ^ 23 + 8 * 2 ^ 18 + 10 * 2 ^ 13 + 0x2 * 2 ^ 4), (.rsum, wd 0x32 6 8 0), (.rmax, wd 0x32 6 8 0x100),
   (.rmin, wd 0x32 6 8 0x200), (.rmaxabs, wd 0x32 6 8 0x300),
   (.vmov, wd 0x33 6 8 0), (.splat, wd 0x33 6 0 0x0801), (.compress, wd 0x33 6 8 0x182), (.expand, wd 0x33 6 8 0x183),
   (.zero, wd 0x33 6 0 4), (.mand, wd 0x33 6 0 0x1005), (.mor, wd 0x33 6 0 0x1006), (.mxor, wd 0x33 6 0 0x1007),
   (.mnot, wd 0x33 6 0 8), (.mset, wd 0x33 6 0 9), (.vfence, wd 0x33 0 0 0x800A), (.vcvt, wd 0x34 6 8 0x0840)]

def words : List (SOp × Nat) := sysWords ++ regWords ++ immWords ++ ctlWords ++ memWords ++ unitWords ++ vecWords ++ movWords
/-- The word written out for an operation. -/
def wordOf (op : SOp) : Nat := ((words.find? (fun p => p.1 == op)).map (·.2)).getD 0

/-- Every word written out decodes to the operation it stands for. -/
theorem test_words_decode : words.all (fun p => sop p.2 == some p.1) = true := by decide +kernel

/-- The encodings of Table 06.21, and the MPASS of its text. -/
theorem test_table_06_21 : [0x2020004F, 0xA4010000, 0x08210040, 0xA4010000, 0x08630002, 0xA0830000, 0x08210040, 0xA8010000, 0xB110DD94].map sop
    = [some .lui, some .pissue, some .addi, some .pissue, some .addi, some .ewait, some .addi, some .chain, some .mpass] := by decide

-- a unit with one instruction at retirement

/-- An instruction of thread 0, at the highest program address. -/
def fl (w : Nat) : InFlight := ⟨0, 0x3FFF, w, false⟩

/-- Unit 0 of a part with every station, in P0 Run, with thread 0 in RUN and one instruction of it at its check. -/
def atW (w : Nat) (h : Thread := {}) (x : Station := {}) : State :=
  setStn State.reset 0 { setThr x 0 { h with st := .run } with pipe := [fl w] }

/-- AtRetire of thread 0 of unit 0, as a test. -/
def retiring (op : SOp) (s : State) (i : InFlight) : Bool :=
  front (stn s 0) 0 == some i && unitRuns s 0 && atHead (stn s 0) 0 && !i.held && (thr (stn s 0) 0).st == .run && sop i.word == some op

theorem atRetire {op : SOp} {s : State} {i : InFlight} (h : retiring op s i = true) : AtRetire op s 0 0 i := by
  simp only [retiring, Bool.and_eq_true, beq_iff_eq, Bool.not_eq_true'] at h
  obtain ⟨⟨⟨⟨⟨h1, h2⟩, h3⟩, h4⟩, h5⟩, h6⟩ := h
  exact ⟨h1, h2, h3, h4, h5, h6⟩

/-- Registers s1 and s5. -/
def two (a d : Nat) : Thread := { regs := [(1, BitVec.ofNat 32 a), (5, BitVec.ofNat 32 d)] }

/-- Every register and immediate operation stands at retirement. -/
theorem witness_scalar_operations : ∀ op, op ∈ regOps.map (·.2.1) ++ immOps.map (·.2.1) →
    AtRetire op (atW (wordOf op) (two 0x80000000 3)) 0 0 (fl (wordOf op)) := by
  intro op h
  exact atRetire ((by decide +kernel : ∀ op ∈ regOps.map (·.2.1) ++ immOps.map (·.2.1),
    retiring op (atW (wordOf op) (two 0x80000000 3)) (fl (wordOf op)) = true) op h)

/-- The branches stand at retirement with equal operands, with −1 and 1, and with 1 and −1, which meet and miss every condition. -/
theorem witness_branches : ∀ op ∈ branchOps.map (·.2.1), ∀ q ∈ [(7, 7), (1, 2 ^ 32 - 1), (2 ^ 32 - 1, 1)],
    retiring op (atW (wordOf op) (two q.1 q.2)) (fl (wordOf op)) = true ∧
    (opA (atW (wordOf op) (two q.1 q.2)) 0 (fl (wordOf op))).toNat = q.1 ∧
    (opD (atW (wordOf op) (two q.1 q.2)) 0 (fl (wordOf op))).toNat = q.2 := by decide +kernel

/-- Jumps; a CALL with 15 entries on the stack, and a RET with one. -/
theorem witness_jumps : AtRetire .j (atW (wordOf .j)) 0 0 (fl (wordOf .j)) ∧ AtRetire .jr (atW (wordOf .jr)) 0 0 (fl (wordOf .jr)) ∧
    (∀ op ∈ [SOp.call, .callr], retiring op (atW (wordOf op) { stack := List.replicate 15 1 }) (fl (wordOf op)) = true ∧
      (thr (stn (atW (wordOf op) { stack := List.replicate 15 1 }) 0) 0).stack.length < 16) ∧
    AtRetire .ret (atW (wordOf .ret) { stack := [7] }) 0 0 (fl (wordOf .ret)) ∧
    (thr (stn (atW (wordOf .ret) { stack := [7] }) 0) 0).stack = 7 :: [] :=
  ⟨atRetire (by decide +kernel), atRetire (by decide +kernel), by decide +kernel, atRetire (by decide +kernel), by decide +kernel⟩

/-- Bytes per operation of the loads and stores. -/
def memOps : List (SOp × Nat) := [(.lw, 4), (.lh, 2), (.lhu, 2), (.lb, 1), (.lbu, 1), (.sw, 4), (.sh, 2), (.sb, 1)]

/-- Loads and stores of the last aligned bytes of general storage that an immediate of −4 reaches, and at address 0. -/
theorem witness_loads_and_stores : ∀ p ∈ memOps, ∀ a ∈ [4, spillBase + 4 - p.2],
    retiring p.1 (atW (wordOf p.1) (two a 9)) (fl (wordOf p.1)) = true ∧
    localAddr (atW (wordOf p.1) (two a 9)) 0 (fl (wordOf p.1)) + p.2 ≤ spillBase ∧
    localAddr (atW (wordOf p.1) (two a 9)) 0 (fl (wordOf p.1)) % p.2 = 0 ∧ (atW (wordOf p.1) (two a 9)).cistErr = [] := by
  decide +kernel

/-- A state with no error mark has clean ranges. -/
theorem cleanRange_of_nil (s : State) (u a n : Nat) (h : s.cistErr = []) : cleanRange s u a n := by
  intro w m _ _; simp [h]

/-- Calls with a full stack, with the spill area full and with room for one group; returns with nothing, and with one group spilled. -/
theorem witness_stack_traps : (∀ op ∈ [SOp.call, .callr], ∀ n ∈ [128, 127, 0],
      retiring op (atW (wordOf op) { stack := List.replicate 16 1, spill := n }) (fl (wordOf op)) = true ∧
      (thr (stn (atW (wordOf op) { stack := List.replicate 16 1, spill := n }) 0) 0).stack.length = 16 ∧
      (thr (stn (atW (wordOf op) { stack := List.replicate 16 1, spill := n }) 0) 0).spill = n) ∧
    (∀ n ∈ [0, 1], retiring .ret (atW (wordOf .ret) { spill := n }) (fl (wordOf .ret)) = true ∧
      (thr (stn (atW (wordOf .ret) { spill := n }) 0) 0).stack = [] ∧ (thr (stn (atW (wordOf .ret) { spill := n }) 0) 0).spill = n) := by
  decide +kernel

/-- Misaligned accesses (where the size allows one), and the first address above general storage. -/
theorem witness_address_traps : (∀ p ∈ memOps, ∀ a ∈ [spillBase + 4],
      retiring p.1 (atW (wordOf p.1) (two a 9)) (fl (wordOf p.1)) = true ∧
      spillBase < localAddr (atW (wordOf p.1) (two a 9)) 0 (fl (wordOf p.1)) + p.2) ∧
    (∀ p ∈ memOps, p.2 ≠ 1 → retiring p.1 (atW (wordOf p.1) (two 5 9)) (fl (wordOf p.1)) = true ∧
      localAddr (atW (wordOf p.1) (two 5 9)) 0 (fl (wordOf p.1)) % p.2 ≠ 0) := by decide +kernel

/-- Counter 16 at 5. -/
def ev5 : Station := { ev := [(16, 5)] }

/-- ESIG of 255 and of 0, ESET, ERD; EWAIT for 5, which is met, and for 6, which is not; a thread waiting for 5. -/
theorem witness_events :
    (∀ op ∈ [SOp.esig, .eset, .erd], retiring op (atW (wordOf op) (two 5 0) ev5) (fl (wordOf op)) = true) ∧ bits (wordOf .esig) 15 8 ≠ 0 ∧
    retiring .esig (atW (wd 0x28 16 0 1)) (fl (wd 0x28 16 0 1)) = true ∧ bits (wd 0x28 16 0 1) 15 8 = 0 ∧
    retiring .ewait (atW (wordOf .ewait) (two 5 0) ev5) (fl (wordOf .ewait)) = true ∧
    waitMet (stn (atW (wordOf .ewait) (two 5 0) ev5) 0) (fRd (wordOf .ewait)) 5 ∧
    retiring .ewait (atW (wordOf .ewait) (two 6 0) ev5) (fl (wordOf .ewait)) = true ∧
    ¬ waitMet (stn (atW (wordOf .ewait) (two 6 0) ev5) 0) (fRd (wordOf .ewait)) 6 := by
  refine ⟨by decide +kernel, by decide, by decide +kernel, by decide, by decide +kernel, ?_, by decide +kernel, ?_⟩ <;> unfold waitMet <;> decide +kernel

/-- Thread 0 waiting at its EWAIT for 5 on counter 16, which holds 5. -/
def waiting : State := setStn State.reset 0 { setThr ev5 0 { st := .wait, waitEv := 16, waitTarget := 5 } with pipe := [⟨0, 9, wordOf .ewait, true⟩] }
theorem witness_wait_wake : unitRuns waiting 0 = true ∧ (thr (stn waiting 0) 0).st = .wait ∧
    waitMet (stn waiting 0) (thr (stn waiting 0) 0).waitEv (BitVec.ofNat 32 (thr (stn waiting 0) 0).waitTarget) := by
  refine ⟨by decide +kernel, by decide +kernel, ?_⟩; unfold waitMet; decide +kernel

/-- A T2 has 64 stations. -/
def onT2 (s : State) : State := { s with part := { s.part with variant := 2 } }
/-- RSIG to unit 127 with 7 and with 8 signals queued; of counter 15; to a unit a T2 does not have; to unit 0 of the paired package; and
with an operand of 256. -/
theorem witness_rsig : let s := atW (wordOf .rsig) (two 127 0) { outq := List.replicate 7 ⟨0, 1, false, 16⟩ }
    let w := wd 0x28 15 1 4
    retiring .rsig s (fl (wordOf .rsig)) = true ∧ 16 ≤ fRd (wordOf .rsig) ∧ (opA s 0 (fl (wordOf .rsig))).toNat = 127 ∧
    (hostOf s 127).isSome = true ∧ (stn s 0).outq.length < 8 ∧
    retiring .rsig (atW w) (fl w) = true ∧ fRd w < 16 ∧
    retiring .rsig (onT2 (atW (wordOf .rsig) (two 64 0))) (fl (wordOf .rsig)) = true ∧
    hostOf (onT2 (atW (wordOf .rsig) (two 64 0))) 64 = none ∧
    (let s := atW (wordOf .rsig) (two 127 0) { outq := List.replicate 8 ⟨0, 1, false, 16⟩ };
      retiring .rsig s (fl (wordOf .rsig)) = true ∧ (hostOf s 127).isSome = true ∧ 8 ≤ (stn s 0).outq.length) ∧
    (let s := { atW (wordOf .rsig) (two 128 0) with paired := true, peerEn := [(0, 1)] };
      retiring .rsig s (fl (wordOf .rsig)) = true ∧ (opA s 0 (fl (wordOf .rsig))).toNat = 128 ∧ s.paired = true ∧ peerHosts s 0 = true) ∧
    retiring .rsig (atW (wordOf .rsig) (two 256 0)) (fl (wordOf .rsig)) = true ∧
    (opA (atW (wordOf .rsig) (two 256 0)) 0 (fl (wordOf .rsig))).toNat = 256 := by decide +kernel

/-- NOP, BRK unarmed and armed, SETVL of 65, PARK. -/
theorem witness_system : (∀ op ∈ [SOp.nop, .brk, .setvl, .park], retiring op (atW (wordOf op) (two 65 0)) (fl (wordOf op)) = true) ∧
    (stn (atW (wordOf .brk)) 0).brkArmed = false ∧ (stn (atW (wordOf .park)) 0).stepThread ≠ some 0 ∧
    (stn (atW (wordOf .brk) {} { brkArmed := true }) 0).stepThread ≠ some 0 ∧
    retiring .brk (atW (wordOf .brk) {} { brkArmed := true }) (fl (wordOf .brk)) = true ∧
    (stn (atW (wordOf .brk) {} { brkArmed := true }) 0).brkArmed = true := by decide +kernel

/-- RDSR of every number, and of 7. -/
theorem witness_rdsr : ∀ n ∈ [0, 1, 2, 3, 4, 5, 6, 7], retiring .rdsr (atW (wordOf .rdsr + 2048 * n)) (fl (wordOf .rdsr + 2048 * n)) = true ∧
    fRb (wordOf .rdsr + 2048 * n) = n := by decide +kernel

/-- A chain of thread 0 in flight. -/
def oneChain : Station := { chains := [{ thread := 0, raw := 1 }] }
/-- CPOS with no chain; CSTAT with none and with one; PSTAT of every selector; PCLR and PCANCEL. -/
theorem witness_status : retiring .cpos (atW (wordOf .cpos)) (fl (wordOf .cpos)) = true ∧ chainOf (stn (atW (wordOf .cpos)) 0) 0 = none ∧
    retiring .cstat (atW (wordOf .cstat)) (fl (wordOf .cstat)) = true ∧
    retiring .cstat (atW (wordOf .cstat) {} oneChain) (fl (wordOf .cstat)) = true ∧
    (chainOf (stn (atW (wordOf .cstat) {} oneChain) 0) 0).isSome = true ∧
    (∀ n ∈ [0, 1, 2, 3, 4, 5, 6, 7], retiring .pstat (atW (wordOf .pstat + 2048 * n)) (fl (wordOf .pstat + 2048 * n)) = true ∧
      fSel (wordOf .pstat + 2048 * n) = n) ∧
    (∀ op ∈ [SOp.pclr, .pcancel], retiring op (atW (wordOf op)) (fl (wordOf op)) = true) := by decide +kernel

/-- Channel 3 with 15 descriptors. -/
def fifteen : Station := { chans := [(3, { queue := List.replicate 15 (1, false) })] }
/-- PISSUE of the last descriptor of general storage onto 15; of a misaligned one; and of one above general storage. -/
theorem witness_pissue : let at_ (a : Nat) := atW (wordOf .pissue) (two a 0) fifteen
    (∀ a ∈ [spillBase - 64, 0], retiring .pissue (at_ a) (fl (wordOf .pissue)) = true ∧
      (opA (at_ a) 0 (fl (wordOf .pissue))).toNat % 64 = 0 ∧ (opA (at_ a) 0 (fl (wordOf .pissue))).toNat + 64 ≤ spillBase ∧
      (at_ a).cistErr = [] ∧ (getChan (stn (at_ a) 0) 3).queue.length = 15 ∧ (getChan (stn (at_ a) 0) 3).active = none) ∧
    (retiring .pissue (at_ 32) (fl (wordOf .pissue)) = true ∧ (opA (at_ 32) 0 (fl (wordOf .pissue))).toNat % 64 ≠ 0) ∧
    (retiring .pissue (at_ spillBase) (fl (wordOf .pissue)) = true ∧
      spillBase < (opA (at_ spillBase) 0 (fl (wordOf .pissue))).toNat + 64) := by decide +kernel

/-- PSETW, SLOTW, SLOTR and NCUCNT of every field code of their tables, and of the first beyond it. -/
theorem witness_numeric_state : let w (op : SOp) (f : Nat) := wordOf op + 8192 * f
    (∀ f ∈ List.range 12, retiring .psetw (atW (w .psetw f)) (fl (w .psetw f)) = true ∧ fField (w .psetw f) = f) ∧
    (∀ f ∈ [0, 1, 2, 3, 4, 5], retiring .slotw (atW (w .slotw f)) (fl (w .slotw f)) = true ∧ fField (w .slotw f) = f) ∧
    (∀ f ∈ List.range 13, retiring .slotr (atW (w .slotr f)) (fl (w .slotr f)) = true ∧ fField (w .slotr f) = f) ∧
    (∀ f ∈ [0, 1, 2], retiring .ncucnt (atW (w .ncucnt f)) (fl (w .ncucnt f)) = true ∧ fField (w .ncucnt f) = f) := by decide +kernel

/-- A step close handed off by thread 0, and one whose boundary has been made. -/
def closing (done : Bool) : State :=
  setStn State.reset 0 { setThr { closing := some (0, done) } 0 { st := .run } with pipe := [⟨0, 9, wordOf .stepclose, true⟩] }
theorem witness_stepclose : retiring .stepclose (atW (wordOf .stepclose)) (fl (wordOf .stepclose)) = true ∧
    (stn (atW (wordOf .stepclose)) 0).closing = none ∧
    engineOn (closing false) 0 = true ∧ (stn (closing false) 0).closing = some (0, false) ∧
    slotInFlight (stn (closing false) 0) = false ∧ (stn (setStn State.reset 0 { closing := some (0, false), slotPend := [(63, 2, 16)] }) 0).slotPend = [(63, 2, 16)] := by decide +kernel

-- vector engine

/-- Unit 0 with a vector instruction at retirement, VL 64 and s1 = 7, and one place of the engine taken. -/
def atVec (op : SOp) : State := atW (wordOf op) { vl := 64, regs := [(1, 7)] } { vq := [⟨wordOf .mset, 64, 0, 1, 0, none, 0⟩] }
/-- Every vector instruction with one place free; those that wait for leave are legal, and one request of the station stands. -/
theorem witness_vector_queue :
    (∀ op ∈ (freeVectorOps ++ leaveVectorOps).map (·.2), retiring op (atVec op) (fl (wordOf op)) = true ∧ vecPlaces (stn (atVec op) 0) < 2) ∧
    (∀ op ∈ leaveVectorOps.map (·.2), vecLegal op (wordOf op) (thr (stn (atVec op) 0) 0).vl = true ∧
      outstanding (atVec op) (lstn (atVec op) 0) < 2) := by decide +kernel

/-- A unit whose engine is free, with a command at the head of its queue. -/
def headed (op : SOp) : State := setStn State.reset 0
  { vq := [⟨wordOf op, 64, 7, 1, 0, none, 0⟩], masks := [(0, 5), (63, 6), (128, 3), (191, 0x8000000000000000)], trf := [(49152, 1), (57344, 2), (65535, 9)], side := [(10512, 3)], ev := [(16, 0xFFFFFFFF)] }
/-- A unit whose engine runs a command. -/
def occupied : State := setStn State.reset 0 { vexec := some ⟨wordOf .vadd, 64, 0, 1, 0, none, 0⟩ }
/-- Every command at the head of a free engine; a command that runs. -/
theorem witness_vector_engine : (∀ op ∈ [SOp.vadd, .mand, .mor, .mxor, .mnot, .mset, .zero, .vfence], (stn (headed op) 0).vexec = none ∧
      (stn (headed op) 0).vq = [⟨wordOf op, 64, 7, 1, 0, none, 0⟩] ∧ sop (wordOf op) = some op ∧ engineOn (headed op) 0 = true ∧
      (stn (headed op) 0).trfErr = [] ∧ (stn (headed op) 0).trfFree = [] ∧ claimOf (stn (headed op) 0) (bits (wordOf op) 25 21) = none) ∧
    (stn occupied 0).vexec.isSome = true ∧ engineGoes occupied 0 = true := by decide +kernel

-- matrix arrays

/-- Array 7 with seven queued commands, and BF16 weights of KSEL 0 in the last shift. -/
def sevenQ : Station := { arrs := [(7, { q := List.replicate 7 { word := wordOf .mshift, shift := true, bank := 1 }, lastW := some (1, 0) })] }
/-- MSHIFT and MPASS with one place free in the array's queue. -/
theorem witness_array_issue : let s (op : SOp) := atW (wordOf op) {} sevenQ
    (∀ op ∈ [SOp.mshift, .mpass], retiring op (s op) (fl (wordOf op)) = true ∧
      (getArr (stn (s op) 0) (bits (wordOf op) 25 23)).q.length = 7 ∧ outstanding (s op) (lstn (s op) 0) < 2) ∧
    fmtOf (bits (wordOf .mshift) 17 13) = some .bf16 ∧ kselOk .bf16 (bits (wordOf .mshift) 12 11) = true ∧
    (mpassMode (getArr (stn (s .mpass) 0) (bits (wordOf .mpass) 25 23)) (wordOf .mpass)).isSome = true ∧
    bits (wordOf .mpass) 22 18 / 2 ≠ bits (wordOf .mpass) 17 14 := by decide +kernel

/-- Array 7 with a shift and a pass of the other bank, each in the phases given, each signalling event 16. -/
def arrayAt (a b : APhase) : State := setStn State.reset 0 { ev := [(16, 0xFFFFFFFF)], arrs := [(7,
  { q := [{ word := wordOf .mshift + 2 ^ 10 + 16 * 2 ^ 5, shift := true, bank := 1, phase := a },
          { word := wordOf .mpass + 2 ^ 7 + 16 * 2 ^ 2, shift := false, bank := 0, phase := b }], lastW := some (1, 0) })] }
/-- A shift and a pass that can start; both running. -/
theorem witness_array_commands : let a := getArr (stn (arrayAt .queued .queued) 0) 7
    let b := getArr (stn (arrayAt .running .drained) 0) 7
    engineOn (arrayAt .queued .queued) 0 = true ∧ engineOn (arrayAt .running .drained) 0 = true ∧ nextCmd a true = some 0 ∧ shiftReady a 0 = true ∧ nextCmd a false = some 1 ∧
    passReady a 1 = true ∧ (a.q[0]?).bind (fun c => fmtOf (bits c.word 17 13)) = some .bf16 ∧
    claimants (stn (atW (wordOf .mshift) {} sevenQ) 0) (bits (wordOf .mshift) 25 23) = [] ∧
    b.q.findIdx? (fun c => c.shift && c.phase != .queued) = some 0 ∧ b.q.findIdx? (fun c => !c.shift && c.phase != .queued) = some 1 := by
  decide +kernel

-- chains

/-- A command block: chain, M − 1, N − 1, K and further fields; BF16 operands, BF16 output at 1 MiB. -/
def block (id m n k more : Nat) : Nat :=
  id + 2 ^ 4 + 2 ^ 20 + 2 ^ 25 + 2 ^ 30 + 2 ^ 35 + 4096 * 2 ^ 192 + 8192 * 2 ^ 224 + 2 ^ 20 * 2 ^ 288 + m * 2 ^ 352 + n * 2 ^ 368 + k * 2 ^ 384 + more
/-- A GEMM of one element; an ATTN_PAGED of two pages with scale 1; a GATHER_GEMM; the root of a REDUCE_GEMM with no part of its own. -/
def gemm : Nat := block 1 0 0 1 (16 * 2 ^ 13)
def attn : Nat := block 6 0 63 64 (16 * 2 ^ 13 + 0x3F800000 * 2 ^ 256 + 2 ^ 400)
def gather : Nat := block 7 0 0 4 (16 * 2 ^ 13 + 16 * 2 ^ 256)
def reduce : Nat := block 8 0 0 0 (16 * 2 ^ 13 + 16 * 2 ^ 256 + 4096 * 2 ^ 448)
/-- Unit 0 with one chain of thread 0, counters 16 to 19 at 1. -/
def withChain (c : ChainRec) : State := setStn State.reset 0 { chains := [c], ev := [(16, 1), (17, 1), (18, 1), (19, 1)] }
def started (raw : Nat) : ChainRec := { thread := 0, raw := raw, started := true }

/-- CHAIN of the last block of general storage, which holds the GEMM. -/
def chainAt : State := { atW (wordOf .chain) (two (spillBase - 64) 0) with cist := (leBytes 64 gemm).mapIdx (fun k b => (spillBase - 64 + k, b)) |>.filter (fun p => p.2 != 0) }
theorem witness_chain_issue : retiring .chain chainAt (fl (wordOf .chain)) = true ∧ (opA chainAt 0 (fl (wordOf .chain))).toNat = spillBase - 64 ∧
    chainOf (stn chainAt 0) 0 = none ∧ outstanding chainAt (lstn chainAt 0) < 2 ∧ chainAt.cistErr = [] ∧
    leNat ((List.range 64).map (fun k => cistByte chainAt (gaddr 0 (spillBase - 64) + k))) = gemm ∧
    chainRefused chainAt 0 gemm = false := by decide +kernel

/-- CABORT with a chain in flight and with none; CHAIN of a misaligned block and of one above general storage; a chain that can start; one that has ended, and one whose tiles are all done. -/
theorem witness_chain_status : retiring .cabort (atW (wordOf .cabort) {} oneChain) (fl (wordOf .cabort)) = true ∧
    (chainOf (stn (atW (wordOf .cabort) {} oneChain) 0) 0).isSome = true ∧
    retiring .cabort (atW (wordOf .cabort)) (fl (wordOf .cabort)) = true ∧ chainOf (stn (atW (wordOf .cabort)) 0) 0 = none ∧
    (∀ a ∈ [spillBase - 32, spillBase], let s := atW (wordOf .chain) (two a 0); retiring .chain s (fl (wordOf .chain)) = true ∧
      ((opA s 0 (fl (wordOf .chain))).toNat % 64 ≠ 0 ∨ spillBase < (opA s 0 (fl (wordOf .chain))).toNat + 64)) ∧
    (let s := withChain { thread := 0, raw := gemm }
     chainOf (stn s 0) 0 = some { thread := 0, raw := gemm } ∧ engineOn s 0 = true ∧
     windowFree 0 [] (stn s 0).chains = true) ∧
    (∀ c ∈ [{ started gemm with ended := some 0x13 }, { started gemm with pos := 1 }, { started gemm with abort := true }],
      chainOf (stn (withChain c) 0) 0 = some c ∧ (chainStatus (withChain c) 0 c).isSome = true ∧ notifyPending (withChain c) 0 c.raw = false ∧
      engineOn (withChain c) 0 = true) := by
  decide +kernel

/-- Chains that can take a page, a share of the last source, a row group, and an output tile. -/
theorem witness_chain_parts :
    (let c := { started attn with leave := [(2, 5)] }
     chainOf (stn (withChain c) 0) 0 = some c ∧ engineOn (withChain c) 0 = true ∧ pageReadReady (withChain c) 0 c = true ∧
     ncuTurn (withChain c) 0 false = some 4) ∧
    (let c := started gather
     chainRuns (withChain c) 0 c = true ∧ cId gather = 7 ∧ groupDies (withChain c) = 4 ∧ 0 < cGroups gather ∧ 3 * 65536 + 0 ∉ c.shares ∧
     1 ≤ (evGet (stn (withChain c) 0) (cRevt gather + 3)).toNat) ∧
    (let c := started reduce
     chainRuns (withChain c) 0 c = true ∧ cIsRoot (withChain c) 0 reduce = true ∧ partialPhase (withChain c) 0 c = false ∧
     c.pos / cCols reduce = 0 ∧ 0 ∉ c.combined ∧ ∀ d ∈ List.range (groupDies (withChain c)), 1 ≤ (evGet (stn (withChain c) 0) (cRevt reduce + d)).toNat) ∧
    (let c := { started gemm with leave := [(0, 5), (1, 5)] }
     chainTileReady (withChain c) 0 c = true ∧ ncuTurn (withChain c) 0 true = some 4 ∧ tileLoads (withChain c) 0 c = true ∧
     ncuTurn (withChain c) 0 false = some 4 ∧ partialPhase (withChain c) 0 c = false) := by decide +kernel

-- pumps

/-- A descriptor that copies one BF16 element from address 0 of a space (0 the well, 1 the cistern) to 4 KiB of the cistern; event 16, TAG 9. -/
def desc (src : Nat) : Nat := 1 + 16 * src + 64 + 2 ^ 8 + 2 ^ 13 + 16 * 2 ^ 18 + 9 * 2 ^ 40 + 4096 * 2 ^ 104
/-- Unit 0 with channel 3 as given, and counter 16 at its last value. -/
def channel3 (c : Chan) : State := setStn State.reset 0 { chans := [(3, c)], ev := [(16, 0xFFFFFFFF)] }
/-- The oldest of two descriptors, valid, cancelled and refused (operation 0); descriptors that have ended and that are done. -/
theorem witness_descriptors :
    (∀ d ∈ [(desc 1, false), (desc 1, true), (desc 1 - 1, false)], (getChan (stn (channel3 { queue := [d, (7, false)] }) 0) 3).queue = [d, (7, false)] ∧
      (getChan (stn (channel3 { queue := [d, (7, false)] }) 0) 3).active = none ∧ engineOn (channel3 { queue := [d, (7, false)] }) 0 = true) ∧
    dValidate (channel3 {}) 0 (desc 1) = 0 ∧ dValidate (channel3 {}) 0 (desc 1 - 1) = 2 ∧
    (∀ a ∈ [({ raw := desc 1, pos := 1 } : Active), { raw := desc 1, ended := some 0x13, pos := 2 ^ 40 - 1 }, { raw := desc 1, cancel := true }],
      (completes a).isSome = true) ∧
    completes { raw := desc 1, pos := 1 } = some 0 := by decide +kernel

/-- A descriptor whose block is next; one of the well with its leave in hand and its turn, and one whose tile is out, which may time out;
a page of the ATTN_PAGED chain that may. -/
theorem witness_pump_block : engineOn (channel3 { active := some { raw := desc 1 } }) 0 = true ∧
    ncuTurn (channel3 { active := some { raw := desc 1 } }) 0 (dEgress 0 (desc 1)) = some 3 ∧
    (∀ a ∈ [({ raw := desc 0, leaveBytes := 64 } : Active), { raw := desc 1, sip := { tiles := [{}], phase := 3 } }],
      (getChan (stn (channel3 { active := some a }) 0) 3).active = some a ∧ outstandingLow (channel3 { active := some a }) 0 3 a = true) ∧
    (let c := { started attn with leave := [(2, 5)] };
      pageReadReady (withChain c) 0 c = true ∧ ncuTurn (withChain c) 0 false = some 4 ∧ engineOn (withChain c) 0 = true) := by decide +kernel

-- threads

/-- Thread 3 in RUN at the last program address, where the word given stands with the mark given. -/
def issuing (w : Nat) (m : Tab Mark) : State := setStn State.reset 0
  { setThr {} 3 { st := .run, pc := 16383 } with pm := [(16383, BitVec.ofNat 32 w)], pmErr := m, lastIssue := 2 }
/-- A legal word, and one with a single-bit error; at retirement an illegal word, and one with an uncorrectable error. -/
theorem witness_issue : (∀ s ∈ [issuing (wordOf .add) [], issuing (wordOf .add) [(16383, .single)]],
      (issueOrder (stn s 0).lastIssue).find? (eligible (stn s 0)) = some 3 ∧ unitRuns s 0 = true ∧ badHead (stn s 0) = none ∧
      reg s Reg.pmCe < 2 ^ 32 - 1) ∧
    pmMark (stn (issuing (wordOf .add) []) 0) 16383 = none ∧
    pmMark (stn (issuing (wordOf .add) [(16383, .single)]) 0) 16383 = some .single ∧
    (∀ m ∈ [[], [(16383, Mark.bad false)]], let s := atW 0xFFFFFFFF {} { pmErr := m };
      unitRuns s 0 = true ∧ badHead (stn s 0) = some 0 ∧ front (stn s 0) 0 = some (fl 0xFFFFFFFF) ∧ pmBad (stn s 0) 16383 = (m != [])) := by
  decide +kernel

/-- An instruction of thread 0 held at retirement, in a station as given. -/
def holding (w : Nat) (h : Thread) (x : Station) : State :=
  setStn State.reset 0 { setThr x 0 { h with st := .run } with pipe := [{ fl w with held := true }] }
/-- A held RSIG with seven signals queued, and a held STEPCLOSE whose boundary is made. -/
theorem witness_held : let a := holding (wordOf .rsig) (two 127 0) { outq := List.replicate 7 ⟨0, 1, false, 16⟩ };
    let b := holding (wordOf .stepclose) {} { closing := some (0, true) };
    (∀ s ∈ [a, b], (front (stn s 0) 0).isSome = true ∧ (front (stn s 0) 0).map (·.held) = some true ∧ unitRuns s 0 = true ∧ (thr (stn s 0) 0).st = .run) ∧
    (stn a 0).outq.length < 8 ∧ (hostOf a 127).isSome = true ∧ (stn b 0).closing = some (0, true) := by decide +kernel

/-- Thread 0 trapped with a transient cause, at the head of the trap context's queue, one group spilled before. -/
def transient (w cause spill : Nat) (stack : List Nat) : State := setStn State.reset 0
  { setThr {} 0 { st := .trapped, cause := cause, spill := spill, stack := stack } with pipe := [{ fl w with held := true }], trapQ := [0, 2] }
/-- A CALL_SPILL into the last group, and a RET_FILL of the first. -/
theorem witness_trap_context : (let s := transient (wordOf .call) 1 127 (List.replicate 16 5);
      (stn s 0).trapQ = [0, 2] ∧ (front (stn s 0) 0).bind (fun i => sop i.word) = some .call ∧ isResident s 0 = true ∧
      (stn s 0).inReset = false ∧ (thr (stn s 0) 0).st = .trapped ∧ (thr (stn s 0) 0).stack.length = 16 ∧ s.cistErr = []) ∧
    (let s := transient (wordOf .ret) 2 1 [];
      (stn s 0).trapQ = [0, 2] ∧ (front (stn s 0) 0).isSome = true ∧ (thr (stn s 0) 0).st = .trapped ∧ (thr (stn s 0) 0).cause = 2) := by
  decide +kernel

/-- Thread 0 in RUN before an instruction, under a park request. -/
def toPark (op : SOp) : State := setStn State.reset 0
  { setThr {} 0 { st := .run, pc := 16383 } with pm := [(16383, BitVec.ofNat 32 (wordOf op))], parkReq := true }
/-- Threads before each park point; a waiting thread; a station that is stopped, and one that is not; its resume. -/
theorem witness_parks : (∀ op ∈ [SOp.chain, .ewait, .stepclose, .park], unitRuns (toPark op) 0 = true ∧ (stn (toPark op) 0).parkReq = true ∧
      (stn (toPark op) 0).stepThread = none ∧ chainOf (stn (toPark op) 0) 0 = none ∧ (thr (stn (toPark op) 0) 0).st = .run ∧
      inFlight (stn (toPark op) 0) 0 = [] ∧ sop (pmWord (stn (toPark op) 0) (thr (stn (toPark op) 0) 0).pc) = some op ∧
      pmBad (stn (toPark op) 0) 16383 = false ∧ (stn (toPark op) 0).frozen = false ∧ (toPark op).tap.scan = false) ∧
    (let s := modStn waiting 0 (fun x => { x with parkReq := true });
      unitRuns s 0 = true ∧ (stn s 0).parkReq = true ∧ (thr (stn s 0) 0).st = .wait ∧ (front (stn s 0) 0).isSome = true) ∧
    (hostOf (toPark .park) 0).isSome = true ∧ allStopped (stn (toPark .park) 0) = false ∧ allStopped (stn State.reset 127) = true ∧
    (hostOf State.reset 127).isSome = true ∧ (stn State.reset 127).pmHeld = [] ∧ (thr (stn State.reset 127) 0).st = .parked := by decide +kernel

/-- A station whose one running thread waits for what cannot come, at its cycle limit. -/
def deadlocked : State := setStn State.reset 0 { setThr {} 0 { st := .wait, waitEv := 15, waitTarget := 1 } with deadCnt := 7, deadLim := 7 }
theorem witness_deadlock : isResident deadlocked 0 = true ∧ (stn deadlocked 0).inReset = false ∧ (stn deadlocked 0).frozen = false ∧
    stuck (stn deadlocked 0) = true ∧ 0 < (stn deadlocked 0).deadCnt ∧ (stn deadlocked 0).deadLim ≤ (stn deadlocked 0).deadCnt ∧
    reg deadlocked Reg.deadCnt < 2 ^ 32 - 1 := by decide +kernel

/-- A part whose die 0 has 31 stations, so that the first hosts units 0 and 31. -/
def shared : State := { State.reset with regs := tabSet 0 State.reset.regs Reg.mapDieEn 0xFFFFFFFE }
/-- The last station, out of reset and in it with nothing of it on its way; a host of two units, either resident, whose other unit has a
running thread. -/
theorem witness_station_resets : 127 < stationsEnabled State.reset ∧ State.reset.tap.scan = false ∧ (∀ u ∈ unitsOf State.reset 127, (stn State.reset u).inReset = false) ∧
    (let s := setStn State.reset 127 { inReset := true, trf := [(5, 9)] };
      (∀ u ∈ unitsOf s 127, (stn s u).inReset = true ∧ drained (stn s u) = true ∧ delivered s u = true) ∧ s.boot.ctrlRun = false) ∧
    (let s := setStn shared 31 (setThr {} 0 { st := .run });
      unitsOf s 0 = [0, 31] ∧ residentUnit s 0 = 0 ∧ mayYield (stn s 0) = true ∧ runnable s 31 = true) ∧
    (let s := { setStn shared 0 (setThr {} 0 { st := .run }) with resident := [(0, 1)] };
      unitsOf s 0 = [0, 31] ∧ residentUnit s 0 = 31 ∧ mayYield (stn s 31) = true ∧ runnable s 0 = true) := by decide +kernel

-- memory errors

/-- LW of word 0 with a single-bit error; a write-back due; beats of the well with each kind of error, and their re-reads. -/
theorem witness_memory_errors :
    (let s := { atW (wordOf .lw) (two 8 0) with cist := [(4, 7)], cistErr := [(0, .single)] };
      retiring .lw s (fl (wordOf .lw)) = true ∧ localAddr s 0 (fl (wordOf .lw)) = 4 ∧
      s.cistErr.find? (fun p => p.1 == gaddr 0 4 / 8) = some (gaddr 0 4 / 8, .single) ∧ reg s Reg.cistCe < 2 ^ 32 - 1) ∧
    (let a := 3 * 2 ^ 37 + wellEnd - 32; let s := { State.reset with gov := { hubLeave := 32 } };
      a % 32 = 0 ∧ wellDie a < dies s ∧ wellOff a < wellEnd ∧ s.reread = none ∧ s.gov.ps = .p0 ∧ hubReady s 32 = true ∧
      s.wellErr.find? (fun p => p.1 == a / 32) = none) ∧
    (let s := { State.reset with cistWb := [5], cistErr := [(5, .single)] }; 5 ∈ s.cistWb) ∧
    (∀ m ∈ [BeatMark.stack, .single, .bad [.clean], .bad []],
      ({ State.reset with wellErr := [(3, m)], reread := some (3, 1, 2) }.wellErr.find? (fun p => p.1 == 96 / 32)) = some (3, m)) ∧
    ([ReRead.clean].getD 0 .bad ≠ .bad ∧ ([] : List ReRead).getD 1 .bad = .bad ∧
      [Reg.stackEcc, Reg.wellCe, Reg.wellRetry, Reg.wellUe].all (fun r => reg State.reset r == 0)) := by decide +kernel

-- signals, tiles and links

/-- A part whose die links are UP. -/
def linked (s : State) : State := { s with dieUp := 255 }
/-- Unit 0 with a signal to a unit in its queue. -/
def sending (v : Nat) (x : Bool) : State := setStn State.reset 0 { outq := [⟨0, v, x, 16⟩] }
/-- An arrival at die 0 alone. -/
def arrived (a : ArrKind) : State := { State.reset with arrivals := [⟨false, 100, 0, 0, a⟩] }
/-- Signals to the own die, over a route that is down, and over one that is UP; signals at a resident unit, at one that is not, and at one
in reset. -/
theorem witness_signals : (stn (sending 31 false) 0).outq = [⟨0, 31, false, 16⟩] ∧ (stn (sending 31 false) 0).chains = [] ∧
    routeUp (sending 127 false) (route (sending 127 false) 0 3 false) = false ∧ (route (sending 127 false) 0 3 false) ≠ [] ∧
    (let s := linked (sending 127 false);
     routeUp s (route s 0 3 false) = true ∧ (∀ h ∈ (route s 0 3 false).head?, h < 16 ∧ (hop s h).sendq = [] ∧ (hop s h).unacked.length < 64)) ∧
    (let s := arrived (.signal 31 16); behindTile s 0 ⟨false, 100, 0, 0, .signal 31 16⟩ = false ∧ (hostOf s 31).isSome = true ∧
      (stn s 31).inReset = false ∧ isResident s 31 = true) ∧
    isResident { arrived (.signal 31 16) with regs := shared.regs } 31 = false ∧
    (stn (setStn (arrived (.signal 31 16)) 31 { inReset := true }) 31).inReset = true := by decide +kernel

/-- A tile of four bytes for unit 32, from channel 3 of unit 0. -/
def tile4 : Tile := { dst := 32, addr := 2 ^ 22, rowBytes := 4, rows := 1, data := [1, 2, 3, 4], src := 0, req := 3 }
/-- A tile with its leave and its turn, landed, and acknowledged. -/
theorem witness_siphon : (let s := linked (channel3 { active := some { raw := desc 1, sip := { tiles := [tile4], phase := 2 } } });
      sipOf (stn s 0) 3 = some { tiles := [tile4], phase := 2 } ∧ isResident s 0 = true ∧
      ∀ h ∈ (route s 0 1 false).head?, sendReady s 0 3 h = true ∧ (hop s h).sendq = [] ∧ linkTurn s h = some (lstn s 0)) ∧
    route (linked State.reset) 0 1 false ≠ [] ∧ tile4.data.length = tile4.rowBytes ∧ tile4.addr < 2 ^ 23 ∧
    (let s := { linked State.reset with arrivals := [⟨false, 0, 0, 1, .tile tile4⟩] }; s.cistErr = [] ∧ backRoute s 1 0 false ≠ [] ∧ watched (stn s 0) = []) ∧
    (let s := { linked (channel3 { active := some { raw := desc 1, sip := { tiles := [tile4], phase := 3 }, marks := [1] } }) with
        arrivals := [⟨false, 1, 1, 0, .landed 0 3 0⟩], credits := [(1, 5)] };
      (getChan (stn s 0) 3).active.isSome = true ∧ (stn s 0).inReset = false ∧ farDie (1 % 4) false = 1 ∧ tileDie tile4 = 1 ∧ (0, 3, 1) ∉ s.orphans) := by decide +kernel

/-- Hop 15 of die link 7, UP, which expects flit 4095, with a signal flit on the wire under the number given. -/
def wireAt (n : Nat) : State := { linked State.reset with
  hops := [(15, { wire := [{ type := 3, seq := n, srcDie := 2, dstDie := 2, payload := signalPayload 64 16 false }], expect := 4095 })] }
/-- A flit expected and one accepted before. -/
theorem witness_flits : (∀ n ∈ [4095, 4094, 2047], linkUp (wireAt n) 7 = true ∧ (hop (wireAt n) 15).wire.length = 1 ∧
      (hopEnd (wireAt n) 15).isSome = true ∧ (∀ f ∈ (hop (wireAt n) 15).wire, f.ackV = false ∧ 16 ≤ (f.payload.getD 1 0).toNat % 32) ∧
      (hop (wireAt n) 15).nak = none) ∧ 2048 ≤ (4094 + 4096 - 4095) % 4096 ∧ 2048 ≤ (2047 + 4096 - 4095) % 4096 ∧
    reg (wireAt 0) Reg.linkCrc < 2 ^ 32 - 1 := by decide +kernel

/-- Hop 15 with two unacknowledged flits of the replay counts given; the other direction carries a NAK of the second, and owes an ACK. -/
def unacked (n : Nat) : State := { linked State.reset with
  hops := [(14, { wire := [{ type := 5, payload := leBytes 2 4095 }], ackDue := true, lastAcc := some 17 }),
    (15, { unacked := [({ type := 3, seq := 4094 }, 0), ({ type := 3, seq := 4095 }, n)] })] }
/-- Replays, the fourth, the NAK, the ACK; links that are UP and down. -/
theorem witness_links : (∀ n ∈ [2, 3], (hop (unacked n) 15).unacked ≠ [] ∧ linkUp (unacked n) 7 = true ∧ reg (unacked n) Reg.linkReplay < 2 ^ 32 - 1 ∧
      reg (unacked n) Reg.linkDown < 2 ^ 32 - 1) ∧ opp 15 = 14 ∧
    (hop (unacked 2) 15).unacked.findIdx? (fun p => p.1.seq == leNat (leBytes 2 4095) % 4096) = some 1 ∧
    (hop (unacked 2) (opp 15)).ackDue = true ∧ (hop (unacked 2) (opp 15)).lastAcc = some 17 ∧
    (let s := { State.reset with regs := tabSet 0 State.reset.regs Reg.bootStatus 7 };
      linkUp s 7 = false ∧ s.gov.ps ≠ .p3 ∧ reg s Reg.bootStatus % 16 = 7) := by decide +kernel

/-- Both Extium Links in a state, ENABLE and AUTO_RETRAIN set. -/
def extium (a b : ExtSt) : State := { State.reset with ext := [(0, { st := a }), (1, { st := b })], regs := tabSet 0 State.reset.regs Reg.pairCtl 5 }
/-- ENABLE over 0; links in each state of training, UP and down; a training under way; a held pairing. -/
theorem witness_extium : State.reset.part.variant = 0 ∧ regBit State.reset Reg.pairCtl 0 = false ∧
    (∀ a ∈ [ExtSt.detect, .equalize, .align, .pair, .up, .down], (getExt (extium a .up) 0).st = a) ∧ role State.reset = 0 ∧
    (getExt (extium .pair .up) 1).peer = none ∧ regBit (extium .up .up) Reg.pairCtl 0 = true ∧ regBit (extium .up .up) Reg.pairCtl 2 = true ∧
    (extium .up .up).gov.ps = .p0 ∧
    (let s := { extium .align .pair with floats := [(5, { op := 7, st := 1 })], trainLinks := 3 }; (getFloat s 5).st = 1 ∧ s.trainLinks ≠ 0) ∧
    (let s := { extium .up .up with paired := true }; (getExt s 0).st = .up ∧ s.paired = true) ∧
    (let s := { extium .down .up with held := true, paired := true, credits := [(1, 3)] }; s.held = true ∧ s.gov.ps ≠ .p3 ∧ (getExt s 0).st ≠ .up) := by
  decide +kernel

-- power

/-- The part in a power state with a transition asked for, and a VID code. -/
def moving (ps : PState) (tgt : Option PState) (vid : Nat) : State :=
  { State.reset with gov := { ps := ps, busy := tgt }, pins := { State.reset.pins with vid := vid } }

/-- Registers set over the reset values. -/
def setRegs (s : State) (l : List (Nat × Nat)) : State := { s with regs := l.foldl (fun r p => tabSet 0 r p.1 (BitVec.ofNat 32 p.2)) s.regs }
/-- A leave request of one unit of cost entry 5, which fits in a budget of 2^20. -/
def asking (id cls : Nat) : LReq := { id := id, cls := cls, requester := 128, unit := 0, what := .hub 1 1024, units := [(5, 1)] }
def granting2 (l : List LReq) (last : Nat) : State :=
  { State.reset with gov := { reqs := l, nextId := 9, lastClass := last, budget := 2 ^ 20, budgetNoDebt := 2 ^ 20 } }
/-- Windows with and without grants; the hub's access to the last bytes of the well; a span of a pump; one head that fits, and two. -/
theorem witness_leave : State.reset.gov.ps ∈ [PState.p0, .p1] ∧ State.reset.gov.band = 0 ∧ (moving .p2 none 30).gov.ps ∉ [PState.p0, .p1] ∧
    (let a := 3 * 2 ^ 37 + wellEnd - 65536; wellDie a < dies State.reset ∧ wellOff a + 65536 ≤ wellEnd ∧ outstanding State.reset 128 < 2) ∧
    (let s := channel3 { active := some { raw := desc 0, leaveBytes := 32768 } };
      engineOn s 0 = true ∧ (getChan (stn s 0) 3).active.isSome = true ∧ needsWell (desc 0) = true ∧ outstanding s (lstn s 0) < 2 ∧ spanNext 0 (stn s 0) { raw := desc 0, leaveBytes := 32768 } ≠ 0 ∧
      s.gov.reqs.any (reqOfSpan 0 3) = false) ∧
    (let s := granting2 [asking 1 4] 4; s.gov.stackStop = [] ∧ mayGrant s = true ∧ costOf [(5, 1)] (isEco s.gov.ps) ≤ s.gov.budget - s.gov.spent ∧
      costOf [(5, 1)] (isEco s.gov.ps) ≤ s.gov.budgetNoDebt) ∧
    (∀ last ∈ [0, 4], let s := granting2 [asking 1 0, asking 2 4] last; mayGrant s = true ∧ s.gov.lastClass < 5 ∧
      costOf [(5, 1)] (isEco s.gov.ps) ≤ s.gov.budget - s.gov.spent ∧ costOf [(5, 1)] (isEco s.gov.ps) ≤ s.gov.budgetNoDebt ∧ 0 < reg s Reg.leaveStarve) := by
  decide +kernel

/-- No droop stretch, and one; 34 die readings and 8 stack readings, below the trip point and at it (the rounding of 114.875 °C is 115 °C). -/
theorem witness_heat : State.reset.gov.stretch = false ∧ ({ State.reset with gov := { stretch := true } }).gov.stretch = true ∧
    (List.replicate 34 114874).length = 8 * dies State.reset + 2 ∧ (List.replicate 8 45000).length = stackCount State.reset ∧
    (∀ v ∈ List.replicate 34 114874 ++ List.replicate 8 45000, v < 114875) ∧ (114874 + 125) / 250 = 459 ∧ (114875 + 125) / 250 = 460 ∧
    reg State.reset Reg.droopCnt < 2 ^ 32 - 1 ∧ State.reset.gov.ps ∉ [PState.p3, .p4] := by decide +kernel

/-- A request, with and without a transition in progress; each transition; AUTO_IDLE; entry to and exit from P3 by both parts of a pair; a
rise of the VID code; VDD_IO, PWR_OK, the rails and the clock. -/
theorem witness_power_states : State.reset.disp.step = none ∧ State.reset.sec.zero = none ∧ State.reset.disp.prime = .none ∧
    transiting State.reset = false ∧ transiting (moving .p0 (some .p1) 30) = true ∧ (moving .p0 (some .p1) 30).gov.again = false ∧
    State.reset.tap.scan = false ∧ loading (moving .p1 (some .p2) 30) = false ∧
    mayGate (moving .p1 (some .p2) 30) = true ∧ (moving .p1 (some .p0) 20).gov.busy = some .p0 ∧ (moving .p1 (some .p0) 20).pins.vid = 20 ∧
    (let s := { moving .p1 (some .p0) 19 with pins := { State.reset.pins with vid := 19, vidTo := 19 } }; s.pins.vid < 20 ∧ s.pins.vidTo ≤ s.pins.vid) ∧
    (let s := setRegs State.reset [(Reg.pwrCtl, 256)]; regBit s Reg.pwrCtl 8 = true ∧ s.sess = [] ∧ s.gov.busy = none ∧ mayGate s = true ∧ loading s = false) ∧
    (let s := { State.reset with gov := { busy := some .p3, hubLeave := 1 } }; hubReady s 1 = true ∧ s.stns.all (fun p => standbyReady p.2) = true ∧
      isSecondary s = false ∧ loading s = false ∧ s.gov.again = false) ∧
    (let s := { extium .up .up with paired := true, roleNow := true, gov := { hubLeave := 1 } }; isSecondary s = true ∧ (getExt s 0).st = .up ∧
      hubReady s 1 = true ∧ s.stns.all (fun p => standbyReady p.2) = true ∧ loading s = false) ∧
    (let s := moving .p3 (some .p1) 30; s.held = false ∧ s.sec.zpend = none ∧ s.gov.again = false ∧ s.tap.scan = false) ∧
    (let s := { State.reset with pins := { State.reset.pins with vidTo := 31 } }; s.pins.vid < s.pins.vidTo ∧ s.gov.droopSrc = []) ∧
    (let s := { State.reset with pins := { vddIo := true } }; s.pins.pwrOk = false ∧ s.pins.vddIo = true) ∧ State.reset.pins.pwrOk = true ∧
    State.reset.pins.refLost = false := by decide +kernel

-- queue pairs

/-- Queue pair 63 as given, bus mastering and MSI-X on, vector 0 unmasked. -/
def pair63 (q : QPair) : State := { State.reset with qps := [(63, q)], msix := { en := true, busMaster := true, table := [(0, { addrLo := 64, data := 9, masked := false })] } }
/-- Enabled, with one free entry between head and tail; with a completion ring that wraps; disabled; ending; live with one frame; pending. -/
theorem witness_queue_pairs : (let q := getQp (pair63 { enable := true, cqTail := 255, cqHead := 1 }) 63;
      q.enable = true ∧ 255 % 2 ^ q.cqL ≤ q.cqTail ∧ q.cqHead ≤ 1 ∧ q.cqTail < 2 ^ q.cqL ∧ q.cqHead ≤ q.cqTail) ∧
    (let q := getQp (pair63 { enable := true, cqTail := 254 }) 63; q.cqHead ≤ q.cqTail ∧ q.cqTail < 255 % 2 ^ q.cqL) ∧
    (getQp State.reset 63).enable = false ∧ (getQp State.reset 63).ending = false ∧ (getQp (pair63 { ending := true }) 63).ending = true ∧
    (let q := getQp (pair63 { enable := true, st := 1, sqHead := 255 }) 63; qpLive q = true ∧ q.badHead = false ∧ q.sqHead ≠ q.tail ∧ 0 < cqFree q) ∧
    (let s := pair63 { since := 1 }; (getQp s 63).since ≠ 0 ∧ s.msix.en = true ∧ s.msix.fmask = false ∧ s.msix.busMaster = true ∧
      (msixEntry s (getQp s 63).vector).masked = false) ∧
    (let s := { pair63 {} with msix := { en := true, busMaster := true, pend := 2 ^ 63 } }; s.msix.pend = 2 ^ 63 ∧ s.msix.fmask = false) ∧
    (let s := { pair63 {} with sess := [(4095, { isOpen := true, qp := 63 })] }; (getSess s 4095).isOpen = true ∧ (getSess s 4095).qp = 63) ∧
    isSecondary (pair63 {}) = false ∧ (pair63 {}).tap.scan = false ∧ (getSess (pair63 {}) 4095).pend.length < 16 ∧
    (getSess (pair63 {}) 4095).isOpen = false ∧ (getSess (pair63 {}) 4095).closing = false ∧ (getSess (pair63 {}) 4095).faulted = false := by decide +kernel

-- sessions

/-- A frame of session 4095 on queue pair 0. -/
def frame (ty flags len : Nat) (body : List Byte) : Frame := ⟨0, 4095, ty, flags, 7, 0, len, body ++ List.replicate (44 - body.length) 0, 0⟩
/-- A part with an image of 100 tokens and 8 positions in READY, and session 4095 as given, its queue pair live. -/
def serving (x : Sess) : State := { setRegs State.reset [(Reg.imgStatus, 3), (Reg.sessCap, 1), (Reg.bootStatus, 7)] with
  ldr := { image := some { vocab := 100, ctxMax := 8 } }, sess := [(4095, x)], qps := [(0, { enable := true, st := 1 })], text := { loaded := true },
  msix := { busMaster := true } }
/-- A session that is open. -/
def opened : Sess := { isOpen := true, tokens := [1, 2] }
/-- The conditions that every frame at the head of its session's queue meets. -/
def headed2 (s : State) (f : Frame) (own : Bool) : Bool :=
  let x := getSess s 4095
  x.pend == [f] && f.sid == 4095 && x.gen.isNone && !x.busy && x.urgent.isEmpty && x.armed.isEmpty && !x.closing && x.isOpen == own && x.qp == f.qp &&
    qpLive (getQp s f.qp)
/-- OPEN of the last SID; CONFIG of each group; tokens that fit exactly, and one outside the vocabulary; text; GENERATE with and without tokens. -/
theorem witness_frames :
    (let f := frame 1 0 0 []; let s := serving { pend := [f] };
      headed2 s f false = true ∧ 4095 < sessLimit s ∧ imgReady s = true ∧ s.sec.zero = none ∧ openCount s < reg s Reg.sessCap ∧ f.flags.testBit 2 = false) ∧
    (∀ g ∈ [1, 2], let f := frame 2 0 0 (leBytes 4 g ++ leBytes 4 0x41800000 ++ leBytes 8 0 ++ leBytes 4 9); let s := serving { opened with pend := [f] };
      headed2 s f true = true ∧ f.fld 0 1 = g ∧ f.fld 4 4 ≤ 0x41800000) ∧
    (∀ t ∈ [99, 100], let f := frame 4 1 24 ((List.replicate 6 (leBytes 4 t)).flatten); let s := serving { opened with pend := [f] };
      headed2 s f true = true ∧ f.flags.testBit 0 = true ∧ tokenList (f.body.take (min f.len 44)) = List.replicate 6 t ∧
      (getSess s 4095).tokens.length + 6 ≤ (theImage s).ctxMax ∧ 6 ≤ (getSess s 4095).truncLimit) ∧
    (let f := frame 3 1 44 []; let s := serving { opened with pend := [f] };
      headed2 s f true = true ∧ f.len ≤ 44 ∧ textOk s = true ∧ s.text.pipes = [] ∧ s.text.wait = []) ∧
    (∀ x ∈ [opened, { opened with tokens := [] }], let f := frame 5 0 0 []; let s := serving { x with pend := [f] };
      headed2 s f true = true ∧ (getSess s 4095).tokens.length < (theImage s).ctxMax) := by decide +kernel

/-- A pipe that holds text of session 4095. -/
def piped : State := { serving { opened with busy := true } with text := { loaded := true, pipes := [(1, ⟨frame 3 1 0 [], [], [], 0⟩)] } }
theorem witness_pipe : (piped.text.pipes.find? (fun p => p.1 == 1)).isSome = true ∧ piped.text.repair = [] ∧ piped.text.err = [] ∧
    (getSess piped 4095).closing = false ∧ (tokensOf piped.text.sram [] []).1.length = 0 := by decide +kernel

/-- CANCEL, CLOSE, and QUERY of the session and of the device; a CANCEL that is armed. -/
theorem witness_at_once : (∀ p ∈ [(6, 0), (7, 0), (8, 0), (8, 2)], let f := frame p.1 p.2 0 []; let s := serving { opened with urgent := [f] };
      (getSess s 4095).urgent = [f] ∧ (getSess s 4095).closing = false ∧ (getSess s 4095).isOpen = true ∧ (getSess s 4095).qp = f.qp ∧
      s.disp.step = none ∧ (getSess s 4095).busy = false ∧ (getSess s 4095).armed = [] ∧ (getSess s 4095).faulted = false ∧
      (getSess s 4095).outq = [] ∧ qpLive (getQp s 0) = true ∧ (getQp s 0).badHead = false ∧ s.msix.busMaster = true) ∧
    (getSess (serving { opened with armed := [frame 6 0 0 []] }) 4095).armed = [frame 6 0 0 []] := by decide +kernel

/-- Text SRAM with a single-bit error, and a word whose rewrite is due. -/
theorem witness_maintenance : State.reset.gov.ps ∈ [PState.p0, .p1, .p2] ∧ hasText State.reset = true ∧ State.reset.text.err = [] ∧
    (let s := { State.reset with text := { err := [(5, .single)], repair := [5] } }; s.text.err = [(5, .single)] ∧ s.text.repair = [5] ∧
      reg s Reg.textCe < 2 ^ 32 - 1 ∧ s.tap.scan = false) := by decide +kernel

-- images and steps

/-- A part in service with no image, in a lifecycle, whose hub has its leave, and a list of one extent of 4 KiB. -/
def offered (lc : Nat) : State :=
  { setRegs State.reset [(Reg.bootStatus, 7), (Reg.imgListCnt, 1)] with sec := { lifecycle := lc }, gov := { hubLeave := 65536 } }
/-- LOAD not admitted and admitted; UNLOAD; the peer's image; priming due, made, and failed. -/
theorem witness_images : (∀ lc ∈ [0, 1], imgState (offered lc) = 0 ∧ loaderUp (offered lc) = true ∧ (offered lc).gov.ps = .p0 ∧
      65536 ≤ (offered lc).gov.hubLeave ∧ reg (offered lc) Reg.imgListCnt = [(0, 128)].length) ∧
    loadAdmitted (offered 0) = false ∧ loadAdmitted (offered 1) = true ∧ extentsOk [(0, 128)] = true ∧
    (let s := { serving {} with sess := [] }; imgState s = 3 ∧ openCount s = 0 ∧ s.sec.zero = none ∧ reg s Reg.bootStatus % 16 = 7 ∧ s.tap.scan = false) ∧
    (extium .up .up).paired = false ∧ { extium .up .up with paired := true }.paired = true ∧
    (∀ w ∈ [PrimeOf.load, .fault], let s := linked { serving {} with disp := { prime := .due w } };
      s.ldr.image.isSome = true ∧ allParked s = true ∧ s.gov.ps ∈ [PState.p0, .p1] ∧ s.sec.zero = none ∧ s.tap.scan = false ∧
      spokesUp s = true ∧ s.held = false) := by decide +kernel

/-- A part of one station, its links UP, whose image's steps use STEP_EVT 17 and DONE_EVT 16. -/
def stepping (x : Sess) : State := { serving x with
  dieUp := 255,
  part := { fuseEn := [(0, 1)] }, regs := (setRegs (serving x) [(Reg.mapDieEn, 1), (Reg.mapDieEn + 1, 0), (Reg.mapDieEn + 2, 0), (Reg.mapDieEn + 3, 0), (Reg.dispCtl, 1)]).regs,
  ldr := { image := some { vocab := 100, ctxMax := 8, stepEvt := 17, doneEvt := 16, pages := [64], base := [0], kvTok := 1 } } }
/-- A session that waits for its first decode row. -/
def decoding : Sess := { opened with comp := 1, gen := some { frame := frame 5 0 0 [], maxNew := 4, outTok := true }, ready := some 0 }
/-- The step that computes its row. -/
def running1 : State := { stepping decoding with
  disp := { step := some { no := 1, rows := [⟨0, 4095, 0, 2, false, 1, 2⟩], base := [] } },
  stns := (List.range 32).map (fun u => (u, { ev := [(16, 1)] })) }
theorem witness_steps : mayStep (stepping decoding) = true ∧ (buildStep (stepping decoding)).2.1.any (fun r => !r.skipped) = true ∧
    (let s := { stepping {} with paired := true, roleNow := true }; isSecondary s = true ∧ imgReady s = true ∧ s.disp.step = none ∧ s.disp.prime = .none ∧
      s.gov.ps = .p0 ∧ spokesUp s = true ∧ (List.replicate (dies s) (List.replicate (bufBytes s) (0 : Byte))).length = dies s) ∧
    (let s := running1; ∀ st ∈ s.disp.step, stepDone s st = true ∧ stepReport s st = false ∧ s.disp.faultSeen = false ∧ s.text.repair = [] ∧
      peerDone s st none = true ∧ s.gov.ps = .p0 ∧ spokesUp s = true ∧ s.cistErr = [] ∧ (getSess s 4095).isOpen = true ∧
      (getSess s 4095).closing = false ∧ (getSess s 4095).faulted = false ∧ (getSess s 4095).inc = 0 ∧ (getSess s 4095).gen.isSome = true ∧
      outOf s (readOuts s st.no (outRows s st)).2 [] 0 < (theImage s).vocab) ∧
    (let s := { running1 with disp := { prime := .running .load } };
      primed s = true ∧ spokesUp s = true ∧ s.cistErr = [] ∧ s.disp.faultSeen = false ∧ primeReport s = false ∧ s.tap.scan = false) ∧
    (let s := { running1 with disp := { prime := .running .fault } }; s.disp.faultSeen = false ∧ primeReport s = false ∧ s.tap.scan = false ∧
      wdogPaused s = false ∧ s.disp.primeFails = 0) ∧
    (let s := { running1 with disp := { running1.disp with faultSeen := true } }; s.gov.stretch = false ∧ s.gov.thermStop = false ∧ reg s Reg.faultCnt < 2 ^ 32 - 1) := by
  decide +kernel

-- time, registers and the sump

/-- A PTM measurement with a step due; a bad PPS edge, and a good one that a time of day was given for; the servo locked. -/
theorem witness_time : (let s := { setRegs State.reset [(Reg.timeCtl, 1), (Reg.hostLink, 8192)] with time := { time := 2 ^ 47 - 1, stepDue := true } };
      s.gov.ps ≠ .p4 ∧ reg s Reg.timeCtl % 4 = 1 ∧ regBit s Reg.hostLink 13 = true ∧ s.time.stepDue = true ∧ timeNs s < 2 ^ 31 ∧
      reg s Reg.timeStepCnt < 2 ^ 32 - 1) ∧ Servo.locked ∈ [Servo.locking, .locked] ∧
    (let s := { setRegs State.reset [(Reg.timeCtl, 2)] with time := { ppsLast := some 7 } };
      s.gov.ps ≠ .p4 ∧ reg s Reg.timeCtl % 4 = 2 ∧ ppsGood s = false ∧ reg s Reg.timePpsBadCnt < 2 ^ 32 - 1) ∧
    (let s := { setRegs State.reset [(Reg.timeCtl, 2)] with time := { todArmed := true, stepDue := true } };
      reg s Reg.timeCtl % 4 = 2 ∧ ppsGood s = true ∧ s.time.todArmed = true ∧ s.time.stepDue = true) := by decide +kernel

/-- Both paths to the register map are up. -/
def mapped (s : State) : State := { setRegs s [(Reg.hostLink, 4096)] with boot := { s.boot with mapReady := true } }
/-- Both paths are up; every counter that a read clears is there; a record waits; the Supervisor runs. -/
theorem witness_registers : pathUp (mapped State.reset) 0 = true ∧ pathUp (mapped State.reset) 1 = true ∧ (mapped State.reset).gov.ps ≠ .p4 ∧
    (∀ a ∈ rcWords, absent (mapped State.reset) a = false) ∧
    (let s := { State.reset with sump := { intake := [⟨1, 2, 3, [4]⟩] } }; s.sump.intake = ⟨1, 2, 3, [4]⟩ :: []) ∧
    supervisor (setRegs State.reset [(Reg.bootStatus, 7)]) = true := by decide +kernel

/-- Each path's window at the last index of the tables, and a station of the last number. -/
theorem witness_windows : (∀ t ∈ [0x01, 0x02, 0x03, 0x10, 0x15, 0x20], tableLen (t % 256) ≠ 0) ∧ bits (127 * 65536 + 3) 22 16 < stationsEnabled State.reset ∧
    (let s := { mapped State.reset with wins := [(0, { table := 0x15, index := 24 }), (1, { table := 1, index := 79 })] };
      (win s 0).table = 0x15 ∧ (win s 0).index = 24 ∧ (win s 1).table = 1 ∧ (win s 1).index = 79 ∧ pathUp s 1 = true ∧ s.gov.ps ≠ .p4) := by decide +kernel

-- security and debug

/-- A zeroize asked for; one whose machine stands still and whose hub has its leave; the transition to OPEN, each of its fuses, and one that
is busy; slots. -/
theorem witness_security : State.reset.gov.ps ∈ [PState.p0, .p1, .p2] ∧ State.reset.sec.zero = none ∧ State.reset.sec.zpend = none ∧
    (∀ k ∈ [1, 2], let s := { setRegs State.reset [(Reg.bootStatus, 7)] with sec := { zero := some ⟨k, 0, 0, true⟩ }, gov := { hubLeave := 65536 } };
      supervisor s = true ∧ s.boot.ctrlRun = false ∧ s.gov.ps ≠ .p3 ∧ s.disp.step = none ∧ s.stns.all (fun p => unitQuiet p.2 && !p.2.inReset) = true ∧
      s.sec.unlock = none ∧ hubReady s (dies s * wellEnd) = true) ∧
    (let s := { State.reset with sec := { ownerStage := (List.range 32).map (fun i => (i, 1)) } };
      s.sec.lifecycle = 0 ∧ s.sec.lcTo = none ∧ s.gov.ps = .p0 ∧ imgState s = 0 ∧ s.sec.ownerStage.length = 32) ∧
    (∀ p ∈ [(0, 0), (1, 0), (2, 1), (2, 2)], let s := { State.reset with sec := { lcTo := some 1, keyStep := p.1 }, fuses := { State.reset.fuses with openF := p.2 } };
      s.sec.lcTo = some 1 ∧ s.sec.lifecycle = 0 ∧ s.sec.zero = none ∧ s.pins.pwrOk = true ∧ s.fuses.ownerKey = none ∧ s.boot.ctrlWait = false) ∧
    (State.reset.fuses.slots.any (fun p => p.1 == 4) = false) := by decide +kernel

/-- A part in a lifecycle with a challenge for D1, and a response by slot 4. -/
def challenged (lc : Nat) (c : Option Chal) : State := { State.reset with
  sec := { lifecycle := lc, chal := c, resp := [(0, 4)], devId := List.replicate 16 1, entOk := true },
  fuses := { State.reset.fuses with slots := [(0, List.replicate 96 0), (4, List.replicate 96 0), (5, List.replicate 96 0)] } }
theorem witness_unlock : (∀ lc ∈ [1, 2], let s := challenged lc none; s.sec.lifecycle = lc ∧ s.sec.waits = [] ∧ s.sec.drbg < 2 ^ 20 ∧
      s.sec.devId.length = 16 ∧ s.sec.fails < 8 ∧ reg s Reg.dbgLevel % 4 = 0 ∧ s.gov.ps ≠ .p4 ∧ s.sec.chal = none ∧ imgReady s = false) ∧
    (let s := { challenged 2 none with sec := { fails := 8 } }; 8 ≤ s.sec.fails) ∧ State.reset.sec.waits = [] ∧
    ({ State.reset with sec := { entOk := true } }).sec.entOk = true ∧
    (let s := challenged 2 (some ⟨List.replicate 64 0, 1, 0⟩); s.sec.fails < 7 ∧ leNat ((stageBytes s.sec.resp 100).take 2) = 4 ∧ (slotKey s 4).isSome = true) ∧
    (∀ l ∈ [1, 2], reg (setRegs State.reset [(Reg.dbgLevel, l)]) Reg.dbgLevel % 4 ∈ [1, 2]) := by decide +kernel

/-- Debug level D3, a register address, and thread 3 of the last station as given. -/
def debugged (a : Nat) (x : Station) : State := setStn (setRegs State.reset [(Reg.dbgLevel, 3), (Reg.dbgAddrLo, a), (Reg.dbgData, 0x12345678)]) 127 x
/-- Every debug command denied, with no station, and permitted at the last station; a HALT that is done. -/
theorem witness_debug : (∀ p ∈ debugOps.map (·.2), p.1 < 256 ∧ reg State.reset Reg.dbgLevel % 4 < p.2 ∧ reg State.reset Reg.dbgCmdStatus ≠ 1 ∧ State.reset.dbg.run = none ∧
      p.2 ≤ reg (debugged 0 {}) Reg.dbgLevel % 4 ∧ stationsEnabled (onT2 (debugged 0 {})) ≤ bits (p.1 + 127 * 256) 14 8) ∧
    127 < stationsEnabled (debugged 31 {}) ∧ residentUnit (debugged 31 {}) 127 = 127 ∧ reg64 (debugged 31 {}) Reg.dbgAddrLo = 31 ∧
    (thr (stn (debugged 31 {}) 127) 3).st = .parked ∧ isHalted (stn (debugged 31 {}) 127) = true ∧ reg64 (debugged 262080 {}) Reg.dbgAddrLo = 262080 ∧
    (stn (debugged 0 {}) 127).trfErr = [] ∧ (stn (debugged 0 {}) 127).trfFree = [] ∧ cistEnd - 64 + 64 ≤ cistEnd ∧
    (let s := { debugged 0 {} with dbg := { run := some ⟨0x10, 127, 3⟩ } }; s.dbg.run.isSome = true) := by decide +kernel

/-- The TAP at D3, and at D0 with an image placed. -/
theorem witness_tap : State.reset.pins.pwrOk = true ∧ reg (debugged 0 {}) Reg.dbgLevel % 4 = 3 ∧
    (let s := setRegs State.reset [(Reg.imgStatus, 3)]; reg s Reg.dbgLevel % 4 ≠ 3 ∧ imgState s = 3) ∧
    (mapped State.reset).boot.mapReady = true ∧ (mapped State.reset).pins.refLost = false := by decide +kernel

/-- WRITE frames of a clamped register with its CRC and with another; the READ frame. -/
theorem witness_control_port : (mapped State.reset).tap.scan = false ∧ (0x147, 10, 10000) ∈ clampedRegs ∧ 1 * 256 + 0x47 = 0x147 ∧
    BitVec.ofNat 8 (crc8 [0x40, 1, 0x47, 0, 0, 0, 0]) ≠ BitVec.ofNat 8 (crc8 [0x40, 1, 0x47, 0, 0, 0, 0] + 1) ∧
    reg (mapped State.reset) Reg.portCrc < 2 ^ 32 - 1 ∧ reg (mapped State.reset) Reg.portBad < 2 ^ 32 - 1 := by decide +kernel

-- boot and resets

/-- The boot at a stage, with the map ready. -/
def atStage (n : Nat) : State := { setRegs State.reset [(Reg.bootStatus, n)] with boot := { mapReady := true, fw := some (1, List.replicate 200 0) } }
/-- Each stage, and each reset's conditions. -/
theorem witness_boot : (∀ n ∈ [1, 2, 3, 4, 5, 6], stage (atStage n) = n ∧ (atStage n).boot.mapReady = true ∧ (atStage n).boot.tryB = false ∧
      (atStage n).boot.fw.isSome = true ∧ (atStage n).boot.ctrlBoot = false) ∧
    stage State.reset = 0 ∧ State.reset.boot.mapReady = false ∧ State.reset.boot.fullZero = false ∧ regBit State.reset Reg.bootCtl 1 = false ∧
    (∀ d ∈ List.range (dies (atStage 6)), 30 ≤ dieCount (atStage 6) d) ∧
    (let s := setRegs (atStage 7) [(Reg.dispCtl, 0)]; stage s = 7 ∧ s.boot.ctrlRun = false ∧ s.gov.ps = .p0 ∧ s.sec.lcTo = none ∧ anyReset s = false ∧ regBit s Reg.dispCtl 0 = false ∧
      s.disp.step = none ∧ s.boot.stnWait = false ∧ 127 < stationsEnabled s ∧ regBit s Reg.hostLink 12 = false) ∧
    (let s := setRegs (atStage 7) [(Reg.hostLink, 4096)]; regBit s Reg.hostLink 12 = true ∧ s.gov.ps ≠ .p4) := by decide +kernel

/-- A step with a command at the front of the queue, and one with none, in a state with canonical memory. -/
theorem witness_step : (let s := { State.reset with pending := [Instr.addi 0 0, .bootRom] }; s.pending = Instr.addi 0 0 :: [.bootRom]) ∧
    State.reset.pending = [] ∧ State.reset.pins.pwrOk = true ∧ State.reset.pins.refLost = false ∧ State.reset.gov.ps ≠ .p4 ∧
    memWf State.reset = true ∧ (match step { State.reset with pending := [Instr.bootRom] } with | .next _ => true | _ => false) = true := by decide +kernel

/-- A value that rounds to zero in every float format, and finite codes. -/
theorem witness_codes : (∀ f ∈ floatFmts.map (·.1), (encElem f 0 n4Default none (.fin false 1 (2 ^ 200))).code = 0) ∧
    (∀ p ∈ floatFmts.map (·.2), (decFloat p 1).isFin = true) := by decide +kernel

-- the manual's worked examples (R28: figures derived from its rules)

/-- Chapter 02: rna_shift(−6, 2) and rna_shift(5, 1). -/
theorem test_rna_shift : rnaShift (-6) 2 = -2 ∧ rnaShift 5 1 = 3 := by decide
/-- Chapter 02: FP32 codes halfway between BF16 values, and one below. -/
theorem test_bf16_ties : [0x3F808000, 0xBF808000, 0x3F807FFF].map (fun c => toBf16 (f32 c)) = [0x3F81, 0xBF81, 0x3F80] := by decide +kernel
/-- Chapter 02: 300, 500, +Inf and NaN in E4M3. -/
theorem test_e4m3_codes : [vInt 300, vInt 500, .inf false, .nan].map (fun v => (encElem .e4m3 0 n4Default none v).code) = [0x79, 0x7E, 0x7E, 0x7F] := by
  decide +kernel
/-- Chapter 02: 21.5, 50 and −70 in N4 under the default table. -/
theorem test_n4_codes : [Val.fin false 43 2, vInt 50, vInt (-70)].map (fun v => (encElem .n4 0 n4Default none v).code) = [0x4, 0x6, 0x8] := by decide +kernel
/-- Table 02.7: 5.3, −0.7, 1.25, 0.004 and 28 zeros in the three MX formats. -/
def mxBlock : List Val := [.fin false 53 10, .fin true 7 10, .fin false 5 4, .fin false 4 1000] ++ List.replicate 28 vZero
theorem test_table_02_7 : [Fmt.mxint8, .mxfp4, .mxfp8].map (fun f =>
      let r := encRun ⟨.fp32, f, 8, {}, false⟩ n4Default mxBlock (List.replicate 32 (some vOne, 0)); ((r.1.map (·.1.code)).take 4, r.2)) =
    [([0x55, 0xF5, 0x14, 0x00], [0x81]), ([0x7, 0x9, 0x3, 0x0], [0x7F]), ([0x7B, 0xE3, 0x6A, 0x28], [0x79])] := by decide +kernel
/-- Chapter 03: the row of 96, −3.25, 0.5 and 1 to MXINT8, and to RB8 with its scale 12,681,990 × 2^−24. -/
def row03 : List Val := [vInt 96, .fin true 13 4, .fin false 1 2, vOne] ++ List.replicate 28 vZero
theorem test_row_conversions : [(Fmt.mxint8, 8), (.rb8, 16)].map (fun p =>
      let r := encRun ⟨.bf16, p.1, p.2, {}, false⟩ n4Default row03 (List.replicate 32 (some vOne, 0)); (r.1.map (·.1.code)).take 4) =
    [[0x60, 0xFD, 0x01, 0x01], [127, 0xFC, 1, 1]] ∧
    vEq (f32 (growScale (96, 1))) (.fin false 12681990 (2 ^ 24)) = true := by decide +kernel
/-- Chapter 03: the row in slot 5 of exponent −1: 192 saturates; and the exponents of the histories 61 and 96. -/
theorem test_slot_exponent : [Val.fin false 192 1, .fin true 13 2, vOne, vInt 2].map (fun v => let e := encElem .int8 0 n4Default none v; (e.code, e.sat)) =
    [(127, true), (0xF9, false), (1, false), (2, false)] ∧ ceilLog2Ratio (toF32 (vInt 61)) 127 = -1 ∧ ceilLog2Ratio (toF32 (vInt 96)) 127 = 0 := by decide +kernel
/-- Chapter 03: slot 5 at the boundary after step k: the history 40, 52, 61, 48 takes 96, the exponent goes from −1 to 0, and a misfit is raised. -/
theorem test_slot_boundary : (let h := [48, 61, 52, 40].map (fun x => toF32 (vInt x));
      let r := slotClose 0 16 { hlen := 4, e := 126, hist := h, used := true, stepMax := toF32 (vInt 96), stepValid := true, stepSat := 1 };
      (r.1.hist, r.1.e, r.1.ePrev, r.2)) = ([96, 48, 61, 52].map (fun x => toF32 (vInt x)), 127, 126, true) := by decide +kernel
/-- Chapter 03: the E_REQ epilogue of ±123,456. -/
theorem test_requant : let p : Machine.PSet := { reqZp := 40, reqHi := 255 }
    requant .uint8 p 1518500250 40 123456 = ⟨211, false⟩ ∧ requant .uint8 p 1518500250 40 (-123456) = ⟨0, true⟩ := by decide
/-- Chapter 07: the MSHIFT words of KSEL 2 and 1 with event e6. -/
theorem test_mshift_words : [0xAD2574C0, 0xAD256CC0].map (fun w => [(sop w == some .mshift).toNat, bits w 25 23, bits w 22 18, bits w 17 13, bits w 12 11, bits w 10 10, bits w 9 5]) =
    [[1, 2, 9, 0xB, 2, 1, 6], [1, 2, 9, 0xB, 1, 1, 6]] := by decide
/-- Chapter 07: one block of a pass: the exact sum, and the accumulator 2^20 after it. -/
theorem test_pass_block : let a := [0x55, 0xF5, 0x14].map (decElem .mxint8 0 n4Default)
    let w := [0x4, 0xF, 0x7].map (decElem .n4 0 n4Default)
    (dotExact a w).map (fun v => vEq v (.fin false 3451 64)) = some true ∧
    dotBlocks (toF32 (vInt (2 ^ 20))) [(a, w, vMul (e8m0 0x81) vOne, bf16 0x3A80)] = toF32 (.fin false 4194305 4) := by decide +kernel
/-- Chapter 09: the fields of the header 0x0000_000B_96E0_A114. -/
theorem test_chain_header : let r := 0x0000000B96E0A114
    [cId r, cEpi r, cAct r, cEvt r, cAfmt r, cWfmt r, cMfmt r, cOfmt r, cHalf r, cNevt r] = [4, 1, 1, 5, 0x0E, 0x0B, 0x0E, 1, 0, 0] := by decide
/-- Chapter 10: the credits of CD2 of a T4 alone for CD0, CD1 and CD3. -/
theorem test_credits : [0, 1, 3].map (fun h => allotment State.reset 2 h) = [86, 85, 85] := by decide +kernel
/-- Chapter 11: a window's budget in P0 Run, WARM, at 280 W: 219 µJ. -/
theorem test_budget : (match exec .windowStart { setRegs State.reset [(Reg.thermMax, 300)] with gov := { band := 1 } } with
    | .next t => t.gov.budget | _ => 0) = 219 * 65536 := by decide +kernel
/-- Chapter 13: TRUNC_HEAD 256 and TRUNC_LIMIT 4,096 over 10,000 tokens. -/
theorem test_truncation : (let r := truncateTokens 256 4096 (List.range 10000); (r.1.length, r.1.getD 255 0, r.1.getD 256 0, r.2)) = (4096, 255, 6160, 5904) := by
  decide +kernel
/-- Table 13.6: what each step releases, and the stop string at the last. -/
def stops : List (List Byte) := [[10, 10, 85, 115, 101, 114, 58], [35, 35, 35]]
theorem test_table_13_6 : [[70, 105, 110, 101], [32, 99, 97, 102, 0xC3], [0xC3, 0xA9, 46, 10], [10, 10, 35]].map (releaseLen stops) = [4, 4, 3, 2] ∧
    ([10, 10, 35] : List Byte).length = 3 ∧ findStop stops [35, 35, 35] = some (0, 1) := by decide +kernel
/-- Chapter 20: Table 20.4's count of VDD_IO balls, all in the last three rows (R582), the rows of the Extium pairs, and two balls. -/
theorem test_ball_counts : ballCount [68, 69, 70] (· == .vddIo) = 93 := by decide +kernel
theorem test_ball_names : [20, 38, 39, 49, 70].map rowName = ["AA", "AY", "BA", "BL", "CN"] ∧ ballFn 20 1 = .extium 0 true 0 false ∧
    ballFn 70 37 = .low "PWR_OK" := by decide

-- single commands

/-- The result of a command on unit 0's thread 0: register s5, and the state of the thread. -/
def after (c : Instr) (s : State) : Option (Word × TState) :=
  match exec c s with
  | .next t => some (tabGet 0 (thr (stn t 0) 0).regs 5, (thr (stn t 0) 0).st)
  | _ => none
/-- ADDS saturates, MULH takes the high word of a signed product, CLZ of 1 is 31, and SETVL limits VL to 64 (Tables 06.1 and 06.3). -/
theorem test_scalar_results : after (.adds 0 0) (atW (wd 1 5 1 0x0811) (two 0x7FFFFFFF 0)) = some (0x7FFFFFFF, .run) ∧
    after (.mulh 0 0) (atW (wd 1 5 1 0x080F) (two 0x80000000 0)) = some (0x40000000, .run) ∧
    after (.clz 0 0) (atW (wordOf .clz) (two 1 0)) = some (31, .run) ∧ after (.setvl 0 0) (atW (wordOf .setvl) (two 65 0)) = some (64, .run) ∧
    after (.lb 0 0) { atW (wordOf .lb) (two 4 0) with cist := [(0, 0x80)] } = some (0xFFFFFF80, .run) := by decide +kernel

end Sys2Proof.Tests
end

/-! PROOFS. What the silicon holds: the part and its fuses, and what of them each operation of the model leaves (R3, R4, R489).
One lemma per operation, in the order of the model's files; the operations that blow fuses have theirs further below. -/

namespace Sys2Proof.Machine

/-- What the silicon holds: the part and its fuses. -/
def State.silicon (s : State) : Part × Fuses := (s.part, s.fuses)

@[simp] theorem silicon_ite (c : Prop) [Decidable c] (s t : State) :
    (if c then s else t).silicon = if c then s.silicon else t.silicon := apply_ite State.silicon c s t

@[simp] theorem silicon_fst_ite {α : Type} (c : Prop) [Decidable c] (p q : State × α) :
    (if c then p else q).1.silicon = if c then p.1.silicon else q.1.silicon := by split <;> rfl

/-- The state an instruction's body leaves, or the one it had. -/
def Ret.state (s : State) : Ret → State
  | .done t | .hold t | .trap _ t => t
  | .transient _ => s

/-- A state given field by field holds the part and the fuses among them; every record update of the model takes this form. -/
@[simp] theorem silicon_mk
    (part : Part) (cyc free : Nat) (regs latch : Tab Word) (stns : Tab Station) (resident : Tab Nat) (heldSig : List Signal)
    (cist : List Host.Cell) (cistErr : Tab Mark) (cistWb cistBad : List Nat) (well : List Host.Cell) (wellErr : Tab BeatMark)
    (reread : Option (Nat × Nat × Nat)) (wellBad : List Nat) (rbLen : Tab Nat) (scrubCist scrubWell : Nat) (hops : Tab Hop)
    (arrivals : List Arrival) (dieUp : Nat) (ext : Tab ExtLink) (credits credTurn : Tab Nat) (gov : Gov) (time : TimeB)
    (floats floatLatch : Tab Float8) (sump : Sump) (msix : Msix) (paired held roleNow : Bool) (trainLinks : Nat)
    (orphans : List (Nat × Nat × Nat)) (peerEn : Tab Nat) (qps : Tab QPair) (sess : Tab Sess) (disp : Disp) (text : TextE)
    (ldr : Loader) (fuses : Fuses) (sec : Sec) (dbg : Dbg) (tap : Tap) (wins : Tab Win) (boot : Boot) (pins : Pins) (telem : Telem)
    (out : List OutMsg) (pending : List Instr) :
    (State.mk part cyc free regs latch stns resident heldSig cist cistErr cistWb cistBad well wellErr reread wellBad rbLen
    scrubCist scrubWell hops arrivals dieUp ext credits credTurn gov time floats floatLatch sump msix paired held roleNow
    trainLinks orphans peerEn qps sess disp text ldr fuses sec dbg tap wins boot pins telem out pending).silicon = (part, fuses) := rfl

@[simp] theorem silicon_eta (s : State) : (s.part, s.fuses) = s.silicon := rfl

/-- A fold of steps that keep the silicon keeps it. -/
@[simp] theorem silicon_foldl {α : Type} (f : State → α → State) (h : ∀ s a, (f s a).silicon = s.silicon) (l : List α) (s : State) :
    (l.foldl f s).silicon = s.silicon := by
  induction l generalizing s with
  | nil => rfl
  | cons a l ih => simp [ih, h]

@[simp] theorem silicon_fst_foldl {α β : Type} (f : State × β → α → State × β) (h : ∀ p a, (f p a).1.silicon = p.1.silicon)
    (l : List α) (p : State × β) : (l.foldl f p).1.silicon = p.1.silicon := by
  induction l generalizing p with
  | nil => rfl
  | cons a l ih => simp [ih, h]

@[simp] theorem retState_ite (s : State) (c : Prop) [Decidable c] (r q : Ret) :
    (if c then r else q).state s = if c then r.state s else q.state s := apply_ite (Ret.state s) c r q

@[simp] theorem retState_done (s t : State) : (Ret.done t).state s = t := rfl
@[simp] theorem retState_hold (s t : State) : (Ret.hold t).state s = t := rfl
@[simp] theorem retState_trap (s t : State) (k : Nat) : (Ret.trap k t).state s = t := rfl
@[simp] theorem retState_transient (s : State) (k : Nat) : (Ret.transient k).state s = s := rfl

section Operations

variable (s : State) (u t : Nat)

-- Machine/Flags.lean

@[simp] theorem setReg_silicon (a v : Nat) : (setReg s a v).silicon = s.silicon := by simp [setReg]
@[simp] theorem addReg_silicon (a n : Nat) : (addReg s a n).silicon = s.silicon := by simp [addReg]
@[simp] theorem addReg64_silicon (lo n : Nat) : (addReg64 s lo n).silicon = s.silicon := by simp [addReg64]
@[simp] theorem setField_silicon (a hi lo v : Nat) : (setField s a hi lo v).silicon = s.silicon := by simp [setField]
@[simp] theorem sendMsix_silicon (v : Nat) : (sendMsix s v).silicon = s.silicon := by simp [sendMsix]
@[simp] theorem evtRise_silicon (old : Nat) : (evtRise s old).silicon = s.silicon := by simp [evtRise]
@[simp] theorem setEvt_silicon (b : Nat) : (setEvt s b).silicon = s.silicon := by simp [setEvt]
@[simp] theorem pushRec_silicon (r : RecIn) : (pushRec s r).silicon = s.silicon := by simp [pushRec]
@[simp] theorem noteFault_silicon : (noteFault s).silicon = s.silicon := by simp [noteFault]
@[simp] theorem takeFree_silicon : (takeFree s).2.silicon = s.silicon := by simp [takeFree]
@[simp] theorem putFloat_silicon (n : Nat) (f : Float8) : (putFloat s n f).silicon = s.silicon := by simp [putFloat]
@[simp] theorem floatEnd_silicon (n : Nat) (ok : Bool) (res : Nat) : (floatEnd s n ok res).silicon = s.silicon := by simp [floatEnd]
@[simp] theorem floatStart_silicon (n op fin : Nat) : (floatStart s n op fin).silicon = s.silicon := by simp [floatStart]
@[simp] theorem floatPos_silicon (n pos : Nat) : (floatPos s n pos).silicon = s.silicon := by simp [floatPos]
@[simp] theorem floatFin_silicon (n fin : Nat) : (floatFin s n fin).silicon = s.silicon := by simp [floatFin]
@[simp] theorem primeBytes_silicon (n : Nat) : (primeBytes s n).silicon = s.silicon := by
  unfold primeBytes; split <;> simp

-- Machine/Ops.lean

@[simp] theorem setStn_silicon (x : Station) : (setStn s u x).silicon = s.silicon := by simp [setStn]
@[simp] theorem modStn_silicon (f : Station → Station) : (modStn s u f).silicon = s.silicon := by simp [modStn]
@[simp] theorem evBump_silicon (e : Nat) : (evBump s u e).silicon = s.silicon := by simp [evBump]
@[simp] theorem stepEnd_silicon : (stepEnd s u t).silicon = s.silicon := by simp [stepEnd]
@[simp] theorem voidChal_silicon : (voidChal s).silicon = s.silicon := by
  unfold voidChal; split <;> simp

@[simp] theorem cistUeReport_silicon (w acc : Nat) : (cistUeReport s w acc).silicon = s.silicon := by simp [cistUeReport]
@[simp] theorem cistCheck_silicon (acc : Nat) (l : List Nat) : (cistCheck s acc l).1.silicon = s.silicon := by
  induction l generalizing s with
  | nil => rfl
  | cons w t ih => unfold cistCheck; split <;> simp [ih]

@[simp] theorem cistRead_silicon (a n acc : Nat) : (cistRead s u a n acc).1.silicon = s.silicon := by simp [cistRead]
@[simp] theorem cistWritePiece_silicon (g : Nat) (bs : List Byte) : (cistWritePiece s g bs).1.silicon = s.silicon := by
  unfold cistWritePiece; simp only; (repeat' split) <;> simp

@[simp] theorem cistWritePieces_silicon (l : List (Nat × List Byte)) : (cistWritePieces s l).1.silicon = s.silicon := by
  induction l generalizing s with
  | nil => rfl
  | cons p t ih => simp [cistWritePieces, ih]

@[simp] theorem rbForget_silicon (k n : Nat) : (rbForget s k n).silicon = s.silicon := by simp [rbForget]
@[simp] theorem cistWrite_silicon (a : Nat) (bs : List Byte) : (cistWrite s u a bs).1.silicon = s.silicon := by simp [cistWrite]
@[simp] theorem wellUeReport_silicon (b : Nat) (q : WellAcc) : (wellUeReport s b q).silicon = s.silicon := by simp [wellUeReport]
@[simp] theorem wellCheck_silicon (q : WellAcc) (l : List Nat) : (wellCheck s q l).1.silicon = s.silicon := by
  induction l generalizing s with
  | nil => rfl
  | cons w t ih =>
    unfold wellCheck; split
    · exact ih s
    · simp [ih]
    · simp [ih]
    · split <;> simp [ih]

@[simp] theorem wellRead_silicon (a n : Nat) (q : WellAcc) : (wellRead s a n q).1.silicon = s.silicon := by simp [wellRead]
@[simp] theorem wellWritePiece_silicon (a : Nat) (bs : List Byte) (q : WellAcc) :
    (wellWritePiece s a bs q).1.silicon = s.silicon := by simp [wellWritePiece]

@[simp] theorem wellWritePieces_silicon (q : WellAcc) (l : List (Nat × List Byte)) : (wellWritePieces s q l).1.silicon = s.silicon := by
  induction l generalizing s with
  | nil => rfl
  | cons p t ih => simp [wellWritePieces, ih]

@[simp] theorem wellWrite_silicon (a : Nat) (bs : List Byte) (q : WellAcc) :
    (wellWrite s a bs q).1.silicon = s.silicon := by simp [wellWrite]

@[simp] theorem trfReadWord_silicon (w : Nat) : (trfReadWord s u w).silicon = s.silicon := by
  unfold trfReadWord; split <;> simp

@[simp] theorem tileRead_silicon (side : Bool) (r o n : Nat) : (tileRead s u side r o n).1.silicon = s.silicon := by simp [tileRead]
@[simp] theorem sideReads_silicon (r : Nat) (rs : List (Nat × Nat)) : (sideReads s u r rs).silicon = s.silicon := by simp [sideReads]
@[simp] theorem tileWrite_silicon (side : Bool) (r o : Nat) (bs : List Byte) :
    (tileWrite s u side r o bs).silicon = s.silicon := by simp [tileWrite]

-- Machine/Operands.lean

@[simp] theorem fatalTrap_silicon (pc cause : Nat) : (fatalTrap s u t pc cause).silicon = s.silicon := by simp [fatalTrap]
@[simp] theorem finish_silicon (u t : Nat) (i : InFlight) (s : State) (r : Ret) (h : (r.state s).silicon = s.silicon) :
    (finish u t i s r).silicon = s.silicon := by
  cases r <;> simp_all [finish]

@[simp] theorem writeS_silicon (i : InFlight) (r : Nat) (v : Word) : (writeS s u i r v).silicon = s.silicon := by simp [writeS]

-- Machine/LeaveOps.lean

@[simp] theorem placeReq_silicon (cls requester unit : Nat) (what : Purpose) (units : Tab Nat) :
    (placeReq s cls requester unit what units).1.silicon = s.silicon := by simp [placeReq]

theorem joinOrPlace_silicon {s : State} {u cls cap : Nat} {what : Purpose} {units : Tab Nat} {q : State × Nat}
    (h : joinOrPlace s u cls what cap units = some q) : q.1.silicon = s.silicon := by
  unfold joinOrPlace at h; simp only at h
  split at h
  · cases h; simp
  · split at h
    · cases h; simp
    · cases h

@[simp] theorem withdraw_silicon (f : LReq → Bool) : (withdraw s f).silicon = s.silicon := by simp [withdraw]
@[simp] theorem creditBack_silicon (n : Nat) : (creditBack s n).silicon = s.silicon := by simp [creditBack]
@[simp] theorem hubSpend_silicon (n : Nat) : (hubSpend s n).silicon = s.silicon := by simp [hubSpend]
@[simp] theorem maintDebit_silicon (n : Nat) : (maintDebit s n).silicon = s.silicon := by
  unfold maintDebit; exact silicon_mk ..

-- Machine/ChainFields.lean

@[simp] theorem spoilBytes_silicon (v a n g : Nat) (f : Nat → Bool) : (spoilBytes s v a n g f).silicon = s.silicon := by simp [spoilBytes]
@[simp] theorem chainTouch_silicon (v a n : Nat) : (chainTouch s u v a n).silicon = s.silicon := by simp [chainTouch]

-- Machine/Scalar.lean

@[simp] theorem issueFrom_silicon : (issueFrom s u t).silicon = s.silicon := by
  unfold issueFrom; simp only; split <;> simp

@[simp] theorem trapBad_silicon : (trapBad s u).silicon = s.silicon := by
  unfold trapBad; (repeat' split) <;> simp

@[simp] theorem aluBody_silicon (f : Word → Word → Word) (i : InFlight) :
    ((aluBody u f s i).state s).silicon = s.silicon := by simp [aluBody]

@[simp] theorem immBody_silicon (f : Word → Word → Word → Word) (i : InFlight) :
    ((immBody u f s i).state s).silicon = s.silicon := by simp [immBody]

@[simp] theorem jumpTo_silicon (pc : Nat) : (jumpTo s u t pc).silicon = s.silicon := by simp [jumpTo]
@[simp] theorem branchBody_silicon (c : Word → Word → Bool) (i : InFlight) :
    ((branchBody u c s i).state s).silicon = s.silicon := by simp [branchBody]

@[simp] theorem pushCall_silicon (i : InFlight) (target : Nat) : (pushCall s u i target).silicon = s.silicon := by simp [pushCall]
@[simp] theorem callBody_silicon (u : Nat) (target : State → InFlight → Nat) (s : State) (i : InFlight) :
    ((callBody u target s i).state s).silicon = s.silicon := by
  simp [callBody]

@[simp] theorem retBody_silicon (i : InFlight) : ((retBody u s i).state s).silicon = s.silicon := by
  unfold retBody; simp only; split <;> simp

@[simp] theorem endTransient_silicon (f : Thread → Thread) : (endTransient s u t f).silicon = s.silicon := by simp [endTransient]
@[simp] theorem serveSpill_silicon (i : InFlight) : (serveSpill s u t i).silicon = s.silicon := by simp [serveSpill]
@[simp] theorem serveFill_silicon (i : InFlight) : (serveFill s u t i).silicon = s.silicon := by
  unfold serveFill; simp only; split <;> simp

@[simp] theorem loadBody_silicon (n : Nat) (f : Nat → Word) (i : InFlight) : ((loadBody u n f s i).state s).silicon = s.silicon := by
  unfold loadBody; simp only; (repeat' split) <;> simp

@[simp] theorem storeBody_silicon (n : Nat) (i : InFlight) : ((storeBody u n s i).state s).silicon = s.silicon := by simp [storeBody]
@[simp] theorem ewaitBody_silicon (i : InFlight) : ((ewaitBody u s i).state s).silicon = s.silicon := by simp [ewaitBody]
@[simp] theorem rsigBody_silicon (i : InFlight) : ((rsigBody u s i).state s).silicon = s.silicon := by simp [rsigBody]
@[simp] theorem parkAt_silicon (pc : Nat) : (parkAt s u t pc).silicon = s.silicon := by simp [parkAt]
@[simp] theorem rdsrBody_silicon (i : InFlight) : ((rdsrBody u s i).state s).silicon = s.silicon := by
  unfold rdsrBody; split <;> simp

-- Machine/Ncu.lean

@[simp] theorem tableRead_silicon (a n acc : Nat) (need : Bool) :
    (tableRead s u a n acc need).1.silicon = s.silicon := by simp [tableRead]

@[simp] theorem readTables_silicon (c : Conv) (d0 r j n acc : Nat) : (readTables s u c d0 r j n acc).1.silicon = s.silicon := by
  unfold readTables; simp only; split <;> simp

@[simp] theorem raiseMisfit_silicon (k : Nat) : (raiseMisfit s u k).silicon = s.silicon := by simp [raiseMisfit]
@[simp] theorem closeSlots_silicon (l : List (Nat × Slot)) : (closeSlots s u l).silicon = s.silicon := by
  induction l generalizing s with
  | nil => rfl
  | cons p t ih => simp [closeSlots, ih]

@[simp] theorem sumNcu_silicon : (sumNcu s u).silicon = s.silicon := by simp [sumNcu]
@[simp] theorem boundary_silicon : (boundary s u).silicon = s.silicon := by simp [boundary]
@[simp] theorem stepcloseBody_silicon (i : InFlight) : ((stepcloseBody u s i).state s).silicon = s.silicon := by
  unfold stepcloseBody; split <;> simp

@[simp] theorem psetwBody_silicon (i : InFlight) : ((psetwBody u s i).state s).silicon = s.silicon := by
  unfold psetwBody; simp only; split <;> simp

@[simp] theorem slotwBody_silicon (i : InFlight) : ((slotwBody u s i).state s).silicon = s.silicon := by simp [slotwBody]
@[simp] theorem slotrBody_silicon (i : InFlight) : ((slotrBody u s i).state s).silicon = s.silicon := by
  unfold slotrBody; split <;> simp

@[simp] theorem ncucntBody_silicon (i : InFlight) : ((ncucntBody u s i).state s).silicon = s.silicon := by
  unfold ncucntBody; split <;> simp

-- Machine/HostOps.lean

@[simp] theorem setQp_silicon (n : Nat) (q : QPair) : (setQp s n q).silicon = s.silicon := by simp [setQp]
@[simp] theorem modQp_silicon (n : Nat) (f : QPair → QPair) : (modQp s n f).silicon = s.silicon := by simp [modQp]
@[simp] theorem setSess_silicon (i : Nat) (x : Sess) : (setSess s i x).silicon = s.silicon := by simp [setSess]
@[simp] theorem modSess_silicon (i : Nat) (f : Sess → Sess) : (modSess s i f).silicon = s.silicon := by simp [modSess]
@[simp] theorem qpError_silicon (n cause addr : Nat) : (qpError s n cause addr).silicon = s.silicon := by simp [qpError]
@[simp] theorem qpMessage_silicon (n : Nat) : (qpMessage s n).silicon = s.silicon := by simp [qpMessage]
@[simp] theorem cqWrite_silicon (i : CqItem) : (cqWrite s i).silicon = s.silicon := by simp [cqWrite]
@[simp] theorem writeItems_silicon (l : List CqItem) : (writeItems s l).1.silicon = s.silicon := by
  induction l generalizing s with
  | nil => rfl
  | cons i t ih => unfold writeItems; split <;> simp [ih]

@[simp] theorem flushSess_silicon (sid : Nat) : (flushSess s sid).silicon = s.silicon := by simp [flushSess]
@[simp] theorem pushOut_silicon (sid : Nat) (i : CqItem) : (pushOut s sid i).silicon = s.silicon := by simp [pushOut]
@[simp] theorem flushQp_silicon (n : Nat) : (flushQp s n).silicon = s.silicon := by simp [flushQp]
@[simp] theorem flushAll_silicon (n : Nat) : (flushAll s n).silicon = s.silicon := by simp [flushAll]
@[simp] theorem done_silicon (f : Frame) (reason : Nat) (data : List Byte) : (done s f reason data).silicon = s.silicon := by simp [done]
@[simp] theorem doneHead_silicon (sid reason : Nat) (data : List Byte) : (doneHead s sid reason data).silicon = s.silicon := by
  unfold doneHead; split <;> simp

@[simp] theorem doneList_silicon (reason : Nat) (l : List Frame) : (doneList s reason l).silicon = s.silicon := by
  induction l generalizing s with
  | nil => rfl
  | cons p t ih => simp [doneList, ih]

@[simp] theorem textOut_silicon (sid : Nat) (bs : List Byte) : (textOut s sid bs).silicon = s.silicon := by simp [textOut]
@[simp] theorem endGen_silicon (sid reason stop : Nat) : (endGen s sid reason stop).silicon = s.silicon := by
  unfold endGen; split <;> simp

@[simp] theorem dropJob_silicon (sid qp : Nat) : (dropJob s sid qp).silicon = s.silicon := by simp [dropJob]
@[simp] theorem freePages_silicon (x : Sess) : (freePages s x).silicon = s.silicon := by simp [freePages]
@[simp] theorem faultSess_silicon (sid : Nat) : (faultSess s sid).silicon = s.silicon := by simp [faultSess]
@[simp] theorem faultAll_silicon : (faultAll s).silicon = s.silicon := by simp [faultAll]
@[simp] theorem dropSess_silicon (sid : Nat) : (dropSess s sid).silicon = s.silicon := by simp [dropSess]
@[simp] theorem abortChains_silicon : (abortChains s).silicon = s.silicon := by simp [abortChains]

-- Machine/LinkOps.lean

@[simp] theorem setHop_silicon (h : Nat) (x : Hop) : (setHop s h x).silicon = s.silicon := by simp [setHop]
@[simp] theorem takeCredit_silicon (d e : Nat) : (takeCredit s d e).silicon = s.silicon := by simp [takeCredit]
@[simp] theorem returnCredit_silicon (d e : Nat) : (returnCredit s d e).silicon = s.silicon := by simp [returnCredit]
@[simp] theorem landRows_silicon (s : State) (t : Tile) (a : Int) (l : List (List Byte)) :
    (landRows s t a l).1.silicon = s.silicon := by
  induction l generalizing s a with
  | nil => rfl
  | cons b rest ih => simp [landRows, ih]

@[simp] theorem landScales_silicon (s : State) (v : Nat) (l : List (Nat × Nat)) (bs : List Byte) :
    (landScales s v l bs).1.silicon = s.silicon := by
  induction l generalizing s bs with
  | nil => rfl
  | cons p rest ih => simp [landScales, ih]

@[simp] theorem landTile_silicon (t : Tile) : (landTile s t).1.silicon = s.silicon := by simp [landTile]
@[simp] theorem onWire_silicon (h : Nat) (f : Flit) : (onWire s h f).silicon = s.silicon := by simp [onWire]
@[simp] theorem hopFlush_silicon (n : Nat) (s : State) (h : Nat) : (hopFlush n s h).silicon = s.silicon := by
  induction n generalizing s with
  | zero => rfl
  | succ n ih =>
    unfold hopFlush; simp only; split
    · rfl
    · split <;> simp [ih]

@[simp] theorem hopSend_silicon (h : Nat) (fs : List Flit) : (hopSend s h fs).silicon = s.silicon := by simp [hopSend]
@[simp] theorem hopAck_silicon (h a : Nat) : (hopAck s h a).silicon = s.silicon := by simp [hopAck]
@[simp] theorem sipCredit_silicon (q : Sip) : (sipCredit s q).silicon = s.silicon := by
  unfold sipCredit; split <;> simp

@[simp] theorem clearCredits_silicon (l : Nat) : (clearCredits s l).silicon = s.silicon := by simp [clearCredits]
@[simp] theorem sipOrphan_silicon (q : Sip) : (sipOrphan s q).silicon = s.silicon := by
  unfold sipOrphan; split <;> simp

@[simp] theorem endSips_silicon (st : Nat) (f : Sip → Bool) : (endSips u st f s).silicon = s.silicon := by simp [endSips]
@[simp] theorem failUnit_silicon (l : Nat) : (failUnit s l u).silicon = s.silicon := by simp [failUnit]
@[simp] theorem linkRecord_silicon (l h reason : Nat) : (linkRecord s l h reason).silicon = s.silicon := by simp [linkRecord]
@[simp] theorem clearLink_silicon (l : Nat) : (clearLink s l).silicon = s.silicon := by simp [clearLink]
@[simp] theorem unpair_silicon : (unpair s).silicon = s.silicon := by simp [unpair]
@[simp] theorem trainFail_silicon (l res : Nat) : (trainFail s l res).silicon = s.silicon := by simp [trainFail]
@[simp] theorem putExt_silicon (l : Nat) (e : ExtLink) : (putExt s l e).silicon = s.silicon := by simp [putExt]
@[simp] theorem tellPeer_silicon : (tellPeer s).silicon = s.silicon := by simp [tellPeer]
@[simp] theorem sendCtrl_silicon (l code : Nat) (body : List Nat) : (sendCtrl s l code body).silicon = s.silicon := by simp [sendCtrl]
@[simp] theorem ctrlDown_silicon (l reason : Nat) : (ctrlDown s l reason).silicon = s.silicon := by simp [ctrlDown]
@[simp] theorem linkDownAt_silicon (h reason : Nat) (tell : Bool) :
    (linkDownAt s h reason tell).silicon = s.silicon := by simp [linkDownAt]

@[simp] theorem extDown_silicon (l reason : Nat) (tell : Bool) : (extDown s l reason tell).silicon = s.silicon := by simp [extDown]
@[simp] theorem hopDown_silicon (h reason : Nat) : (hopDown s h reason).silicon = s.silicon := by simp [hopDown]
@[simp] theorem hubSignal_silicon (ev : Nat) : (hubSignal s u ev).silicon = s.silicon := by simp [hubSignal]

-- Machine/Pump.lean

@[simp] theorem modActive_silicon (ch : Nat) (f : Active → Active) : (modActive s u ch f).silicon = s.silicon := by simp [modActive]
@[simp] theorem memSideRead_silicon (ch d a n : Nat) : (memSideRead s u ch d a n).1.silicon = s.silicon := by simp [memSideRead]
@[simp] theorem readSeg_silicon (ch d : Nat) (c : Conv) (r j0 j1 : Nat) : (readSeg s u ch d c r j0 j1).1.silicon = s.silicon := by
  unfold readSeg; simp only; (repeat' split) <;> simp

@[simp] theorem convSeg_silicon (ch d : Nat) (c : Conv) (r j0 j1 : Nat) : (convSeg s u ch d c r j0 j1).1.silicon = s.silicon := by
  unfold convSeg; simp only; (repeat' split) <;> simp

@[simp] theorem writeMem_silicon (ch d : Nat) (c : Conv) (hav : Option Nat) (g : SegOut) :
    (writeMem s u ch d c hav g).1.silicon = s.silicon := by simp [writeMem]

@[simp] theorem writeSeg_silicon (ch d : Nat) (c : Conv) (hav : Option Nat) (g : SegOut) :
    (writeSeg s u ch d c hav g).1.silicon = s.silicon := by simp [writeSeg]

@[simp] theorem convBlock_silicon (ch d : Nat) (c : Conv) (l : List (Nat × Nat × Nat)) :
    (convBlock s u ch d c l).1.silicon = s.silicon := by
  induction l generalizing s with
  | nil => rfl
  | cons p t ih => simp [convBlock, ih]

@[simp] theorem writeBlock_silicon (ch d : Nat) (c : Conv) (hav : Option Nat) (l : List SegOut) :
    (writeBlock s u ch d c hav l).1.silicon = s.silicon := by
  induction l generalizing s with
  | nil => rfl
  | cons p t ih => simp [writeBlock, ih]

@[simp] theorem gatherBlock_silicon (c : Conv) (os : List ConvOut) : (gatherBlock s u c os).silicon = s.silicon := by simp [gatherBlock]
@[simp] theorem partBlock_silicon (ch d : Nat) (c : Conv) (hav : Option Nat) (qs : List (SegOut × ConvOut)) :
    (partBlock s u ch d c hav qs).silicon = s.silicon := by
  unfold partBlock; simp only; (repeat' split) <;> simp

@[simp] theorem runBlock_silicon (ch : Nat) (a : Active) : (runBlock s u ch a).st.silicon = s.silicon := by simp [runBlock]
@[simp] theorem pumpBlock_silicon (ch : Nat) (a : Active) : (pumpBlock s u ch a).silicon = s.silicon := by simp [pumpBlock]
@[simp] theorem cutBlock_silicon (ch : Nat) (a : Active) : (cutBlock s u ch a).silicon = s.silicon := by simp [cutBlock]
@[simp] theorem creditSpans_silicon (ch : Nat) (a : Active) : (creditSpans s u ch a).silicon = s.silicon := by simp [creditSpans]
@[simp] theorem descEnd_silicon (ch : Nat) (a : Active) (st : Nat) : (descEnd s u ch a st).silicon = s.silicon := by simp [descEnd]
@[simp] theorem pissueBody_silicon (i : InFlight) : ((pissueBody u s i).state s).silicon = s.silicon := by
  unfold pissueBody; simp only; (repeat' split) <;> simp

@[simp] theorem pstatBody_silicon (i : InFlight) : ((pstatBody u s i).state s).silicon = s.silicon := by
  unfold pstatBody; simp only; split <;> simp

@[simp] theorem pcancelBody_silicon (i : InFlight) : ((pcancelBody u s i).state s).silicon = s.silicon := by simp [pcancelBody]

-- Machine/Array.lean

@[simp] theorem readRows_silicon (r o n : Nat) : (readRows s u r o n).1.silicon = s.silicon := by simp [readRows]
@[simp] theorem readOpnd_silicon (r : Nat) (f : Fmt) (weight : Bool) (o n : Nat) :
    (readOpnd s u r f weight o n).1.silicon = s.silicon := by simp [readOpnd]

@[simp] theorem spoilOutput_silicon (g : Nat) (c : ChainRec) : (spoilOutput s u g c).silicon = s.silicon := by simp [spoilOutput]
@[simp] theorem breakChains_silicon (ma : Nat) : (breakChains s u ma).silicon = s.silicon := by simp [breakChains]
@[simp] theorem handOff_silicon (ma : Nat) (f : Arr → Arr) (c : ACmd) : (handOff s u ma f c).silicon = s.silicon := by simp [handOff]
@[simp] theorem mshiftBody_silicon (i : InFlight) : ((mshiftBody u s i).state s).silicon = s.silicon := by
  unfold mshiftBody; simp only; split
  · rfl
  · split
    · rfl
    · split
      · rfl
      · split
        · rfl
        · rename_i h; simpa using joinOrPlace_silicon h

@[simp] theorem mpassBody_silicon (i : InFlight) : ((mpassBody u s i).state s).silicon = s.silicon := by
  unfold mpassBody; simp only; split
  · rfl
  · split
    · rfl
    · split
      · rfl
      · split
        · rfl
        · rename_i h; simpa using joinOrPlace_silicon h

@[simp] theorem shiftEffect_silicon (ma k w bank : Nat) : (shiftEffect s u ma k w bank).silicon = s.silicon := by
  unfold shiftEffect; split <;> simp

theorem arrComplete_silicon {s t : State} {u ma : Nat} {shift : Bool} (h : arrComplete s u ma shift = some t) : t.silicon = s.silicon := by
  unfold arrComplete at h; simp only at h
  split at h
  · cases h
  · cases h; simp

@[simp] theorem readPair_silicon (p : Nat) : (readPair s u p).1.silicon = s.silicon := by simp [readPair]
@[simp] theorem havocPair_silicon (p : Nat) : (havocPair s u p).silicon = s.silicon := by simp [havocPair]
@[simp] theorem passEffect_silicon (ma k w bank : Nat) : (passEffect s u ma k w bank).silicon = s.silicon := by
  unfold passEffect; simp only; (repeat' split) <;> simp

@[simp] theorem passClaimed_silicon (ma k w bank : Nat) : (passClaimed s u ma k w bank).silicon = s.silicon := by simp [passClaimed]

-- Machine/Vec.lean

@[simp] theorem vecBody_silicon (op : SOp) (i : InFlight) : ((vecBody op u s i).state s).silicon = s.silicon := by
  unfold vecBody; simp only; split
  · rfl
  · split
    · rfl
    · split
      · simp
      · split
        · rfl
        · rename_i h; simpa using joinOrPlace_silicon h

@[simp] theorem readView_silicon (r wd : Nat) : (readView s u r t wd).1.silicon = s.silicon := by simp [readView]
@[simp] theorem vopEffect_silicon (c : VCmd) : (vopEffect s u c).silicon = s.silicon := by simp [vopEffect]
@[simp] theorem vcmpEffect_silicon (c : VCmd) : (vcmpEffect s u c).silicon = s.silicon := by simp [vcmpEffect]
@[simp] theorem vredEffect_silicon (c : VCmd) : (vredEffect s u c).silicon = s.silicon := by simp [vredEffect]
@[simp] theorem moveEffect_silicon (c : VCmd) : (moveEffect s u c).silicon = s.silicon := by simp [moveEffect]
@[simp] theorem readCvt_silicon (r : Nat) (f : Fmt) (n : Nat) : (readCvt s u r f n).1.silicon = s.silicon := by simp [readCvt]
@[simp] theorem cvtSide_silicon (r : Nat) (f : Fmt) (m : Nat) : (cvtSide s u r f m).1.silicon = s.silicon := by simp [cvtSide]
@[simp] theorem copySide_silicon (rs rd m : Nat) (f : Fmt) : (copySide s u rs rd m f).silicon = s.silicon := by simp [copySide]
@[simp] theorem vcvtEffect_silicon (c : VCmd) : (vcvtEffect s u c).silicon = s.silicon := by
  unfold vcvtEffect; simp only; split <;> simp

@[simp] theorem vecEffect_silicon (op : SOp) (c : VCmd) : (vecEffect op s u c).silicon = s.silicon := by
  unfold vecEffect; split <;> simp

-- Machine/Chain.lean

@[simp] theorem chainBody_silicon (i : InFlight) : ((chainBody u s i).state s).silicon = s.silicon := by
  unfold chainBody; simp only; (repeat' split) <;> simp

@[simp] theorem modChain_silicon (f : ChainRec → ChainRec) : (modChain s u t f).silicon = s.silicon := by simp [modChain]
@[simp] theorem loadList_silicon {α : Type} (f : State → Nat → State × Option α) (h : ∀ s i, (f s i).1.silicon = s.silicon)
    (s : State) (l : List Nat) : (loadList f s l).1.silicon = s.silicon := by
  induction l generalizing s with
  | nil => rfl
  | cons i t ih => unfold loadList; simp only; split <;> simp [ih, h]

@[simp] theorem loadCodes_silicon (f : Fmt) (base d0 : Nat) (i : Nat) :
    (loadCodes u f base d0 s i).1.silicon = s.silicon := by simp [loadCodes]

@[simp] theorem loadA_silicon (r : Nat) (i : Nat) : (loadA u r s i).1.silicon = s.silicon := by
  unfold loadA; simp only; split <;> simp

@[simp] theorem loadW_silicon (r k base d0 : Nat) (i : Nat) : (loadW u r k base d0 s i).1.silicon = s.silicon := by
  unfold loadW; simp only; split <;> simp

@[simp] theorem loadC_silicon (r : Nat) (int : Bool) (i : Nat) : (loadC u r int s i).1.silicon = s.silicon := by simp [loadC]
@[simp] theorem stageGemm_silicon (c : ChainRec) (g : Nat) : (stageGemm s u c g t).1.silicon = s.silicon := by
  unfold stageGemm; simp only; (repeat' split) <;> simp

@[simp] theorem stageTwo_silicon (c : ChainRec) (g : Nat) : (stageTwo s u c g t).1.silicon = s.silicon := by
  unfold stageTwo; simp only; (repeat' split) <;> simp

@[simp] theorem attnAll_silicon (c : ChainRec) (g : Nat) : (attnAll s u c g).1.silicon = s.silicon := by
  unfold attnAll; simp only; (repeat' split) <;> simp

@[simp] theorem endChain_silicon (st : Nat) : (endChain s u t st).silicon = s.silicon := by simp [endChain]
@[simp] theorem pageRead_silicon (c : ChainRec) : (pageRead s u t c).silicon = s.silicon := by
  unfold pageRead; simp only; (repeat' split) <;> simp

@[simp] theorem stageGather_silicon (c : ChainRec) (g : Nat) : (stageGather s u c g t).1.silicon = s.silicon := by
  unfold stageGather; simp only; (repeat' split) <;> simp

@[simp] theorem loadSlot_silicon (r i : Nat) (d : Nat) : (loadSlot u r i s d).1.silicon = s.silicon := by
  unfold loadSlot; simp only; split <;> simp

@[simp] theorem reduceGroup_silicon (c : ChainRec) (g : Nat) : (reduceGroup s u t c g).silicon = s.silicon := by
  unfold reduceGroup; simp only; split <;> simp

@[simp] theorem stageTile_silicon (c : ChainRec) (g ct : Nat) : (stageTile s u t c g ct).1.silicon = s.silicon := by
  unfold stageTile; simp only; split <;> simp

@[simp] theorem convRows_silicon (c : Conv) (d0 j : Nat) (l : List (Nat × List Nat)) : (convRows s u c d0 j l).1.silicon = s.silicon := by
  induction l generalizing s with
  | nil => rfl
  | cons p t ih => unfold convRows; simp only; split <;> simp [ih]

@[simp] theorem writeOut_silicon (v : Nat) (broken : Option Nat) (l : List (Nat × List Byte)) :
    (writeOut s v broken l).1.silicon = s.silicon := by
  induction l generalizing s with
  | nil => rfl
  | cons p t ih => simp [writeOut, ih]

@[simp] theorem notify_silicon (r ev : Nat) : (notify s u t r ev).silicon = s.silicon := by simp [notify]
@[simp] theorem fillNotes_silicon : (fillNotes s u).silicon = s.silicon := by
  unfold fillNotes; split <;> simp

@[simp] theorem tileDone_silicon (c : ChainRec) : (tileDone s u t c).silicon = s.silicon := by simp [tileDone]
@[simp] theorem partialTile_silicon (c : ChainRec) : (partialTile s u t c).silicon = s.silicon := by
  unfold partialTile; simp only; (repeat' split) <;> simp

@[simp] theorem outputTile_silicon (c : ChainRec) : (outputTile s u t c).silicon = s.silicon := by
  unfold outputTile; simp only; (repeat' split) <;> simp

@[simp] theorem havocWindow_silicon (c : ChainRec) : (havocWindow s u c).silicon = s.silicon := by simp [havocWindow]
@[simp] theorem creditChain_silicon (c : ChainRec) : (creditChain s u c).silicon = s.silicon := by simp [creditChain]
@[simp] theorem dropChain_silicon : (dropChain s u t).silicon = s.silicon := by simp [dropChain]

-- Machine/Control.lean

@[simp] theorem heldBody_silicon (op : SOp) (u : Nat) (s : State) (i : InFlight) : ((heldBody op u s i).state s).silicon = s.silicon := by
  unfold heldBody; split <;> simp

@[simp] theorem idleCycle_silicon : (idleCycle s).silicon = s.silicon := by simp [idleCycle]
@[simp] theorem quiesceLeave_silicon : (quiesceLeave s u).silicon = s.silicon := by
  unfold quiesceLeave; simp only [creditBack_silicon]
  rw [silicon_foldl _ (fun s c => by simp), silicon_foldl _ (fun s p => by split <;> simp)]

@[simp] theorem quiesceUnit_silicon : (quiesceUnit s u).silicon = s.silicon := by simp [quiesceUnit]
@[simp] theorem beginReset_silicon (ls : Nat) : (beginReset s ls).silicon = s.silicon := by simp [beginReset]
@[simp] theorem releaseUnit_silicon : (releaseUnit s u).silicon = s.silicon := by
  unfold releaseUnit; split <;> simp

@[simp] theorem endReset_silicon (ls : Nat) : (endReset s ls).silicon = s.silicon := by simp [endReset]
@[simp] theorem mapDone_silicon (ls : Nat) : (mapDone s ls).silicon = s.silicon := by simp [mapDone]
@[simp] theorem unitOff_silicon : (unitOff s u).silicon = s.silicon := by
  unfold unitOff; rw [silicon_foldl _ (fun s t => by split <;> simp)]; simp

@[simp] theorem unitOn_silicon : (unitOn s u).silicon = s.silicon := by simp [unitOn]
@[simp] theorem switchSpend_silicon : (switchSpend s).silicon = s.silicon := by simp [switchSpend]

-- Machine/Rings.lean

@[simp] theorem writeSqTail_silicon (n v : Nat) : (writeSqTail n v s).silicon = s.silicon := by simp [writeSqTail]
@[simp] theorem writeCqHead_silicon (n v : Nat) : (writeCqHead n v s).silicon = s.silicon := by simp [writeCqHead]
@[simp] theorem qpDrop_silicon (n : Nat) : (qpDrop s n).silicon = s.silicon := by simp [qpDrop]
@[simp] theorem writeQpEnable_silicon (n v : Nat) : (writeQpEnable n v s).silicon = s.silicon := by simp [writeQpEnable]
@[simp] theorem writeQpCoal_silicon (n v : Nat) : (writeQpCoal n v s).silicon = s.silicon := by simp [writeQpCoal]
@[simp] theorem msixRelease_silicon : (msixRelease s).silicon = s.silicon := by simp [msixRelease]
@[simp] theorem writeVectorMask_silicon (v : Nat) (m : Bool) : (writeVectorMask v m s).silicon = s.silicon := by simp [writeVectorMask]
@[simp] theorem routeFrame_silicon (f : Frame) : (routeFrame s f).silicon = s.silicon := by simp [routeFrame]
@[simp] theorem retarget_silicon : (retarget s).silicon = s.silicon := by simp [retarget]

-- Machine/Sessions.lean

theorem drbgTake_silicon {s : State} {g : Nat × State} (h : drbgTake s = some g) : g.2.silicon = s.silicon := by
  unfold drbgTake at h
  split at h
  · cases h
  · cases h; simp

@[simp] theorem wakeWork_silicon : (wakeWork s).silicon = s.silicon := by simp [wakeWork]
theorem openFrame_silicon {s t : State} {f : Frame} (h : openFrame s f = some t) : t.silicon = s.silicon := by
  unfold openFrame at h; simp only at h
  split at h
  · cases h; simp
  · split at h
    · cases h; simp
    · split at h
      · cases h; simp
      · split at h
        · simp only [Option.map_eq_some_iff] at h
          obtain ⟨g, hg, rfl⟩ := h
          simpa using drbgTake_silicon hg
        · cases h; simp

@[simp] theorem applyConfig_silicon (f : Frame) (masks : List (Nat × List Byte)) (stops : List (List Byte)) :
    (applyConfig s f masks stops).silicon = s.silicon := by simp [applyConfig]

@[simp] theorem configFrame_silicon (f : Frame) (p : Option (List Byte)) : (configFrame s f p).silicon = s.silicon := by
  unfold configFrame; simp only; (repeat' split) <;> simp

@[simp] theorem addTokens_silicon (f : Frame) (toks : List Nat) (drop cut : Nat) :
    (addTokens s f toks drop cut).silicon = s.silicon := by simp [addTokens]

@[simp] theorem appendTokens_silicon (f : Frame) (bs : List Byte) : (appendTokens s f bs).silicon = s.silicon := by simp [appendTokens]
@[simp] theorem startJob_silicon (j : TextJob) : (startJob s j).silicon = s.silicon := by simp [startJob]
@[simp] theorem appendText_silicon (f : Frame) (nspans : Nat) (bs : List Byte) (beyond : Nat) :
    (appendText s f nspans bs beyond).silicon = s.silicon := by simp [appendText]

@[simp] theorem appendTextFrame_silicon (f : Frame) (p : Option (List Byte)) : (appendTextFrame s f p).silicon = s.silicon := by
  unfold appendTextFrame; (repeat' split) <;> simp

@[simp] theorem textReads_silicon (l : List Nat) : (textReads s l).1.silicon = s.silicon := by
  induction l generalizing s with
  | nil => rfl
  | cons w t ih => unfold textReads; split <;> simp [ih]

@[simp] theorem textUe_silicon (w sid : Nat) : (textUe s w sid).silicon = s.silicon := by simp [textUe]
@[simp] theorem textReadsOf_silicon (ws : List Nat) : (textReadsOf s ws).1.silicon = s.silicon := by simp [textReadsOf]
@[simp] theorem textRepair_silicon : (textRepair s).silicon = s.silicon := by
  unfold textRepair; split <;> simp

@[simp] theorem markReady_silicon (sid : Nat) : (markReady s sid).silicon = s.silicon := by simp [markReady]
@[simp] theorem generateFrame_silicon (f : Frame) : (generateFrame s f).silicon = s.silicon := by simp [generateFrame]
@[simp] theorem popUrgent_silicon (f : Frame) : (popUrgent s f).silicon = s.silicon := by simp [popUrgent]
@[simp] theorem cancelFrames_silicon (sid reason : Nat) : (cancelFrames s sid reason).1.silicon = s.silicon := by simp [cancelFrames]

-- Machine/Load.lean

@[simp] theorem setImgStatus_silicon (v : Nat) : (setImgStatus s v).silicon = s.silicon := by simp [setImgStatus]
@[simp] theorem imgIgnored_silicon (b : Bool) : (imgIgnored s b).silicon = s.silicon := by simp [imgIgnored]
@[simp] theorem wellClear_silicon (lo n : Nat) : (wellClear s lo n).silicon = s.silicon := by simp [wellClear]
@[simp] theorem clearDies_silicon (ds : List Nat) : (clearDies s ds).silicon = s.silicon := by simp [clearDies]
@[simp] theorem clearRegions_silicon : (clearRegions s).silicon = s.silicon := by simp [clearRegions]
@[simp] theorem clearText_silicon : (clearText s).silicon = s.silicon := by simp [clearText]
@[simp] theorem parkAll_silicon : (parkAll s).silicon = s.silicon := by simp [parkAll]
@[simp] theorem removeDies_silicon (ds : List Nat) : (removeDies s ds).silicon = s.silicon := by simp [removeDies]
@[simp] theorem removeImage_silicon : (removeImage s).silicon = s.silicon := by simp [removeImage]
@[simp] theorem refuseImage_silicon (reason idx : Nat) (id : List Byte) (wrote : List Nat) :
    (refuseImage s reason idx id wrote).silicon = s.silicon := by simp [refuseImage]

@[simp] theorem writeChunks_silicon (cs : List Chunk) : (writeChunks s cs).silicon = s.silicon := by
  unfold writeChunks; rw [silicon_foldl _ (fun s c => by simp)]; simp

@[simp] theorem fitRegs_silicon (modes : List Nat) (pool : Nat) : (fitRegs s modes pool).silicon = s.silicon := by simp [fitRegs]
@[simp] theorem fitCheck_silicon (bs : List Byte) : (fitCheck s bs).silicon = s.silicon := by
  unfold fitCheck; simp only; split
  · split <;> simp
  · rfl

@[simp] theorem pairFit_silicon : (pairFit s).silicon = s.silicon := by simp [pairFit]
@[simp] theorem installText_silicon (t : List Byte) : (installText s t).silicon = s.silicon := by simp [installText]
@[simp] theorem installImage_silicon (bs : List Byte) (l : Loaded) : (installImage s bs l).silicon = s.silicon := by
  unfold installImage; split <;> simp

@[simp] theorem loadRequest_silicon : (loadRequest s).silicon = s.silicon := by simp [loadRequest]
@[simp] theorem loadEnd_silicon (bs : List Byte) : (loadEnd s bs).silicon = s.silicon := by simp [loadEnd]
@[simp] theorem runLoad_silicon (extents : List (Nat × Nat)) (bytes : Option (List Byte)) (bad : Option Nat) :
    (runLoad s extents bytes bad).silicon = s.silicon := by
  unfold runLoad; simp only; (repeat' split) <;> simp

@[simp] theorem unloadRequest_silicon : (unloadRequest s).silicon = s.silicon := by simp [unloadRequest]

-- Machine/Steps.lean

@[simp] theorem hubWrite_silicon (a : Nat) (bs : List Byte) : (hubWrite s u a bs).silicon = s.silicon := by simp [hubWrite]
@[simp] theorem hubRead_silicon (a : Nat) : (hubRead s u a).1.silicon = s.silicon := by simp [hubRead]
@[simp] theorem readReports_silicon (us : List Nat) (no : Nat) : (readReports s us no).silicon = s.silicon := by simp [readReports]
@[simp] theorem primeUnit_silicon (im : Image) (saved : Option (Tab Slot)) :
    (primeUnit s im u saved).silicon = s.silicon := by simp [primeUnit]

@[simp] theorem primeReads_silicon : (primeReads s).silicon = s.silicon := by simp [primeReads]
@[simp] theorem resetAll_silicon : (resetAll s).silicon = s.silicon := by simp [resetAll]
@[simp] theorem primeFail_silicon (what : PrimeOf) (res : Nat) : (primeFail s what res).silicon = s.silicon := by simp [primeFail]
@[simp] theorem timeoutRec_silicon (no : Nat) (f : Nat → Bool) : (timeoutRec s no f).silicon = s.silicon := by simp [timeoutRec]
theorem allocPage_silicon {s t : State} {sid p : Nat} (h : allocPage s sid p = some t) : t.silicon = s.silicon := by
  unfold allocPage at h; simp only at h
  split at h
  · cases h; rfl
  · simp only [Option.ite_none_left_eq_some, Option.some.injEq] at h
    obtain ⟨-, rfl⟩ := h; simp

@[simp] theorem decodeRow_silicon (b : Build) (sid r : Nat) : (decodeRow b sid r).1.silicon = b.1.silicon := by
  unfold decodeRow; simp only; split
  · rfl
  · split
    · rename_i h; exact allocPage_silicon h
    · simp

@[simp] theorem joinRow_silicon (cap : Nat) (b : Build) (sid : Nat) : (joinRow cap b sid).1.silicon = b.1.silicon := by
  unfold joinRow; simp only; split
  · rfl
  · split <;> simp

@[simp] theorem prefill_silicon (b : Build) (gs sids : List Nat) : (prefill b gs sids).1.silicon = b.1.silicon := by
  induction b, gs, sids using prefill.induct with
  | case1 | case2 => simp [prefill]
  | case3 b g gs sid t x s h ih => rw [prefill]; simp only [x] at h; simp [h, ih, allocPage_silicon h]
  | case4 b g gs sid t x h hg ih => rw [prefill]; simp only [x] at h hg; simp [h, hg, ih]
  | case5 b g gs sid t x h hg ih => rw [prefill]; simp only [x] at h hg; simp [h, hg, ih]

@[simp] theorem buildStep_silicon : (buildStep s).1.silicon = s.silicon := by simp [buildStep]
@[simp] theorem writeMasks_silicon (r : RowRec) : (writeMasks s r).silicon = s.silicon := by
  unfold writeMasks; simp only; split
  · rfl
  · rw [silicon_foldl _ (fun s k => by split <;> simp)]

@[simp] theorem writeTables_silicon (no : Nat) (rows : List RowRec) : (writeTables s no rows).silicon = s.silicon := by simp [writeTables]
@[simp] theorem startStep_silicon (no : Nat) (rows : List RowRec) (sec : Bool) :
    (startStep s no rows sec).silicon = s.silicon := by simp [startStep]

@[simp] theorem readOuts_silicon (no : Nat) (rows : List Nat) : (readOuts s no rows).1.silicon = s.silicon := by
  unfold readOuts
  rw [silicon_fst_foldl _ (fun q r => by split <;> simp)]

@[simp] theorem standpipe_silicon (sid : Nat) : (standpipe s sid t).silicon = s.silicon := by
  unfold standpipe; simp only; (repeat' split) <;> simp

@[simp] theorem endByLength_silicon (sid : Nat) : (endByLength s sid).silicon = s.silicon := by
  unfold endByLength; simp only; split <;> simp

@[simp] theorem decoded_silicon (sid pos out : Nat) : (decoded s sid pos out).silicon = s.silicon := by
  unfold decoded; simp only; (repeat' split) <;> simp

@[simp] theorem finishRow_silicon (own peer : Tab Nat) (s0 s : State) (r : RowRec) :
    (finishRow own peer s0 s r).silicon = s.silicon := by
  simp [finishRow]

@[simp] theorem stepFault_silicon (st : StepRec) (told : Bool) : (stepFault s st told).silicon = s.silicon := by simp [stepFault]

-- Machine/Memory.lean

@[simp] theorem scrubFloat_silicon (n op pos total cnt : Nat) :
    (scrubFloat s n op pos total cnt).silicon = s.silicon := by simp [scrubFloat]

@[simp] theorem scrubWord_silicon (w : Nat) : (scrubWord s w).silicon = s.silicon := by
  unfold scrubWord; split <;> simp

-- Machine/Links.lean

@[simp] theorem dropArrival_silicon (n : Nat) : (dropArrival s n).silicon = s.silicon := by simp [dropArrival]
@[simp] theorem applySignal_silicon (v ev : Nat) : (applySignal s v ev).silicon = s.silicon := by simp [applySignal]
@[simp] theorem modSip_silicon (req : Nat) (f : Sip → Sip) : (modSip s u req f).silicon = s.silicon := by simp [modSip]
@[simp] theorem tileTouch_silicon (t : Tile) : (tileTouch s t).silicon = s.silicon := by simp [tileTouch]
@[simp] theorem landedAt_silicon (req st : Nat) : (landedAt s u req st).silicon = s.silicon := by
  unfold landedAt; (repeat' split) <;> simp

@[simp] theorem forward_silicon (fs : List Flit) : (forward s fs).silicon = s.silicon := by
  unfold forward; (repeat' split) <;> simp

@[simp] theorem arrive_silicon (h die : Nat) (f : Flit) (w : ArrKind) : (arrive s h die f w).silicon = s.silicon := by simp [arrive]
@[simp] theorem trainStart_silicon (l : Nat) : (trainStart s l).silicon = s.silicon := by simp [trainStart]
@[simp] theorem trainLinks_silicon (mask : Nat) : (trainLinks s mask).silicon = s.silicon := by simp [trainLinks]
@[simp] theorem trainDone_silicon : (trainDone s).silicon = s.silicon := by simp [trainDone]
@[simp] theorem extUp_silicon (l : Nat) (maps : List Nat) : (extUp s l maps).silicon = s.silicon := by
  unfold extUp; simp only; split <;> simp

@[simp] theorem pairCheck_silicon (l peerRole variant : Nat) (maps : List Nat) :
    (pairCheck s l peerRole variant maps).silicon = s.silicon := by
  unfold pairCheck; (repeat' split) <;> simp

@[simp] theorem peerDown_silicon (l reason : Nat) : (peerDown s l reason).silicon = s.silicon := by simp [peerDown]
@[simp] theorem ctrlEffect_silicon (l : Nat) (f : Flit) : (ctrlEffect s l f).silicon = s.silicon := by simp [ctrlEffect]
@[simp] theorem deliver_silicon (h : Nat) (f : Flit) : (deliver s h f).silicon = s.silicon := by
  unfold deliver; simp only; (repeat' split) <;> simp

@[simp] theorem sendNak_silicon (h : Nat) : (sendNak s h).silicon = s.silicon := by simp [sendNak]
@[simp] theorem popWire_silicon (h : Nat) : (popWire s h).silicon = s.silicon := by simp [popWire]
@[simp] theorem receive_silicon (h : Nat) (f : Flit) (good : Bool) : (receive s h f good).silicon = s.silicon := by simp [receive]
@[simp] theorem fecCount_silicon (h corr uncorr : Nat) : (fecCount s h corr uncorr).silicon = s.silicon := by simp [fecCount]
@[simp] theorem replay_silicon (h k : Nat) : (replay s h k).silicon = s.silicon := by simp [replay]
@[simp] theorem acceptNext_silicon (l : Nat) : (acceptNext s l).silicon = s.silicon := by simp [acceptNext]
@[simp] theorem extDisable_silicon (l : Nat) : (extDisable s l).silicon = s.silicon := by simp [extDisable]

-- Machine/Power.lean

@[simp] theorem markStarved_silicon : (markStarved s).silicon = s.silicon := by simp [markStarved]
@[simp] theorem calibrate_silicon : (calibrate s).silicon = s.silicon := by simp [calibrate]
@[simp] theorem windowClose_silicon : (windowClose s).silicon = s.silicon := by simp [windowClose]
@[simp] theorem windowOpen_silicon : (windowOpen s).silicon = s.silicon := by simp [windowOpen]
theorem reqSpan_silicon {s t : State} {u ch : Nat} (h : reqSpan s u ch = some t) : t.silicon = s.silicon := by
  unfold reqSpan at h; simp only at h
  split at h
  · split at h
    · cases h
    · cases h; simp
  · cases h

theorem reqTile_silicon {s t : State} {u req : Nat} {what : Purpose} (h : reqTile s u req what = some t) :
    t.silicon = s.silicon := by
  unfold reqTile at h; simp only at h
  split at h
  · split at h
    · cases h
    · split at h
      · cases h
      · cases h; simp
  · cases h

theorem reqChain_silicon {s t' : State} {u t cls : Nat} (h : reqChain s u t cls = some t') : t'.silicon = s.silicon := by
  unfold reqChain at h; split at h
  · simp only [Option.ite_none_left_eq_some, Option.some.injEq] at h
    obtain ⟨-, rfl⟩ := h; simp
  · cases h

@[simp] theorem grantTo_silicon (q : LReq) (cost : Nat) (eco : Bool) : (grantTo s q cost eco).silicon = s.silicon := by
  unfold grantTo; (repeat' split) <;> simp

@[simp] theorem grant_silicon (q : LReq) : (grant s q).silicon = s.silicon := by simp [grant]

-- Machine/Time.lean

@[simp] theorem servoGo_silicon (t : Servo) : (servoGo s t).silicon = s.silicon := by simp [servoGo]
@[simp] theorem timeStep_silicon (th : Int) : (timeStep s th).silicon = s.silicon := by simp [timeStep]
@[simp] theorem timeSlew_silicon (th : Int) : (timeSlew s th).silicon = s.silicon := by simp [timeSlew]
@[simp] theorem measure_silicon (th : Int) : (measure s th).silicon = s.silicon := by
  unfold measure; simp only; (repeat' split) <;> simp

@[simp] theorem writeTimeCtl_silicon (v : Nat) : (writeTimeCtl v s).silicon = s.silicon := by simp [writeTimeCtl]
@[simp] theorem writeTodHi_silicon (v : Nat) : (writeTodHi v s).silicon = s.silicon := by simp [writeTodHi]
@[simp] theorem sumpEnter_silicon (r : RecIn) : (sumpEnter s r).silicon = s.silicon := by simp [sumpEnter]
@[simp] theorem sumpDrain_silicon : (sumpDrain s).silicon = s.silicon := by simp [sumpDrain]
@[simp] theorem writeEvtMask_silicon (v : Nat) : (writeEvtMask v s).silicon = s.silicon := by simp [writeEvtMask]

-- Machine/Reset.lean

@[simp] theorem setStage_silicon (n : Nat) : (setStage s n).silicon = s.silicon := by simp [setStage]
@[simp] theorem restartZero_silicon : (restartZero s).silicon = s.silicon := by
  unfold restartZero; split <;> simp

@[simp] theorem endLoad_silicon : (endLoad s).silicon = s.silicon := by simp [endLoad]
@[simp] theorem hostReset_silicon : (hostReset s).silicon = s.silicon := by simp [hostReset]
@[simp] theorem stationsReset_silicon : (stationsReset s).silicon = s.silicon := by simp [stationsReset]
@[simp] theorem resetWords_silicon (ranges : List (Nat × Nat)) (keep : List Nat) :
    (resetWords s ranges keep).silicon = s.silicon := by simp [resetWords]

@[simp] theorem tapEndScan_silicon : (tapEndScan s).silicon = s.silicon := by simp [tapEndScan]
@[simp] theorem debugReset_silicon : (debugReset s).silicon = s.silicon := by simp [debugReset]
@[simp] theorem warmReset_silicon : (warmReset s).silicon = s.silicon := by simp [warmReset]
@[simp] theorem ctrlScrub_silicon : (ctrlScrub s).silicon = s.silicon := by simp [ctrlScrub]
@[simp] theorem ctrlFinish_silicon : (ctrlFinish s).silicon = s.silicon := by
  unfold ctrlFinish; dsimp only
  rw [restartZero_silicon, setReg_silicon, debugReset_silicon, silicon_mk, silicon_eta, ctrlScrub_silicon, resetWords_silicon,
    silicon_foldl _ clearLink_silicon, silicon_mk, silicon_eta]
  simp

@[simp] theorem ctrlReset_silicon : (ctrlReset s).silicon = s.silicon := by simp [ctrlReset]
@[simp] theorem writeBootCtl_silicon (v : Nat) : (writeBootCtl v s).silicon = s.silicon := by simp [writeBootCtl]
@[simp] theorem writeStnReset_silicon (v : Nat) : (writeStnReset v s).silicon = s.silicon := by simp [writeStnReset]
@[simp] theorem lostState_silicon (pins : Pins) : (lostState s pins).silicon = s.silicon := by simp [lostState, coldState]

-- Machine/Boot.lean

@[simp] theorem vidGo_silicon (p : PState) : (vidGo s p).silicon = s.silicon := by simp [vidGo]
@[simp] theorem fwAuth_silicon (src : Nat) (bytes : List Byte) : (fwAuth s src bytes).silicon = s.silicon := by simp [fwAuth]
@[simp] theorem bootFail_silicon (code : Nat) : (bootFail s code).silicon = s.silicon := by simp [bootFail]
@[simp] theorem bootReady_silicon : (bootReady s).silicon = s.silicon := by simp [bootReady]

-- Machine/Security.lean

@[simp] theorem lcDone_silicon (new : Nat) (full : Bool) : (lcDone s new full).silicon = s.silicon := by simp [lcDone]
@[simp] theorem unlockRec_silicon (level old slot cnt : Nat) (jtag : Bool) :
    (unlockRec s level old slot cnt jtag).silicon = s.silicon := by simp [unlockRec]

@[simp] theorem setDbgStatus_silicon (v : Nat) : (setDbgStatus s v).silicon = s.silicon := by simp [setDbgStatus]
@[simp] theorem unlockDone_silicon (u : Unlock) : (unlockDone s u).silicon = s.silicon := by simp [unlockDone]
@[simp] theorem zeroSess_silicon (sid : Nat) : (zeroSess s sid).silicon = s.silicon := by simp [zeroSess]
@[simp] theorem zeroLoad_silicon : (zeroLoad s).silicon = s.silicon := by simp [zeroLoad]
@[simp] theorem zeroBegin_silicon (z : Zero) : (zeroBegin s z).silicon = s.silicon := by simp [zeroBegin]
@[simp] theorem startZero_silicon (kind cause : Nat) : (startZero s kind cause).silicon = s.silicon := by simp [startZero]
@[simp] theorem askZero_silicon (cause : Nat) : (askZero s cause).silicon = s.silicon := by simp [askZero]
@[simp] theorem writeZeroize_silicon (v : Nat) : (writeZeroize v s).silicon = s.silicon := by simp [writeZeroize]
@[simp] theorem writeLcReq_silicon (v : Nat) : (writeLcReq v s).silicon = s.silicon := by simp [writeLcReq]
@[simp] theorem makeReport_silicon (gen : Nat) : (makeReport s gen).silicon = s.silicon := by simp [makeReport]
@[simp] theorem makeChal_silicon (gen level : Nat) (jtag : Bool) : (makeChal s gen level jtag).silicon = s.silicon := by simp [makeChal]
@[simp] theorem drbgServe_silicon (w : Option (Nat × Bool)) : (drbgServe s w).silicon = s.silicon := by
  unfold drbgServe; split
  · simp
  · rename_i h; split <;> simpa using drbgTake_silicon h

@[simp] theorem reseed_silicon : (reseed s).silicon = s.silicon := by simp [reseed]
@[simp] theorem writeAttestCtl_silicon (v : Nat) : (writeAttestCtl v s).silicon = s.silicon := by simp [writeAttestCtl]
@[simp] theorem grantUnlock_silicon (u : Unlock) : (grantUnlock s u).silicon = s.silicon := by simp [grantUnlock]
@[simp] theorem relock_silicon (level : Nat) (jtag : Bool) : (relock s level jtag).silicon = s.silicon := by simp [relock]
@[simp] theorem levelRequest_silicon (level : Nat) (jtag : Bool) :
    (levelRequest s level jtag).silicon = s.silicon := by simp [levelRequest]

@[simp] theorem respond_silicon : (respond s).silicon = s.silicon := by
  unfold respond; (repeat' split) <;> simp

@[simp] theorem writeDbgReq_silicon (jtag : Bool) (v : Nat) : (writeDbgReq jtag v s).silicon = s.silicon := by simp [writeDbgReq]

-- Machine/PState.lean

@[simp] theorem creditUnit_silicon (x : Station) : (creditUnit s u x).silicon = s.silicon := by
  unfold creditUnit; simp only [setStn_silicon, creditBack_silicon]
  exact silicon_foldl _ (fun s p => by split <;> simp) _ _

@[simp] theorem creditAll_silicon : (creditAll s).silicon = s.silicon := by simp [creditAll]
@[simp] theorem floatsOff_silicon : (floatsOff s).silicon = s.silicon := by
  unfold floatsOff; rw [silicon_foldl _ (fun s n => by (repeat' split) <;> simp)]

@[simp] theorem enterP4_silicon : (enterP4 s).silicon = s.silicon := by simp [enterP4]
@[simp] theorem storeTemps_silicon (dieT stackT : List Nat) : (storeTemps s dieT stackT).silicon = s.silicon := by simp [storeTemps]
@[simp] theorem thermalStop_silicon : (thermalStop s).1.silicon = s.silicon := by simp [thermalStop]
@[simp] theorem stackStop_silicon (q : State × List ThermNote) (k t : Nat) : (stackStop q k t).1.silicon = q.1.silicon := by
  unfold stackStop; simp only; split
  · split <;> simp
  · split <;> simp

@[simp] theorem thermRec_silicon (n : ThermNote) : (thermRec s n).silicon = s.silicon := by simp [thermRec]
@[simp] theorem writePwrCtl_silicon (v : Nat) : (writePwrCtl v s).silicon = s.silicon := by
  unfold writePwrCtl; simp only; split <;> simp

@[simp] theorem vidFit_silicon (p : PState) : (vidFit s p).silicon = s.silicon := by simp [vidFit]
@[simp] theorem moveTo_silicon (p : PState) (auto : Bool) : (moveTo s p auto).silicon = s.silicon := by simp [moveTo]
@[simp] theorem standbyLink_silicon (l : Nat) : (standbyLink s l).silicon = s.silicon := by simp [standbyLink]
@[simp] theorem enterP3_silicon : (enterP3 s).silicon = s.silicon := by simp [enterP3]
@[simp] theorem leaveP3_silicon (p : PState) : (leaveP3 s p).silicon = s.silicon := by
  unfold leaveP3; simp only; split <;> simp

-- Machine/Debug.lean

@[simp] theorem cmdEnd_silicon (code : Nat) : (cmdEnd s code).silicon = s.silicon := by simp [cmdEnd]
@[simp] theorem putData_silicon (ws : List Nat) : (putData s ws).silicon = s.silicon := by simp [putData]
@[simp] theorem putBytes_silicon (bs : List Byte) : (putBytes s bs).silicon = s.silicon := by simp [putBytes]
@[simp] theorem takeCmd_silicon (s : State) (w level : Nat) (station power : Bool) (go : State → Nat → State)
    (h : ∀ s u, (go s u).silicon = s.silicon) : (takeCmd s w level station power go).silicon = s.silicon := by
  unfold takeCmd; simp only; (repeat' split) <;> simp [h]

@[simp] theorem dbgReadThread_silicon (w : Nat) : (dbgReadThread w s).silicon = s.silicon := by simp [dbgReadThread]
@[simp] theorem dbgReadEvents_silicon (w : Nat) : (dbgReadEvents w s).silicon = s.silicon := by simp [dbgReadEvents]
@[simp] theorem dbgReadPump_silicon (w : Nat) : (dbgReadPump w s).silicon = s.silicon := by simp [dbgReadPump]
@[simp] theorem dbgHalt_silicon (w : Nat) : (dbgHalt w s).silicon = s.silicon := by simp [dbgHalt]
@[simp] theorem dbgResume_silicon (w : Nat) : (dbgResume w s).silicon = s.silicon := by simp [dbgResume]
@[simp] theorem dbgStep_silicon (w : Nat) : (dbgStep w s).silicon = s.silicon := by simp [dbgStep]
@[simp] theorem dbgBrk_silicon (arm : Bool) (w : Nat) : (dbgBrk arm w s).silicon = s.silicon := by simp [dbgBrk]
@[simp] theorem dbgReadScalar_silicon (w : Nat) : (dbgReadScalar w s).silicon = s.silicon := by simp [dbgReadScalar]
@[simp] theorem dbgWriteScalar_silicon (w : Nat) : (dbgWriteScalar w s).silicon = s.silicon := by simp [dbgWriteScalar]
@[simp] theorem tileGet_silicon (a : Nat) : (tileGet s u a).1.silicon = s.silicon := by simp [tileGet]
@[simp] theorem tilePut_silicon (a : Nat) (bs : List Byte) : (tilePut s u a bs).silicon = s.silicon := by simp [tilePut]
@[simp] theorem dbgReadTile_silicon (w : Nat) : (dbgReadTile w s).silicon = s.silicon := by simp [dbgReadTile]
@[simp] theorem dbgWriteTile_silicon (w : Nat) : (dbgWriteTile w s).silicon = s.silicon := by simp [dbgWriteTile]
@[simp] theorem notStep_silicon (s t : State) : (notStep s t).silicon = t.silicon := by simp [notStep]
@[simp] theorem pmRead_silicon (a : Nat) : (pmRead s u a).1.silicon = s.silicon := by
  unfold pmRead; split <;> simp

@[simp] theorem pmReads_silicon (a n : Nat) : (pmReads s u a n).1.silicon = s.silicon := by simp [pmReads]
@[simp] theorem textUeFree_silicon (w : Nat) : (textUeFree s w).silicon = s.silicon := by simp [textUeFree]
@[simp] theorem textRead_silicon (a n : Nat) : (textRead s a n).1.silicon = s.silicon := by
  unfold textRead; simp only; split <;> simp

@[simp] theorem textPiece_silicon (a : Nat) (bs : List Byte) : (textPiece s a bs).1.silicon = s.silicon := by
  unfold textPiece; simp only; (repeat' split) <;> simp

@[simp] theorem textWrite_silicon (a : Nat) (bs : List Byte) : (textWrite s a bs).1.silicon = s.silicon := by simp [textWrite]
@[simp] theorem memGo_silicon (op w : Nat) : (memGo op w s u).silicon = s.silicon := by
  unfold memGo; simp only; (repeat' split) <;> simp

@[simp] theorem dbgMem_silicon (op w : Nat) : (dbgMem op w s).silicon = s.silicon := by simp [dbgMem]
@[simp] theorem takeMem_silicon (op w : Nat) : (takeMem op w s).silicon = s.silicon := by simp [takeMem]
@[simp] theorem writeDbgCmd_silicon (w : Nat) : (writeDbgCmd w s).silicon = s.silicon := by
  unfold writeDbgCmd; split <;> simp

-- Machine/Access.lean

@[simp] theorem setWin_silicon (p : Nat) (w : Win) : (setWin s p w).silicon = s.silicon := by simp [setWin]
@[simp] theorem writeWinTable_silicon (p v : Nat) : (writeWinTable p v s).silicon = s.silicon := by simp [writeWinTable]
@[simp] theorem writeWinIndex_silicon (p v : Nat) : (writeWinIndex p v s).silicon = s.silicon := by simp [writeWinIndex]
@[simp] theorem readWinData_silicon (p : Nat) : (readWinData p s).1.silicon = s.silicon := by
  unfold readWinData; simp only; (repeat' split) <;> simp

theorem tableWrite_silicon {s t : State} {tb k v : Nat} (h : tableWrite s tb k v = some t) : t.silicon = s.silicon := by
  unfold tableWrite at h; simp only at h
  split at h
  · split at h <;> cases h; simp
  · split at h <;> cases h; simp
  · split at h <;> cases h; simp
  · cases h; simp
  · split at h <;> cases h; simp
  · cases h

@[simp] theorem writeWinData_silicon (p v : Nat) : (writeWinData p v s).silicon = s.silicon := by
  unfold writeWinData; simp only; split
  · simp
  · split
    · rename_i h; simpa using tableWrite_silicon h
    · simp

@[simp] theorem setLatch_silicon (a v : Nat) : (setLatch s a v).silicon = s.silicon := by simp [setLatch]
@[simp] theorem readEffect_silicon (a : Nat) : (readEffect s a).silicon = s.silicon := by simp [readEffect]
@[simp] theorem readReg_silicon (path a : Nat) : (readReg path a s).1.silicon = s.silicon := by simp [readReg]
@[simp] theorem readOut_silicon (path a : Nat) : (readOut path a s).silicon = s.silicon := by simp [readOut]
@[simp] theorem readBar0_silicon (o : Nat) : (readBar0 o s).1.silicon = s.silicon := by simp [readBar0]
@[simp] theorem readBar2_silicon (o : Nat) : (readBar2 o s).1.silicon = s.silicon := by simp [readBar2]
@[simp] theorem unsupportedReq_silicon : (unsupportedReq s).silicon = s.silicon := by simp [unsupportedReq]
@[simp] theorem readSpace_silicon (path a : Nat) : (readSpace path a s).1.silicon = s.silicon := by
  unfold readSpace; split <;> simp

@[simp] theorem writeW1c_silicon (a v : Nat) : (writeW1c a v s).silicon = s.silicon := by simp [writeW1c]
@[simp] theorem writeImgCtl_silicon (v : Nat) : (writeImgCtl v s).silicon = s.silicon := by simp [writeImgCtl]
@[simp] theorem writeQpWord_silicon (n k v : Nat) : (writeQpWord n k v s).silicon = s.silicon := by
  unfold writeQpWord; split <;> simp

@[simp] theorem writeMsixWord_silicon (e k v : Nat) : (writeMsixWord e k v s).silicon = s.silicon := by
  unfold writeMsixWord; split <;> simp

@[simp] theorem writeConfig_silicon (k v : Nat) : (writeConfig k v s).silicon = s.silicon := by
  unfold writeConfig; split <;> simp

@[simp] theorem writeBar2_silicon (o v : Nat) : (writeBar2 o v s).silicon = s.silicon := by simp [writeBar2]

-- Machine/Port.lean

@[simp] theorem portCount_silicon (st : Nat) : (portCount s st).silicon = s.silicon := by simp [portCount]
@[simp] theorem burstRead_silicon (c a : Nat) : (burstRead s c a).1.silicon = s.silicon := by simp [burstRead]
@[simp] theorem answer_silicon (bs : List Byte) : (answer s bs).silicon = s.silicon := by simp [answer]
@[simp] theorem readFrame_silicon (bs : List Byte) : (readFrame s bs).silicon = s.silicon := by simp [readFrame]
@[simp] theorem tapSelect_silicon (code : Nat) (ok : Bool) : (tapSelect s code ok).silicon = s.silicon := by simp [tapSelect]
@[simp] theorem tapOut_silicon (n v : Nat) : (tapOut s n v).silicon = s.silicon := by simp [tapOut]
@[simp] theorem stopExt_silicon (l : Nat) : (stopExt s l).silicon = s.silicon := by simp [stopExt]
@[simp] theorem scanSelect_silicon (code : Nat) : (scanSelect s code).silicon = s.silicon := by simp [scanSelect]

end Operations

end Sys2Proof.Machine

/-! PROOFS. What the silicon holds after a command: for every command but the ten that may blow a fuse, what it held before. -/

namespace Sys2Proof.Machine

@[simp] theorem nextOr_next (s t : State) : nextOr s (.next t) = t := rfl
@[simp] theorem nextOr_fault (s : State) (f : Fault) : nextOr s (.fault f) = s := rfl

@[simp] theorem nextOr_ite (s : State) (c : Prop) [Decidable c] (o p : Host.Outcome State Fault Refusal) :
    nextOr s (if c then o else p) = if c then nextOr s o else nextOr s p := apply_ite (nextOr s) c o p

@[simp] theorem nextOr_guard (s s' t : State) (c : Bool) : nextOr s (guard s' c t) = if c then t else s' := by simp [guard]

@[simp] theorem nextOr_withOperand (s : State) (c : Bool) (o : Host.Outcome State Fault Refusal) :
    nextOr s (withOperand c o) = if c then nextOr s o else s := by simp [withOperand]

@[simp] theorem enabled_silicon (s : State) (o : Option State) (h : ∀ t, o = some t → t.silicon = s.silicon) :
    (nextOr s (enabled s o)).silicon = s.silicon := by
  cases o <;> simp_all [enabled]

@[simp] theorem retire_silicon (op : SOp) (body : State → InFlight → Ret) (u t : Nat) (s : State)
    (h : ∀ i, ((body s i).state s).silicon = s.silicon) : (nextOr s (retire op body u t s)).silicon = s.silicon := by
  unfold retire; split
  · simp
  · split <;> simp [h]

@[simp] theorem nextOr_cmdRow (s t : State) (op w : Nat) : nextOr s (cmdRow op w t) = if isWord w && cOp w == op then t else s := by
  simp [cmdRow]

section Commands

variable (s : State) (u t : Nat)

-- Machine/Scalar.lean

@[simp] theorem execInstrIssue_silicon : (nextOr s (execInstrIssue u s)).silicon = s.silicon := by
  unfold execInstrIssue; simp only; split <;> simp

@[simp] theorem execAdd_silicon : (nextOr s (execAdd u t s)).silicon = s.silicon := by simp [execAdd]
@[simp] theorem execSub_silicon : (nextOr s (execSub u t s)).silicon = s.silicon := by simp [execSub]
@[simp] theorem execAnd_silicon : (nextOr s (execAnd u t s)).silicon = s.silicon := by simp [execAnd]
@[simp] theorem execOr_silicon : (nextOr s (execOr u t s)).silicon = s.silicon := by simp [execOr]
@[simp] theorem execXor_silicon : (nextOr s (execXor u t s)).silicon = s.silicon := by simp [execXor]
@[simp] theorem execShl_silicon : (nextOr s (execShl u t s)).silicon = s.silicon := by simp [execShl]
@[simp] theorem execShr_silicon : (nextOr s (execShr u t s)).silicon = s.silicon := by simp [execShr]
@[simp] theorem execSra_silicon : (nextOr s (execSra u t s)).silicon = s.silicon := by simp [execSra]
@[simp] theorem execSlt_silicon : (nextOr s (execSlt u t s)).silicon = s.silicon := by simp [execSlt]
@[simp] theorem execSltu_silicon : (nextOr s (execSltu u t s)).silicon = s.silicon := by simp [execSltu]
@[simp] theorem execMin_silicon : (nextOr s (execMin u t s)).silicon = s.silicon := by simp [execMin]
@[simp] theorem execMax_silicon : (nextOr s (execMax u t s)).silicon = s.silicon := by simp [execMax]
@[simp] theorem execMinu_silicon : (nextOr s (execMinu u t s)).silicon = s.silicon := by simp [execMinu]
@[simp] theorem execMaxu_silicon : (nextOr s (execMaxu u t s)).silicon = s.silicon := by simp [execMaxu]
@[simp] theorem execMul_silicon : (nextOr s (execMul u t s)).silicon = s.silicon := by simp [execMul]
@[simp] theorem execMulh_silicon : (nextOr s (execMulh u t s)).silicon = s.silicon := by simp [execMulh]
@[simp] theorem execMulhu_silicon : (nextOr s (execMulhu u t s)).silicon = s.silicon := by simp [execMulhu]
@[simp] theorem execAdds_silicon : (nextOr s (execAdds u t s)).silicon = s.silicon := by simp [execAdds]
@[simp] theorem execSubs_silicon : (nextOr s (execSubs u t s)).silicon = s.silicon := by simp [execSubs]
@[simp] theorem execClz_silicon : (nextOr s (execClz u t s)).silicon = s.silicon := by simp [execClz]
@[simp] theorem execPopc_silicon : (nextOr s (execPopc u t s)).silicon = s.silicon := by simp [execPopc]
@[simp] theorem execAddi_silicon : (nextOr s (execAddi u t s)).silicon = s.silicon := by simp [execAddi]
@[simp] theorem execAndi_silicon : (nextOr s (execAndi u t s)).silicon = s.silicon := by simp [execAndi]
@[simp] theorem execOri_silicon : (nextOr s (execOri u t s)).silicon = s.silicon := by simp [execOri]
@[simp] theorem execXori_silicon : (nextOr s (execXori u t s)).silicon = s.silicon := by simp [execXori]
@[simp] theorem execSlti_silicon : (nextOr s (execSlti u t s)).silicon = s.silicon := by simp [execSlti]
@[simp] theorem execSltiu_silicon : (nextOr s (execSltiu u t s)).silicon = s.silicon := by simp [execSltiu]
@[simp] theorem execLui_silicon : (nextOr s (execLui u t s)).silicon = s.silicon := by simp [execLui]
@[simp] theorem execShli_silicon : (nextOr s (execShli u t s)).silicon = s.silicon := by simp [execShli]
@[simp] theorem execShri_silicon : (nextOr s (execShri u t s)).silicon = s.silicon := by simp [execShri]
@[simp] theorem execSrai_silicon : (nextOr s (execSrai u t s)).silicon = s.silicon := by simp [execSrai]
@[simp] theorem execBeq_silicon : (nextOr s (execBeq u t s)).silicon = s.silicon := by simp [execBeq]
@[simp] theorem execBne_silicon : (nextOr s (execBne u t s)).silicon = s.silicon := by simp [execBne]
@[simp] theorem execBlt_silicon : (nextOr s (execBlt u t s)).silicon = s.silicon := by simp [execBlt]
@[simp] theorem execBge_silicon : (nextOr s (execBge u t s)).silicon = s.silicon := by simp [execBge]
@[simp] theorem execBltu_silicon : (nextOr s (execBltu u t s)).silicon = s.silicon := by simp [execBltu]
@[simp] theorem execBgeu_silicon : (nextOr s (execBgeu u t s)).silicon = s.silicon := by simp [execBgeu]
@[simp] theorem execJ_silicon : (nextOr s (execJ u t s)).silicon = s.silicon := by simp [execJ]
@[simp] theorem execJr_silicon : (nextOr s (execJr u t s)).silicon = s.silicon := by simp [execJr]
@[simp] theorem execCall_silicon : (nextOr s (execCall u t s)).silicon = s.silicon := by simp [execCall]
@[simp] theorem execCallr_silicon : (nextOr s (execCallr u t s)).silicon = s.silicon := by simp [execCallr]
@[simp] theorem execRet_silicon : (nextOr s (execRet u t s)).silicon = s.silicon := by simp [execRet]
@[simp] theorem execTrapService_silicon : (nextOr s (execTrapService u s)).silicon = s.silicon := by
  unfold execTrapService; (repeat' split) <;> simp

@[simp] theorem execLw_silicon : (nextOr s (execLw u t s)).silicon = s.silicon := by simp [execLw]
@[simp] theorem execLh_silicon : (nextOr s (execLh u t s)).silicon = s.silicon := by simp [execLh]
@[simp] theorem execLhu_silicon : (nextOr s (execLhu u t s)).silicon = s.silicon := by simp [execLhu]
@[simp] theorem execLb_silicon : (nextOr s (execLb u t s)).silicon = s.silicon := by simp [execLb]
@[simp] theorem execLbu_silicon : (nextOr s (execLbu u t s)).silicon = s.silicon := by simp [execLbu]
@[simp] theorem execSw_silicon : (nextOr s (execSw u t s)).silicon = s.silicon := by simp [execSw]
@[simp] theorem execSh_silicon : (nextOr s (execSh u t s)).silicon = s.silicon := by simp [execSh]
@[simp] theorem execSb_silicon : (nextOr s (execSb u t s)).silicon = s.silicon := by simp [execSb]
@[simp] theorem execEwait_silicon : (nextOr s (execEwait u t s)).silicon = s.silicon := by simp [execEwait]
@[simp] theorem execWaitWake_silicon : (nextOr s (execWaitWake u t s)).silicon = s.silicon := by simp [execWaitWake]
@[simp] theorem execEsig_silicon : (nextOr s (execEsig u t s)).silicon = s.silicon := by simp [execEsig]
@[simp] theorem execEset_silicon : (nextOr s (execEset u t s)).silicon = s.silicon := by simp [execEset]
@[simp] theorem execErd_silicon : (nextOr s (execErd u t s)).silicon = s.silicon := by simp [execErd]
@[simp] theorem execRsig_silicon : (nextOr s (execRsig u t s)).silicon = s.silicon := by simp [execRsig]
@[simp] theorem execNop_silicon : (nextOr s (execNop u t s)).silicon = s.silicon := retire_silicon _ _ _ _ _ (fun _ => rfl)
@[simp] theorem execPark_silicon : (nextOr s (execPark u t s)).silicon = s.silicon := by simp [execPark]
@[simp] theorem execBrk_silicon : (nextOr s (execBrk u t s)).silicon = s.silicon := by simp [execBrk]
@[simp] theorem execRdsr_silicon : (nextOr s (execRdsr u t s)).silicon = s.silicon := by simp [execRdsr]
@[simp] theorem execSetvl_silicon : (nextOr s (execSetvl u t s)).silicon = s.silicon := by simp [execSetvl]
@[simp] theorem execCpos_silicon : (nextOr s (execCpos u t s)).silicon = s.silicon := by simp [execCpos]
@[simp] theorem execCstat_silicon : (nextOr s (execCstat u t s)).silicon = s.silicon := by simp [execCstat]

-- Machine/Ncu.lean

@[simp] theorem execStepclose_silicon : (nextOr s (execStepclose u t s)).silicon = s.silicon := by simp [execStepclose]
@[simp] theorem execStepBoundary_silicon : (nextOr s (execStepBoundary u s)).silicon = s.silicon := by
  unfold execStepBoundary; split <;> simp

@[simp] theorem execPsetw_silicon : (nextOr s (execPsetw u t s)).silicon = s.silicon := by simp [execPsetw]
@[simp] theorem execSlotw_silicon : (nextOr s (execSlotw u t s)).silicon = s.silicon := by simp [execSlotw]
@[simp] theorem execSlotr_silicon : (nextOr s (execSlotr u t s)).silicon = s.silicon := by simp [execSlotr]
@[simp] theorem execNcucnt_silicon : (nextOr s (execNcucnt u t s)).silicon = s.silicon := by simp [execNcucnt]

-- Machine/Pump.lean

@[simp] theorem execDescStart_silicon (ch : Nat) : (nextOr s (execDescStart u ch s)).silicon = s.silicon := by
  unfold execDescStart; simp only; split <;> simp

@[simp] theorem execPumpBlock_silicon (ch : Nat) : (nextOr s (execPumpBlock u ch s)).silicon = s.silicon := by
  unfold execPumpBlock; simp only; split <;> simp

@[simp] theorem execDescComplete_silicon (ch : Nat) : (nextOr s (execDescComplete u ch s)).silicon = s.silicon := by
  unfold execDescComplete; (repeat' split) <;> simp

@[simp] theorem execTimeout_silicon (req : Nat) : (nextOr s (execTimeout u req s)).silicon = s.silicon := by
  unfold execTimeout; simp only; (repeat' split) <;> simp

@[simp] theorem execPissue_silicon : (nextOr s (execPissue u t s)).silicon = s.silicon := by simp [execPissue]
@[simp] theorem execPstat_silicon : (nextOr s (execPstat u t s)).silicon = s.silicon := by simp [execPstat]
@[simp] theorem execPclr_silicon : (nextOr s (execPclr u t s)).silicon = s.silicon := by simp [execPclr]
@[simp] theorem execPcancel_silicon : (nextOr s (execPcancel u t s)).silicon = s.silicon := by simp [execPcancel]

-- Machine/Array.lean

@[simp] theorem execMshift_silicon : (nextOr s (execMshift u t s)).silicon = s.silicon := by simp [execMshift]
@[simp] theorem execMpass_silicon : (nextOr s (execMpass u t s)).silicon = s.silicon := by simp [execMpass]
@[simp] theorem execShiftStart_silicon (ma : Nat) : (nextOr s (execShiftStart u ma s)).silicon = s.silicon := by
  unfold execShiftStart; simp only; split <;> simp

@[simp] theorem execShiftComplete_silicon (ma : Nat) : (nextOr s (execShiftComplete u ma s)).silicon = s.silicon := by
  unfold execShiftComplete; split
  · exact enabled_silicon _ _ (fun _ => arrComplete_silicon)
  · rfl

@[simp] theorem execPassStart_silicon (ma : Nat) : (nextOr s (execPassStart u ma s)).silicon = s.silicon := by
  unfold execPassStart; simp only; split <;> simp

@[simp] theorem execPassComplete_silicon (ma : Nat) : (nextOr s (execPassComplete u ma s)).silicon = s.silicon := by
  unfold execPassComplete; split
  · exact enabled_silicon _ _ (fun _ => arrComplete_silicon)
  · rfl

-- Machine/Vec.lean

@[simp] theorem execVecCmdStart_silicon : (nextOr s (execVecCmdStart u s)).silicon = s.silicon := by
  unfold execVecCmdStart; (repeat' split) <;> simp

@[simp] theorem execVecCmdComplete_silicon : (nextOr s (execVecCmdComplete u s)).silicon = s.silicon := by simp [execVecCmdComplete]
@[simp] theorem execVfenceFire_silicon : (nextOr s (execVfenceFire u s)).silicon = s.silicon := by
  unfold execVfenceFire; split <;> simp

@[simp] theorem execVopAdd_silicon : (nextOr s (execVopAdd u t s)).silicon = s.silicon := by simp [execVopAdd]
@[simp] theorem execVopSub_silicon : (nextOr s (execVopSub u t s)).silicon = s.silicon := by simp [execVopSub]
@[simp] theorem execVopMul_silicon : (nextOr s (execVopMul u t s)).silicon = s.silicon := by simp [execVopMul]
@[simp] theorem execVopFma_silicon : (nextOr s (execVopFma u t s)).silicon = s.silicon := by simp [execVopFma]
@[simp] theorem execVopMin_silicon : (nextOr s (execVopMin u t s)).silicon = s.silicon := by simp [execVopMin]
@[simp] theorem execVopMax_silicon : (nextOr s (execVopMax u t s)).silicon = s.silicon := by simp [execVopMax]
@[simp] theorem execVopAbs_silicon : (nextOr s (execVopAbs u t s)).silicon = s.silicon := by simp [execVopAbs]
@[simp] theorem execVopNeg_silicon : (nextOr s (execVopNeg u t s)).silicon = s.silicon := by simp [execVopNeg]
@[simp] theorem execVopSel_silicon : (nextOr s (execVopSel u t s)).silicon = s.silicon := by simp [execVopSel]
@[simp] theorem execVopAddb_silicon : (nextOr s (execVopAddb u t s)).silicon = s.silicon := by simp [execVopAddb]
@[simp] theorem execVopSubb_silicon : (nextOr s (execVopSubb u t s)).silicon = s.silicon := by simp [execVopSubb]
@[simp] theorem execVopMulb_silicon : (nextOr s (execVopMulb u t s)).silicon = s.silicon := by simp [execVopMulb]
@[simp] theorem execVopExp_silicon : (nextOr s (execVopExp u t s)).silicon = s.silicon := by simp [execVopExp]
@[simp] theorem execVopLog_silicon : (nextOr s (execVopLog u t s)).silicon = s.silicon := by simp [execVopLog]
@[simp] theorem execVopRcp_silicon : (nextOr s (execVopRcp u t s)).silicon = s.silicon := by simp [execVopRcp]
@[simp] theorem execVopRsqrt_silicon : (nextOr s (execVopRsqrt u t s)).silicon = s.silicon := by simp [execVopRsqrt]
@[simp] theorem execVopSqrt_silicon : (nextOr s (execVopSqrt u t s)).silicon = s.silicon := by simp [execVopSqrt]
@[simp] theorem execVopTanh_silicon : (nextOr s (execVopTanh u t s)).silicon = s.silicon := by simp [execVopTanh]
@[simp] theorem execVopSigmoid_silicon : (nextOr s (execVopSigmoid u t s)).silicon = s.silicon := by simp [execVopSigmoid]
@[simp] theorem execVopSilu_silicon : (nextOr s (execVopSilu u t s)).silicon = s.silicon := by simp [execVopSilu]
@[simp] theorem execVopGeluTanh_silicon : (nextOr s (execVopGeluTanh u t s)).silicon = s.silicon := by simp [execVopGeluTanh]
@[simp] theorem execVcmp_silicon : (nextOr s (execVcmp u t s)).silicon = s.silicon := by simp [execVcmp]
@[simp] theorem execVredRsum_silicon : (nextOr s (execVredRsum u t s)).silicon = s.silicon := by simp [execVredRsum]
@[simp] theorem execVredRmax_silicon : (nextOr s (execVredRmax u t s)).silicon = s.silicon := by simp [execVredRmax]
@[simp] theorem execVredRmin_silicon : (nextOr s (execVredRmin u t s)).silicon = s.silicon := by simp [execVredRmin]
@[simp] theorem execVredRmaxabs_silicon : (nextOr s (execVredRmaxabs u t s)).silicon = s.silicon := by simp [execVredRmaxabs]
@[simp] theorem execVmovMov_silicon : (nextOr s (execVmovMov u t s)).silicon = s.silicon := by simp [execVmovMov]
@[simp] theorem execSplat_silicon : (nextOr s (execSplat u t s)).silicon = s.silicon := by simp [execSplat]
@[simp] theorem execCompress_silicon : (nextOr s (execCompress u t s)).silicon = s.silicon := by simp [execCompress]
@[simp] theorem execExpand_silicon : (nextOr s (execExpand u t s)).silicon = s.silicon := by simp [execExpand]
@[simp] theorem execZero_silicon : (nextOr s (execZero u t s)).silicon = s.silicon := by simp [execZero]
@[simp] theorem execMand_silicon : (nextOr s (execMand u t s)).silicon = s.silicon := by simp [execMand]
@[simp] theorem execMor_silicon : (nextOr s (execMor u t s)).silicon = s.silicon := by simp [execMor]
@[simp] theorem execMxor_silicon : (nextOr s (execMxor u t s)).silicon = s.silicon := by simp [execMxor]
@[simp] theorem execMnot_silicon : (nextOr s (execMnot u t s)).silicon = s.silicon := by simp [execMnot]
@[simp] theorem execMset_silicon : (nextOr s (execMset u t s)).silicon = s.silicon := by simp [execMset]
@[simp] theorem execVfence_silicon : (nextOr s (execVfence u t s)).silicon = s.silicon := by simp [execVfence]
@[simp] theorem execVcvt_silicon : (nextOr s (execVcvt u t s)).silicon = s.silicon := by simp [execVcvt]

-- Machine/Chain.lean

@[simp] theorem execChain_silicon : (nextOr s (execChain u t s)).silicon = s.silicon := by simp [execChain]
@[simp] theorem execCabort_silicon : (nextOr s (execCabort u t s)).silicon = s.silicon := by simp [execCabort]
@[simp] theorem execChainStart_silicon : (nextOr s (execChainStart u t s)).silicon = s.silicon := by
  unfold execChainStart; split <;> simp

@[simp] theorem execAttnPageRead_silicon : (nextOr s (execAttnPageRead u t s)).silicon = s.silicon := by
  unfold execAttnPageRead; split <;> simp

@[simp] theorem execGatherShareStart_silicon (d g : Nat) : (nextOr s (execGatherShareStart u t d g s)).silicon = s.silicon := by
  unfold execGatherShareStart; split <;> simp

@[simp] theorem execReduceCombine_silicon (g : Nat) : (nextOr s (execReduceCombine u t g s)).silicon = s.silicon := by
  unfold execReduceCombine; split <;> simp

@[simp] theorem execChainTileOutput_silicon : (nextOr s (execChainTileOutput u t s)).silicon = s.silicon := by
  unfold execChainTileOutput; split <;> simp

@[simp] theorem execChainComplete_silicon : (nextOr s (execChainComplete u t s)).silicon = s.silicon := by
  unfold execChainComplete; (repeat' split) <;> simp

-- Machine/Control.lean

@[simp] theorem execHeldRetire_silicon : (nextOr s (execHeldRetire u t s)).silicon = s.silicon := by
  unfold execHeldRetire; (repeat' split) <;> simp

@[simp] theorem execThreadPark_silicon : (nextOr s (execThreadPark u t s)).silicon = s.silicon := by
  unfold execThreadPark; split <;> simp

@[simp] theorem execParkRequest_silicon : (nextOr s (execParkRequest u s)).silicon = s.silicon := by simp [execParkRequest]
@[simp] theorem execPmWrite_silicon (addr : Nat) (ws : List Word) :
    (nextOr s (execPmWrite u addr ws s)).silicon = s.silicon := by simp [execPmWrite]

@[simp] theorem execResume_silicon (acts : List Nat) : (nextOr s (execResume u acts s)).silicon = s.silicon := by simp [execResume]
@[simp] theorem execDeadlockCountExpire_silicon :
    (nextOr s (execDeadlockCountExpire u s)).silicon = s.silicon := by simp [execDeadlockCountExpire]

@[simp] theorem execStationReset_silicon (ls : Nat) : (nextOr s (execStationReset ls s)).silicon = s.silicon := by simp [execStationReset]
@[simp] theorem execUnitSwitch_silicon (ls : Nat) : (nextOr s (execUnitSwitch ls s)).silicon = s.silicon := by
  unfold execUnitSwitch; split <;> simp

-- Machine/Rings.lean

@[simp] theorem execSqTailDoorbell_silicon (n v : Nat) :
    (nextOr s (execSqTailDoorbell n v s)).silicon = s.silicon := by simp [execSqTailDoorbell]

@[simp] theorem execCqHeadDoorbell_silicon (n v : Nat) :
    (nextOr s (execCqHeadDoorbell n v s)).silicon = s.silicon := by simp [execCqHeadDoorbell]

@[simp] theorem execQpEnableWrite_silicon (n v : Nat) :
    (nextOr s (execQpEnableWrite n v s)).silicon = s.silicon := by simp [execQpEnableWrite]

@[simp] theorem execQpDisableDone_silicon (n : Nat) :
    (nextOr s (execQpDisableDone n s)).silicon = s.silicon := by simp [execQpDisableDone]

@[simp] theorem execQpCoalWrite_silicon (n v : Nat) : (nextOr s (execQpCoalWrite n v s)).silicon = s.silicon := by simp [execQpCoalWrite]
@[simp] theorem execMsixCoalTimeout_silicon (n : Nat) :
    (nextOr s (execMsixCoalTimeout n s)).silicon = s.silicon := by simp [execMsixCoalTimeout]

@[simp] theorem execMsixVectorUnmask_silicon (v : Nat) :
    (nextOr s (execMsixVectorUnmask v s)).silicon = s.silicon := by simp [execMsixVectorUnmask]

@[simp] theorem execSqFetch_silicon (n : Nat) (entry : Option (List Byte)) : (nextOr s (execSqFetch n entry s)).silicon = s.silicon := by
  unfold execSqFetch; (repeat' split) <;> simp

-- Machine/Sessions.lean

@[simp] theorem execOpenSession_silicon (sid : Nat) : (nextOr s (execOpenSession sid s)).silicon = s.silicon := by
  unfold execOpenSession; split
  · exact enabled_silicon _ _ (fun _ => openFrame_silicon)
  · rfl

@[simp] theorem execConfig_silicon (sid : Nat) (payload : Option (List Byte)) :
    (nextOr s (execConfig sid payload s)).silicon = s.silicon := by
  unfold execConfig; split <;> simp

@[simp] theorem execAppendTokens_silicon (sid : Nat) (payload : Option (List Byte)) :
    (nextOr s (execAppendTokens sid payload s)).silicon = s.silicon := by
  unfold execAppendTokens; (repeat' split) <;> simp

@[simp] theorem execAppendText_silicon (sid : Nat) (payload : Option (List Byte)) :
    (nextOr s (execAppendText sid payload s)).silicon = s.silicon := by
  unfold execAppendText; split <;> simp

@[simp] theorem execTokenizeAppend_silicon (k : Nat) : (nextOr s (execTokenizeAppend k s)).silicon = s.silicon := by
  unfold execTokenizeAppend; simp only; (repeat' split) <;> simp

@[simp] theorem execTextSramRepair_silicon : (nextOr s (execTextSramRepair s)).silicon = s.silicon := by simp [execTextSramRepair]
@[simp] theorem execTextScrub_silicon : (nextOr s (execTextScrub s)).silicon = s.silicon := by simp [execTextScrub]
@[simp] theorem execGenerate_silicon (sid : Nat) : (nextOr s (execGenerate sid s)).silicon = s.silicon := by
  unfold execGenerate; split <;> simp

@[simp] theorem execCancel_silicon (sid : Nat) : (nextOr s (execCancel sid s)).silicon = s.silicon := by
  unfold execCancel; split <;> simp

@[simp] theorem execCancelApply_silicon (sid : Nat) : (nextOr s (execCancelApply sid s)).silicon = s.silicon := by
  unfold execCancelApply; simp only; split <;> simp

@[simp] theorem execClose_silicon (sid : Nat) : (nextOr s (execClose sid s)).silicon = s.silicon := by
  unfold execClose; split <;> simp

@[simp] theorem execQuerySession_silicon (sid : Nat) : (nextOr s (execQuerySession sid s)).silicon = s.silicon := by
  unfold execQuerySession; split <;> simp

@[simp] theorem execQueryDevice_silicon (sid : Nat) : (nextOr s (execQueryDevice sid s)).silicon = s.silicon := by
  unfold execQueryDevice; split <;> simp

-- Machine/Load.lean

@[simp] theorem execLoad_silicon (extents : List (Nat × Nat)) (image : ImageRead) :
    (nextOr s (execLoad extents image s)).silicon = s.silicon := by simp [execLoad]

@[simp] theorem execUnload_silicon : (nextOr s (execUnload s)).silicon = s.silicon := by simp [execUnload]
@[simp] theorem execPeerImageId_silicon (ready : Bool) (id : List Byte) (pages : List Nat) :
    (nextOr s (execPeerImageId ready id pages s)).silicon = s.silicon := by simp [execPeerImageId]

-- Machine/Steps.lean

@[simp] theorem execPrimingStart_silicon : (nextOr s (execPrimingStart s)).silicon = s.silicon := by
  unfold execPrimingStart; split <;> simp

@[simp] theorem execPrimingComplete_silicon : (nextOr s (execPrimingComplete s)).silicon = s.silicon := by
  unfold execPrimingComplete; split <;> simp

@[simp] theorem execPrimingTimeout_silicon : (nextOr s (execPrimingTimeout s)).silicon = s.silicon := by
  unfold execPrimingTimeout; split <;> simp

@[simp] theorem execStepStart_silicon : (nextOr s (execStepStart s)).silicon = s.silicon := by simp [execStepStart]
@[simp] theorem execSecondaryStepRows_silicon (no : Nat) (bufs pts : List (List Byte)) (masks : List (Nat × Nat × List Byte)) :
    (nextOr s (execSecondaryStepRows no bufs pts masks s)).silicon = s.silicon := by
  unfold execSecondaryStepRows; simp only [nextOr_withOperand, nextOr_guard, silicon_ite, startStep_silicon]
  rw [silicon_foldl _ (fun s m => by split <;> simp), silicon_foldl _ (fun s u => by simp)]; simp

@[simp] theorem execStepComplete_silicon (peer : Option (Tab Nat)) : (nextOr s (execStepComplete peer s)).silicon = s.silicon := by
  unfold execStepComplete; split <;> simp

@[simp] theorem execStepFault_silicon (peer : Bool) : (nextOr s (execStepFault peer s)).silicon = s.silicon := by
  unfold execStepFault; split <;> simp

@[simp] theorem execStepWatchdog_silicon : (nextOr s (execStepWatchdog s)).silicon = s.silicon := by
  unfold execStepWatchdog; split <;> simp

-- Machine/Memory.lean

@[simp] theorem execCistCeWriteback_silicon (w : Nat) :
    (nextOr s (execCistCeWriteback w s)).silicon = s.silicon := by simp [execCistCeWriteback]

@[simp] theorem execWellRead_silicon (a : Nat) : (nextOr s (execWellRead a s)).silicon = s.silicon := by
  unfold execWellRead; simp only; split <;> simp

@[simp] theorem execWellReread_silicon : (nextOr s (execWellReread s)).silicon = s.silicon := by
  unfold execWellReread; (repeat' split) <;> simp

@[simp] theorem execWellRefresh_silicon : (nextOr s (execWellRefresh s)).silicon = s.silicon := by simp [execWellRefresh]
@[simp] theorem execWellRecal_silicon : (nextOr s (execWellRecal s)).silicon = s.silicon := by simp [execWellRecal]
@[simp] theorem execScrubCistLine_silicon : (nextOr s (execScrubCistLine s)).silicon = s.silicon := by simp [execScrubCistLine]
@[simp] theorem execScrubWellBeat_silicon : (nextOr s (execScrubWellBeat s)).silicon = s.silicon := by simp [execScrubWellBeat]

-- Machine/Links.lean

@[simp] theorem execSignalSend_silicon : (nextOr s (execSignalSend u s)).silicon = s.silicon := by
  unfold execSignalSend; simp only; (repeat' split) <;> simp

@[simp] theorem execSignalApply_silicon (n : Nat) : (nextOr s (execSignalApply n s)).silicon = s.silicon := by
  unfold execSignalApply; (repeat' split) <;> simp

@[simp] theorem execSiphonTileSend_silicon (req : Nat) : (nextOr s (execSiphonTileSend u req s)).silicon = s.silicon := by
  unfold execSiphonTileSend; (repeat' split) <;> simp

@[simp] theorem execTileLand_silicon (n : Nat) : (nextOr s (execTileLand n s)).silicon = s.silicon := by
  unfold execTileLand; simp only; (repeat' split) <;> simp

@[simp] theorem execLandedReceive_silicon (n : Nat) : (nextOr s (execLandedReceive n s)).silicon = s.silicon := by
  unfold execLandedReceive; (repeat' split) <;> simp

@[simp] theorem execFlitReceive_silicon (h : Nat) (noise : Noise) (bytes : List Byte) :
    (nextOr s (execFlitReceive h noise bytes s)).silicon = s.silicon := by
  unfold execFlitReceive; split <;> simp

@[simp] theorem execNakReceive_silicon (h : Nat) (bytes : List Byte) : (nextOr s (execNakReceive h bytes s)).silicon = s.silicon := by
  unfold execNakReceive; simp only; (repeat' split) <;> simp

@[simp] theorem execReplayTimeout_silicon (h : Nat) :
    (nextOr s (execReplayTimeout h s)).silicon = s.silicon := by simp [execReplayTimeout]

@[simp] theorem execLinkAckTimeout_silicon (h : Nat) :
    (nextOr s (execLinkAckTimeout h s)).silicon = s.silicon := by simp [execLinkAckTimeout]

@[simp] theorem execIdleAckFlit_silicon (h : Nat) : (nextOr s (execIdleAckFlit h s)).silicon = s.silicon := by simp [execIdleAckFlit]
@[simp] theorem execLossOfLock_silicon (h : Nat) : (nextOr s (execLossOfLock h s)).silicon = s.silicon := by simp [execLossOfLock]
@[simp] theorem execCtrlDownReceive_silicon (down : LinkDown) :
    (nextOr s (execCtrlDownReceive down s)).silicon = s.silicon := by simp [execCtrlDownReceive]

@[simp] theorem execDieLinkRetrain_silicon (l : Nat) :
    (nextOr s (execDieLinkRetrain l s)).silicon = s.silicon := by simp [execDieLinkRetrain]

@[simp] theorem execLinkPairCtlWrite_silicon (v : Nat) :
    (nextOr s (execLinkPairCtlWrite v s)).silicon = s.silicon := by simp [execLinkPairCtlWrite]

@[simp] theorem execLinkRetrain_silicon (v : Nat) : (nextOr s (execLinkRetrain v s)).silicon = s.silicon := by simp [execLinkRetrain]
@[simp] theorem execExtLinkTrainState_silicon (l : Nat) : (nextOr s (execExtLinkTrainState l s)).silicon = s.silicon := by
  unfold execExtLinkTrainState; simp only; (repeat' split) <;> simp

@[simp] theorem execPairInfo_silicon (l peerRole variant : Nat) (maps : List Nat) :
    (nextOr s (execPairInfo l peerRole variant maps s)).silicon = s.silicon := by simp [execPairInfo]

@[simp] theorem execExtAutoRetrain_silicon (l : Nat) :
    (nextOr s (execExtAutoRetrain l s)).silicon = s.silicon := by simp [execExtAutoRetrain]

@[simp] theorem execLinkTrainTimeout_silicon : (nextOr s (execLinkTrainTimeout s)).silicon = s.silicon := by simp [execLinkTrainTimeout]
@[simp] theorem execPairHoldExpire_silicon : (nextOr s (execPairHoldExpire s)).silicon = s.silicon := by simp [execPairHoldExpire]

-- Machine/Power.lean

@[simp] theorem execWindowStart_silicon : (nextOr s (execWindowStart s)).silicon = s.silicon := by simp [execWindowStart]
@[simp] theorem execLeaveRequest_silicon (kind x y : Nat) : (nextOr s (execLeaveRequest kind u x y s)).silicon = s.silicon := by
  unfold execLeaveRequest; simp only; split
  · split
    · exact enabled_silicon _ _ (fun _ => reqSpan_silicon)
    · rfl
  · split
    · exact enabled_silicon _ _ (fun _ => reqTile_silicon)
    · rfl
  · split
    · exact enabled_silicon _ _ (fun _ => reqChain_silicon)
    · rfl
  · split
    · split
      · exact enabled_silicon _ _ (fun _ => reqTile_silicon)
      · rfl
    · rfl
  · simp
  · rfl

@[simp] theorem execLeaveGrant_silicon : (nextOr s (execLeaveGrant s)).silicon = s.silicon := by
  unfold execLeaveGrant; split <;> simp

@[simp] theorem execDroopAssert_silicon (src : Nat) : (nextOr s (execDroopAssert src s)).silicon = s.silicon := by simp [execDroopAssert]
@[simp] theorem execDroopStretchEnd_silicon : (nextOr s (execDroopStretchEnd s)).silicon = s.silicon := by simp [execDroopStretchEnd]

-- Machine/Time.lean

@[simp] theorem execTimeTick_silicon : (nextOr s (execTimeTick s)).silicon = s.silicon := by simp [execTimeTick]
@[simp] theorem execPtmMeasure_silicon (master : Option Nat) : (nextOr s (execPtmMeasure master s)).silicon = s.silicon := by
  unfold execPtmMeasure; split <;> simp

@[simp] theorem execPpsEdge_silicon : (nextOr s (execPpsEdge s)).silicon = s.silicon := by
  unfold execPpsEdge; simp only; (repeat' split) <;> simp

@[simp] theorem execServoHoldover_silicon : (nextOr s (execServoHoldover s)).silicon = s.silicon := by simp [execServoHoldover]
@[simp] theorem execTimeSrcSelect_silicon (v : Nat) :
    (nextOr s (execTimeSrcSelect v s)).silicon = s.silicon := by simp [execTimeSrcSelect]

@[simp] theorem execStepReq_silicon (v : Nat) : (nextOr s (execStepReq v s)).silicon = s.silicon := by simp [execStepReq]
@[simp] theorem execTimeTodHiWrite_silicon (v : Nat) :
    (nextOr s (execTimeTodHiWrite v s)).silicon = s.silicon := by simp [execTimeTodHiWrite]

@[simp] theorem execSumpIntake_silicon : (nextOr s (execSumpIntake s)).silicon = s.silicon := by
  unfold execSumpIntake; split <;> simp

@[simp] theorem execEvtMaskWrite_silicon (v : Nat) : (nextOr s (execEvtMaskWrite v s)).silicon = s.silicon := by simp [execEvtMaskWrite]

-- Machine/Reset.lean

@[simp] theorem execFlr_silicon : (nextOr s (execFlr s)).silicon = s.silicon := by simp [execFlr]
@[simp] theorem execWarmReset_silicon : (nextOr s (execWarmReset s)).silicon = s.silicon := by simp [execWarmReset]
@[simp] theorem execPcieLinkTrain_silicon (rate width : Nat) :
    (nextOr s (execPcieLinkTrain rate width s)).silicon = s.silicon := by simp [execPcieLinkTrain]

@[simp] theorem execStationResetRelease_silicon (ls : Nat) :
    (nextOr s (execStationResetRelease ls s)).silicon = s.silicon := by simp [execStationResetRelease]

@[simp] theorem execBootGo_silicon (v : Nat) : (nextOr s (execBootGo v s)).silicon = s.silicon := by simp [execBootGo]
@[simp] theorem execCtrlReset_silicon (v : Nat) : (nextOr s (execCtrlReset v s)).silicon = s.silicon := by simp [execCtrlReset]
@[simp] theorem execMapStnReset_silicon (v : Nat) : (nextOr s (execMapStnReset v s)).silicon = s.silicon := by simp [execMapStnReset]
@[simp] theorem execPwrOkFall_silicon : (nextOr s (execPwrOkFall s)).silicon = s.silicon := by simp [execPwrOkFall]
@[simp] theorem execColdReset_silicon : (nextOr s (execColdReset s)).silicon = s.silicon := by simp [execColdReset]
@[simp] theorem execVddIoValid_silicon : (nextOr s (execVddIoValid s)).silicon = s.silicon := by simp [execVddIoValid]
@[simp] theorem execRailOutOfTolerance_silicon :
    (nextOr s (execRailOutOfTolerance s)).silicon = s.silicon := by simp [execRailOutOfTolerance]

@[simp] theorem execRefclkLoss_silicon : (nextOr s (execRefclkLoss s)).silicon = s.silicon := by simp [execRefclkLoss]

-- Machine/Boot.lean

@[simp] theorem execVidStep_silicon : (nextOr s (execVidStep s)).silicon = s.silicon := by simp [execVidStep]
@[simp] theorem execBootFlash_silicon (bytes : List Byte) :
    (nextOr s (execBootFlash bytes s)).silicon = s.silicon := by simp [execBootFlash]

@[simp] theorem execFwAuth_silicon : (nextOr s (execFwAuth s)).silicon = s.silicon := by
  unfold execFwAuth; split <;> simp

@[simp] theorem execBootLinkTrain_silicon (result : Nat) :
    (nextOr s (execBootLinkTrain result s)).silicon = s.silicon := by simp [execBootLinkTrain]

@[simp] theorem execMemTrain_silicon (failed : List (Nat × Nat)) :
    (nextOr s (execMemTrain failed s)).silicon = s.silicon := by simp [execMemTrain]

@[simp] theorem execSelfTest_silicon (badStations : List (Nat × Nat)) (badStacks : List Nat) (hubBad : Bool) :
    (nextOr s (execSelfTest badStations badStacks hubBad s)).silicon = s.silicon := by simp [execSelfTest]

-- Machine/Security.lean

@[simp] theorem execDrbgReseed_silicon : (nextOr s (execDrbgReseed s)).silicon = s.silicon := by simp [execDrbgReseed]
@[simp] theorem execEntropyHealthFail_silicon :
    (nextOr s (execEntropyHealthFail s)).silicon = s.silicon := by simp [execEntropyHealthFail]

@[simp] theorem execEntropyStartupPass_silicon :
    (nextOr s (execEntropyStartupPass s)).silicon = s.silicon := by simp [execEntropyStartupPass]

@[simp] theorem execAttest_silicon (v : Nat) : (nextOr s (execAttest v s)).silicon = s.silicon := by simp [execAttest]
@[simp] theorem execDbgReqWrite_silicon (jtag : Bool) (v : Nat) :
    (nextOr s (execDbgReqWrite jtag v s)).silicon = s.silicon := by simp [execDbgReqWrite]

@[simp] theorem execDbgResponse_silicon (jtag : Bool) (v : Nat) :
    (nextOr s (execDbgResponse jtag v s)).silicon = s.silicon := by simp [execDbgResponse]

@[simp] theorem execChallengeExpire_silicon : (nextOr s (execChallengeExpire s)).silicon = s.silicon := by simp [execChallengeExpire]

-- Machine/PState.lean

@[simp] theorem execThermSample_silicon (dieT stackT : List Nat) :
    (nextOr s (execThermSample dieT stackT s)).silicon = s.silicon := by simp [execThermSample]

@[simp] theorem execPwrCtlWrite_silicon (v : Nat) : (nextOr s (execPwrCtlWrite v s)).silicon = s.silicon := by simp [execPwrCtlWrite]
@[simp] theorem raiseFirst_silicon (s : State) (p : PState) (t : State) (h : t.silicon = s.silicon) :
    (nextOr s (raiseFirst s p t)).silicon = s.silicon := by
  simp [raiseFirst, h]

@[simp] theorem execPstateTransition_silicon : (nextOr s (execPstateTransition s)).silicon = s.silicon := by
  unfold execPstateTransition; simp only; split
  · rfl
  · split
    · rfl
    · split
      · simp
      · rfl
      · simp
      · split <;> simp

@[simp] theorem execAutoIdleEnter_silicon : (nextOr s (execAutoIdleEnter s)).silicon = s.silicon := by simp [execAutoIdleEnter]
@[simp] theorem standby_silicon : (nextOr s (standby s)).silicon = s.silicon := by simp [standby]
@[simp] theorem execP3Entry_silicon : (nextOr s (execP3Entry s)).silicon = s.silicon := by simp [execP3Entry]
@[simp] theorem execPairStandby_silicon : (nextOr s (execPairStandby s)).silicon = s.silicon := by simp [execPairStandby]
@[simp] theorem execP3Exit_silicon : (nextOr s (execP3Exit s)).silicon = s.silicon := by
  unfold execP3Exit; simp only; split <;> simp

-- Machine/Debug.lean

@[simp] theorem execReadThread_silicon (w : Nat) : (nextOr s (execReadThread w s)).silicon = s.silicon := by simp [execReadThread]
@[simp] theorem execReadEvents_silicon (w : Nat) : (nextOr s (execReadEvents w s)).silicon = s.silicon := by simp [execReadEvents]
@[simp] theorem execReadPump_silicon (w : Nat) : (nextOr s (execReadPump w s)).silicon = s.silicon := by simp [execReadPump]
@[simp] theorem execHalt_silicon (w : Nat) : (nextOr s (execHalt w s)).silicon = s.silicon := by simp [execHalt]
@[simp] theorem execDbgResume_silicon (w : Nat) : (nextOr s (execDbgResume w s)).silicon = s.silicon := by simp [execDbgResume]
@[simp] theorem execDbgStep_silicon (w : Nat) : (nextOr s (execDbgStep w s)).silicon = s.silicon := by simp [execDbgStep]
@[simp] theorem execBrkArm_silicon (w : Nat) : (nextOr s (execBrkArm w s)).silicon = s.silicon := by simp [execBrkArm]
@[simp] theorem execBrkDisarm_silicon (w : Nat) : (nextOr s (execBrkDisarm w s)).silicon = s.silicon := by simp [execBrkDisarm]
@[simp] theorem execReadScalar_silicon (w : Nat) : (nextOr s (execReadScalar w s)).silicon = s.silicon := by simp [execReadScalar]
@[simp] theorem execWriteScalar_silicon (w : Nat) : (nextOr s (execWriteScalar w s)).silicon = s.silicon := by simp [execWriteScalar]
@[simp] theorem execReadTile_silicon (w : Nat) : (nextOr s (execReadTile w s)).silicon = s.silicon := by simp [execReadTile]
@[simp] theorem execWriteTile_silicon (w : Nat) : (nextOr s (execWriteTile w s)).silicon = s.silicon := by simp [execWriteTile]
@[simp] theorem execReadMem_silicon (w : Nat) : (nextOr s (execReadMem w s)).silicon = s.silicon := by simp [execReadMem]
@[simp] theorem execWriteMem_silicon (w : Nat) : (nextOr s (execWriteMem w s)).silicon = s.silicon := by simp [execWriteMem]
@[simp] theorem execHaltDone_silicon : (nextOr s (execHaltDone s)).silicon = s.silicon := by
  unfold execHaltDone; split <;> simp

-- Machine/Telemetry.lean

@[simp] theorem execTelemSnapshot_silicon : (nextOr s (execTelemSnapshot s)).silicon = s.silicon := by simp [execTelemSnapshot]

-- Machine/Access.lean

@[simp] theorem execWinTableWrite_silicon (p v : Nat) :
    (nextOr s (execWinTableWrite p v s)).silicon = s.silicon := by simp [execWinTableWrite]

@[simp] theorem execWinDataWrite_silicon (p v : Nat) :
    (nextOr s (execWinDataWrite p v s)).silicon = s.silicon := by simp [execWinDataWrite]

@[simp] theorem execRcRead_silicon (path a : Nat) : (nextOr s (execRcRead path a s)).silicon = s.silicon := by simp [execRcRead]
@[simp] theorem execSnapshotRead_silicon (path a : Nat) :
    (nextOr s (execSnapshotRead path a s)).silicon = s.silicon := by simp [execSnapshotRead]

@[simp] theorem execFloatOpRead_silicon (path n : Nat) :
    (nextOr s (execFloatOpRead path n s)).silicon = s.silicon := by simp [execFloatOpRead]

@[simp] theorem execSumpRecRead_silicon (path : Nat) :
    (nextOr s (execSumpRecRead path s)).silicon = s.silicon := by simp [execSumpRecRead]

@[simp] theorem execWinDataRead_silicon (path : Nat) :
    (nextOr s (execWinDataRead path s)).silicon = s.silicon := by simp [execWinDataRead]

-- Machine/Port.lean

@[simp] theorem execCpReadFrame_silicon (bytes : List Byte) :
    (nextOr s (execCpReadFrame bytes s)).silicon = s.silicon := by simp [execCpReadFrame]

@[simp] theorem execCpFrameAbandon_silicon (bytes : List Byte) :
    (nextOr s (execCpFrameAbandon bytes s)).silicon = s.silicon := by simp [execCpFrameAbandon]

@[simp] theorem execIdcode_silicon : (nextOr s (execIdcode s)).silicon = s.silicon := by simp [execIdcode]
@[simp] theorem execBypass_silicon : (nextOr s (execBypass s)).silicon = s.silicon := by simp [execBypass]
@[simp] theorem execSamplePreload_silicon (preload : List Byte) :
    (nextOr s (execSamplePreload preload s)).silicon = s.silicon := by simp [execSamplePreload]

@[simp] theorem execExtest_silicon : (nextOr s (execExtest s)).silicon = s.silicon := by simp [execExtest]
@[simp] theorem execExtestPulse_silicon : (nextOr s (execExtestPulse s)).silicon = s.silicon := by simp [execExtestPulse]
@[simp] theorem execExtestTrain_silicon : (nextOr s (execExtestTrain s)).silicon = s.silicon := by simp [execExtestTrain]
@[simp] theorem execClamp_silicon : (nextOr s (execClamp s)).silicon = s.silicon := by simp [execClamp]
@[simp] theorem execHighz_silicon : (nextOr s (execHighz s)).silicon = s.silicon := by simp [execHighz]
@[simp] theorem execScan_silicon : (nextOr s (execScan s)).silicon = s.silicon := by simp [execScan]
@[simp] theorem execTestLogicReset_silicon : (nextOr s (execTestLogicReset s)).silicon = s.silicon := by simp [execTestLogicReset]

end Commands

end Sys2Proof.Machine

/-! PROOFS. Fuses are only ever blown (R489, R491, R495): what a FULL zeroize, a lifecycle transition, the slots and the SVN write,
every path that leads to them, and so every step. -/

namespace Sys2Proof.Machine

/-- Fuses `g` that differ from `f` by blown fuses only. -/
structure FusesBlown (f g : Fuses) : Prop where
  svn : f.svn ≤ g.svn
  revoked : ∀ k, f.revoked.testBit k = true → g.revoked.testBit k = true
  killed : f.killed = true → g.killed = true
  openF : f.openF ≤ g.openF
  sealedF : f.sealedF ≤ g.sealedF
  retiredF : f.retiredF ≤ g.retiredF
  dus : g.dus = f.dus

theorem FusesBlown.refl (f : Fuses) : FusesBlown f f :=
  ⟨le_rfl, fun _ h => h, fun h => h, le_rfl, le_rfl, le_rfl, rfl⟩

theorem FusesBlown.trans {f g h : Fuses} (a : FusesBlown f g) (b : FusesBlown g h) : FusesBlown f h :=
  ⟨a.svn.trans b.svn, fun k x => b.revoked k (a.revoked k x), fun x => b.killed (a.killed x), a.openF.trans b.openF,
    a.sealedF.trans b.sealedF, a.retiredF.trans b.retiredF, b.dus.trans a.dus⟩

/-- The part is the same, and fuses have at most been blown. -/
structure OnlyBlows (s t : State) : Prop where
  part : t.part = s.part
  fuses : FusesBlown s.fuses t.fuses

theorem silicon_eq_iff {s t : State} : t.silicon = s.silicon ↔ t.part = s.part ∧ t.fuses = s.fuses := Prod.ext_iff

theorem onlyBlows_of_silicon {s t : State} (h : t.silicon = s.silicon) : OnlyBlows s t := by
  obtain ⟨hp, hf⟩ := silicon_eq_iff.mp h
  exact ⟨hp, hf ▸ .refl _⟩

theorem onlyBlows_of_fuses {s t : State} {g : Fuses} (h : t.silicon = (s.part, g)) (hg : FusesBlown s.fuses g) :
    OnlyBlows s t := by
  obtain ⟨hp, hf⟩ : t.part = s.part ∧ t.fuses = g := Prod.ext_iff.mp h
  exact ⟨hp, hf ▸ hg⟩

theorem OnlyBlows.trans {s t u : State} (a : OnlyBlows s t) (b : OnlyBlows t u) : OnlyBlows s u :=
  ⟨b.part.trans a.part, a.fuses.trans b.fuses⟩

theorem OnlyBlows.then_silicon {s t u : State} (a : OnlyBlows s t) (h : u.silicon = t.silicon) : OnlyBlows s u :=
  a.trans (onlyBlows_of_silicon h)

theorem onlyBlows_ite {s t u : State} {c : Prop} [Decidable c] (ht : OnlyBlows s t) (hu : OnlyBlows s u) :
    OnlyBlows s (if c then t else u) := by split <;> assumption

theorem onlyBlows_foldl {α : Type} (f : State → α → State) (h : ∀ s a, OnlyBlows s (f s a)) (l : List α) (s : State) :
    OnlyBlows s (l.foldl f s) := by
  induction l generalizing s with
  | nil => exact onlyBlows_of_silicon rfl
  | cons a l ih => exact (h s a).trans (ih _)

-- what blows fuses

theorem fullFuses_blown (f : Fuses) : FusesBlown f (fullFuses f) :=
  { FusesBlown.refl f with revoked := fun k h => by simp [fullFuses, h], killed := fun _ => rfl }

theorem fuseStep_blown (s : State) (target : Nat) : FusesBlown s.fuses (fuseStep s target) := by
  have r := FusesBlown.refl s.fuses
  unfold fuseStep; simp only; split
  · exact { r with }
  · split
    · exact { r with }
    · split
      · exact { r with openF := Nat.le_succ _ }
      · split
        · exact { r with sealedF := Nat.le_succ _ }
        · exact { r with retiredF := Nat.le_succ _ }

theorem fullFuses_ite_blown (f : Fuses) (c : Prop) [Decidable c] : FusesBlown f (if c then fullFuses f else f) := by
  split
  · exact fullFuses_blown f
  · exact .refl f

theorem zeroFinish_onlyBlows (s : State) (z : Zero) : OnlyBlows s (zeroFinish s z) := by
  unfold zeroFinish; extract_lets _ spent _ cleared _ _ blown noted
  have hc : cleared.silicon = s.silicon := by simp [cleared, spent]
  have hb : OnlyBlows cleared blown := ⟨rfl, fullFuses_ite_blown _ _⟩
  have hn : noted.silicon = blown.silicon := by simp [noted]
  refine ((onlyBlows_of_silicon hc).trans hb).then_silicon ?_
  rw [retarget_silicon]; split <;> simp [hn]

theorem lcStep_onlyBlows (s : State) (target : Nat) : OnlyBlows s (lcStep s target) := by
  refine onlyBlows_of_fuses ?_ (fuseStep_blown s target)
  simp [lcStep]

theorem writeSlotCtl_onlyBlows (v : Nat) (s : State) : OnlyBlows s (writeSlotCtl v s) := by
  have r := FusesBlown.refl s.fuses
  unfold writeSlotCtl; simp only; split
  · exact onlyBlows_of_silicon rfl
  · split
    · exact onlyBlows_of_silicon (by simp)
    · refine onlyBlows_of_fuses (by simp; rfl) ?_
      split
      · exact { r with }
      · exact { r with revoked := fun k h => by simp [h] }

theorem writeSvnAdvance_onlyBlows (v : Nat) (s : State) : OnlyBlows s (writeSvnAdvance v s) :=
  ⟨rfl, { FusesBlown.refl s.fuses with svn := le_max_left _ _ }⟩

theorem execBootRom_onlyBlows (s : State) : OnlyBlows s (nextOr s (execBootRom s)) := by
  simp only [execBootRom, nextOr_guard]
  exact onlyBlows_ite (onlyBlows_of_fuses (by simp; rfl) (fullFuses_ite_blown _ _)) (onlyBlows_of_silicon rfl)

theorem regWrite_onlyBlows (path a v : Nat) (s : State) : OnlyBlows s (regWrite path a v s) := by
  unfold regWrite; split
  case h_31 => exact writeSlotCtl_onlyBlows v s
  case h_34 => exact writeSvnAdvance_onlyBlows v s
  all_goals exact onlyBlows_of_silicon (by simp)

-- the paths that lead there

theorem zeroStep_onlyBlows (s : State) (z : Zero) : OnlyBlows s (zeroStep s z) :=
  onlyBlows_ite (zeroFinish_onlyBlows s z) (onlyBlows_of_silicon (by simp))

theorem execZeroize_onlyBlows (w : Option Nat) (s : State) : OnlyBlows s (nextOr s (execZeroize w s)) := by
  unfold execZeroize; split
  · exact onlyBlows_of_silicon (by simp)
  · split
    · simp only [nextOr_guard]
      exact onlyBlows_ite (zeroStep_onlyBlows _ _) (onlyBlows_of_silicon rfl)
    · exact onlyBlows_of_silicon rfl

theorem execLcTransition_onlyBlows (w : Option Nat) (s : State) : OnlyBlows s (nextOr s (execLcTransition w s)) := by
  unfold execLcTransition; split
  · exact onlyBlows_of_silicon (by simp)
  · cases s.sec.lcTo with
    | none => exact onlyBlows_of_silicon rfl
    | some t =>
      simp only [Option.bind_some]; split
      · exact lcStep_onlyBlows s t
      · exact onlyBlows_of_silicon rfl

theorem writeReg_onlyBlows (path a v : Nat) (s : State) : OnlyBlows s (writeReg path a v s) :=
  onlyBlows_ite (onlyBlows_of_silicon rfl) (regWrite_onlyBlows path a v s)

theorem writeBar0_onlyBlows (o v : Nat) (s : State) : OnlyBlows s (writeBar0 o v s) :=
  onlyBlows_ite (writeReg_onlyBlows 1 (o / 4) v s) (onlyBlows_of_silicon (by simp))

theorem writeSpace_onlyBlows (space a v : Nat) (s : State) : OnlyBlows s (writeSpace space a v s) := by
  unfold writeSpace; split
  case h_4 => exact writeBar0_onlyBlows a v s
  case h_7 => exact writeReg_onlyBlows space a v s
  all_goals exact onlyBlows_of_silicon (by simp)

theorem burstWrite_onlyBlows (s : State) (bs : List Byte) : OnlyBlows s (burstWrite s bs) := by
  unfold burstWrite
  exact onlyBlows_foldl _ (fun s _ => writeReg_onlyBlows 0 _ _ s) _ s

theorem writeFrame_onlyBlows (s : State) (bs : List Byte) : OnlyBlows s (writeFrame s bs) := by
  refine OnlyBlows.then_silicon (onlyBlows_ite (burstWrite_onlyBlows s bs) ?_) (answer_silicon _ _)
  exact onlyBlows_of_silicon (by simp)

theorem execRegWrite_onlyBlows (space a v : Nat) (s : State) : OnlyBlows s (nextOr s (execRegWrite space a v s)) := by
  simp only [execRegWrite, nextOr_withOperand, nextOr_guard]
  exact onlyBlows_ite (onlyBlows_ite (writeSpace_onlyBlows space a v s) (onlyBlows_of_silicon rfl)) (onlyBlows_of_silicon rfl)

theorem execW1cWrite_onlyBlows (path a v : Nat) (s : State) : OnlyBlows s (nextOr s (execW1cWrite path a v s)) := by
  simp only [execW1cWrite, nextOr_withOperand, nextOr_guard]
  exact onlyBlows_ite (onlyBlows_ite (writeReg_onlyBlows path a v s) (onlyBlows_of_silicon rfl)) (onlyBlows_of_silicon rfl)

theorem execCpWriteFrame_onlyBlows (bytes : List Byte) (s : State) : OnlyBlows s (nextOr s (execCpWriteFrame bytes s)) := by
  simp only [execCpWriteFrame, nextOr_withOperand, nextOr_next]
  exact onlyBlows_ite (onlyBlows_ite (writeFrame_onlyBlows s bytes) (onlyBlows_of_silicon (by simp))) (onlyBlows_of_silicon rfl)

theorem execDbgAccess_onlyBlows (req : Option (Nat × Option Nat)) (s : State) : OnlyBlows s (nextOr s (execDbgAccess req s)) := by
  have select : OnlyBlows s (tapSelect s 0x10 true) := onlyBlows_of_silicon (by simp)
  simp only [execDbgAccess, nextOr_withOperand, nextOr_guard]
  refine onlyBlows_ite (onlyBlows_ite (onlyBlows_ite select ?_) (onlyBlows_of_silicon rfl)) (onlyBlows_of_silicon rfl)
  split
  · exact select
  · exact select.then_silicon (by simp)
  · exact onlyBlows_ite select (select.trans (writeReg_onlyBlows 2 _ _ _))

theorem execSlotProgram_onlyBlows (v : Nat) (s : State) : OnlyBlows s (nextOr s (execSlotProgram v s)) := by
  simp only [execSlotProgram, nextOr_withOperand, nextOr_next]
  exact onlyBlows_ite (writeSlotCtl_onlyBlows v s) (onlyBlows_of_silicon rfl)

theorem execSlotRevoke_onlyBlows (v : Nat) (s : State) : OnlyBlows s (nextOr s (execSlotRevoke v s)) := by
  simp only [execSlotRevoke, nextOr_withOperand, nextOr_next]
  exact onlyBlows_ite (writeSlotCtl_onlyBlows v s) (onlyBlows_of_silicon rfl)

theorem execSvnAdvance_onlyBlows (v : Nat) (s : State) : OnlyBlows s (nextOr s (execSvnAdvance v s)) := by
  simp only [execSvnAdvance, nextOr_withOperand, nextOr_next]
  exact onlyBlows_ite (writeSvnAdvance_onlyBlows v s) (onlyBlows_of_silicon rfl)

/-- Ten commands may blow fuses; every other one leaves the silicon as it is. -/
theorem exec_onlyBlows (c : Instr) (s : State) : OnlyBlows s (nextOr s (exec c s)) := by
  cases c
  case regWrite space a v => exact execRegWrite_onlyBlows space a v s
  case w1cWrite path a v => exact execW1cWrite_onlyBlows path a v s
  case cpWriteFrame bytes => exact execCpWriteFrame_onlyBlows bytes s
  case dbgAccess req => exact execDbgAccess_onlyBlows req s
  case bootRom => exact execBootRom_onlyBlows s
  case zeroize w => exact execZeroize_onlyBlows w s
  case lcTransition w => exact execLcTransition_onlyBlows w s
  case slotProgram v => exact execSlotProgram_onlyBlows v s
  case slotRevoke v => exact execSlotRevoke_onlyBlows v s
  case svnAdvance v => exact execSvnAdvance_onlyBlows v s
  all_goals exact onlyBlows_of_silicon (by simp [exec])

theorem step_onlyBlows {s s' : State} (h : step s = .next s') : OnlyBlows s s' := by
  unfold step at h; split at h
  · next c rest _ =>
    have hc := exec_onlyBlows c { s with pending := rest }
    rw [h, nextOr_next] at hc
    exact (onlyBlows_of_silicon (by simp)).trans hc
  · cases h; exact onlyBlows_of_silicon (by simp)

/-- Settles O59: what writes the fuses only blows them, and every other operation of the model leaves the
part and its fuses as they are. -/
theorem noStepUnblowsAFuse : Obligations.NoStepUnblowsAFuse := by
  intro s s' h
  obtain ⟨hp, svn, revoked, killed, openF, sealedF, retiredF, dus⟩ := step_onlyBlows h
  exact ⟨hp, svn, revoked, killed, openF, sealedF, retiredF, dus⟩

end Sys2Proof.Machine

/-! PROOFS. The register map: what its words read and store by their attributes (chapter 18; R21 to R25, R472, R482, R512, R537). -/

namespace Sys2Proof.Machine

open Sys2Proof.Stated

-- bits and register words

/-- What a write-1-to-clear takes away: the bits that are set in both. -/
theorem testBit_sub_and (x v b : Nat) : (x - (x &&& v)).testBit b = (x.testBit b && !v.testBit b) := by
  have le : x &&& v ≤ x := Nat.and_le_left
  have parity : (x &&& v) % 2 = 1 ↔ x % 2 = 1 ∧ v % 2 = 1 := Nat.and_mod_two_eq_one
  induction b generalizing x v with
  | zero =>
    generalize x &&& v = y at le parity ⊢
    rw [Bool.eq_iff_iff]
    simp only [Nat.testBit_zero, Bool.and_eq_true, Bool.not_eq_true', decide_eq_true_eq, decide_eq_false_iff_not]
    omega
  | succ b ih =>
    have half : (x - (x &&& v)) / 2 = x / 2 - (x / 2 &&& v / 2) := by
      rw [← Nat.and_div_two]; omega
    simp only [Nat.testBit_succ, half]
    exact ih _ _ Nat.and_le_left Nat.and_mod_two_eq_one

theorem reg_lt (s : State) (a : Nat) : reg s a < 2 ^ 32 := (tabGet 0 s.regs a).isLt

theorem reg_of_regs {s t : State} (h : t.regs = s.regs) (a : Nat) : reg t a = reg s a := by simp [reg, h]

/-- A value that a word holds is read back from the register it is stored in. -/
theorem reg_setReg_self {v : Nat} (h : v < 2 ^ 32) (s : State) (a : Nat) : reg (setReg s a v) a = v := by
  rw [reg_setReg, if_pos rfl, Nat.mod_eq_of_lt h]

theorem reg_setReg_ne {a b : Nat} (h : b ≠ a) (s : State) (v : Nat) : reg (setReg s a v) b = reg s b := by
  simp [h]

theorem clampTo_lt {lo hi v n : Nat} (h : hi < n) : clampTo lo hi v < n := (Nat.min_le_right ..).trans_lt h

/-- A clamped register is present in every variant and stores the clamped value. -/
theorem writeReg_clamped {a lo hi : Nat} (h : (a, lo, hi) ∈ clampedRegs) (v : Nat) (s : State) :
    writeReg 0 a v s = setReg s a (clampTo lo hi v) := by
  simp only [clampedRegs, List.mem_cons, Prod.mk.injEq, List.not_mem_nil, or_false] at h
  rcases h with h | h | h | h | h | h | h | h | h <;> obtain ⟨rfl, rfl, rfl⟩ := h <;>
    simp [writeReg, absent, hidden, regWrite]

theorem clampedRegs_bounds : ∀ q ∈ clampedRegs, q.1 < 1024 ∧ q.2.2 < 2 ^ 32 := by decide

theorem storedWords_plain : ∀ a ∈ storedWords, ¬ a < 0x040 ∧ ¬ (0x050 ≤ a ∧ a < 0x080) ∧ ¬ (0x28C ≤ a ∧ a < 0x290) ∧
    ¬ (0x310 ≤ a ∧ a < 0x320) ∧ ¬ (0x385 ≤ a ∧ a < 0x389) := by decide

/-- A stored word reads as it stands. -/
theorem regValue_of_stored {s : State} {a : Nat} (h : a ∈ storedWords) (ha : absent s a = false) : regValue s a = reg s a := by
  obtain ⟨h1, h2, h3, h4, h5⟩ := storedWords_plain a h
  unfold regValue; simp only [ha, h1, h2, h3, h4, h5, List.contains_iff_mem.mpr h, if_true, if_false]
  simp

theorem rcWords_stored : ∀ a ∈ rcWords, a ∈ storedWords := by decide

theorem rcWords_plain : ∀ a ∈ rcWords, a < 1024 ∧ ¬ (0x2C0 ≤ a ∧ a ≤ 0x2FF) ∧ a ≠ Reg.winData ∧ ¬ (0x340 ≤ a ∧ a ≤ 0x344) ∧
    a ≠ Reg.sumpRec := by decide

/-- The Control Port sees every word, and BAR0 every word but the debug block (R512). -/
theorem hidden_eq_false {p a : Nat} (hp : p < 2) (ha : ¬ (0x2C0 ≤ a ∧ a ≤ 0x2FF)) : hidden p a = false := by
  have h2 : p ≠ 2 := by omega
  simp [hidden, h2]; omega

theorem readReg_rc {p a : Nat} {s : State} (hp : p < 2) (h : a ∈ rcWords) (ha : absent s a = false) :
    readReg p a s = (setReg s a 0, reg s a) := by
  obtain ⟨-, shown, h1, h2, h3⟩ := rcWords_plain a h
  have value := regValue_of_stored (rcWords_stored a h) ha
  simp [readReg, readEffect, hidden_eq_false hp shown, h1, h2, h3, ha, h, value]

/-- R472: word 0 of a float as it stands. -/
def floatOpWord (f : Float8) : Nat := f.op + 256 * f.st + 65536 * f.result + 2 ^ 24 * f.seq

/-- A read of a word that is neither hidden, nor the window's, nor the sump's latching word. -/
theorem readReg_plain {p a : Nat} (hp : p < 2) (shown : ¬ (0x2C0 ≤ a ∧ a ≤ 0x2FF)) (h1 : a ≠ Reg.winData)
    (h2 : ¬ (0x340 ≤ a ∧ a ≤ 0x344)) (h3 : a ≠ Reg.sumpRec) (s : State) : readReg p a s = (readEffect s a, regValue s a) := by
  simp [readReg, hidden_eq_false hp shown, h1, h2, h3]

theorem absent_float (s : State) {n : Nat} (hn : n < 8) : absent s (0x050 + 6 * n) = false := by
  simp [absent]; omega

theorem readEffect_float (s : State) {n : Nat} (hn : n < 8) :
    readEffect s (0x050 + 6 * n) = { s with floatLatch := tabPut s.floatLatch n (getFloat s n) } := by
  have other : ∀ n < 8, rcWords.contains (0x050 + 6 * n) = false ∧ roPairs.contains (0x050 + 6 * n) = false := by decide
  obtain ⟨hrc, hro⟩ := other n hn
  have number : (0x050 + 6 * n - 0x050) / 6 = n := by omega
  unfold readEffect
  simp only [absent_float s hn, hrc, hro, number]
  rw [if_neg (by decide), if_neg (by decide), if_neg (by decide), if_neg (by simp only [Reg.timeFrac]; omega), if_pos (by omega)]

theorem regValue_float (s : State) {n : Nat} (hn : n < 8) : regValue s (0x050 + 6 * n) = floatOpWord (getFloat s n) := by
  have float : 0x050 ≤ 0x050 + 6 * n ∧ 0x050 + 6 * n < 0x080 := by omega
  have number : 6 * n / 6 = n ∧ 6 * n % 6 = 0 := by omega
  obtain ⟨hq, hr⟩ := number
  unfold regValue
  rw [absent_float s hn, if_neg (by decide), if_neg (by omega), if_pos float, Nat.add_sub_cancel_left]
  simp [floatWord, hq, floatOpWord]

theorem readReg_floatOp {p n : Nat} {s : State} (hp : p < 2) (hn : n < 8) : readReg p (Reg.floatBase + 6 * n) s =
    ({ s with floatLatch := tabPut s.floatLatch n (getFloat s n) }, floatOpWord (getFloat s n)) := by
  rw [← readEffect_float s hn, ← regValue_float s hn]
  exact readReg_plain hp (by simp only [Reg.floatBase]; omega) (by simp only [Reg.floatBase, Reg.winData]; omega)
    (by simp only [Reg.floatBase]; omega) (by simp only [Reg.floatBase, Reg.sumpRec]; omega) s

/-- What reading TIME_FRAC latches of TIME_NS (R25). -/
def latchTime (s : State) : State := setLatch (setLatch s Reg.timeNsLo (timeNs s % 2 ^ 32)) Reg.timeNsHi (timeNs s / 2 ^ 32)

theorem latchTime_lo (s : State) : (tabGet 0 (latchTime s).latch Reg.timeNsLo).toNat = timeNs s % 2 ^ 32 := by
  simp [latchTime, setLatch, tabGet_tabSet, Reg.timeNsLo, Reg.timeNsHi]

theorem latchTime_hi (s : State) : (tabGet 0 (latchTime s).latch Reg.timeNsHi).toNat = timeNs s / 2 ^ 32 % 2 ^ 32 := by
  simp [latchTime, setLatch]

theorem readReg_timeFrac {p : Nat} (hp : p < 2) (s : State) : readReg p Reg.timeFrac s = (latchTime s, s.time.time % 65536) := by
  have present : absent s Reg.timeFrac = false := by simp [absent, Reg.timeFrac]
  have effect : readEffect s Reg.timeFrac = latchTime s := by
    unfold readEffect
    rw [present, if_neg (by decide), if_neg (by decide), if_neg (by decide), if_pos rfl]; rfl
  have value : regValue s Reg.timeFrac = s.time.time % 65536 := by
    unfold regValue
    rw [present, if_neg (by decide), if_neg (by decide), if_neg (by decide), if_neg (by decide), if_neg (by decide), if_neg (by decide),
      if_neg (by decide), if_neg (by decide), if_neg (by decide)]; rfl
  rw [readReg_plain hp (by decide) (by decide) (by decide) (by decide), effect, value]

/-- TIME_NS reads as it was latched (R25). -/
theorem regValue_timeNs {a : Nat} (h : a = Reg.timeNsLo ∨ a = Reg.timeNsHi) (s : State) :
    regValue s a = (tabGet 0 s.latch a).toNat := by
  have present : absent s a = false := by rcases h with rfl | rfl <;> simp [absent, Reg.timeNsLo, Reg.timeNsHi]
  unfold regValue
  rcases h with rfl | rfl <;>
    rw [present, if_neg (by decide), if_neg (by decide), if_neg (by decide), if_neg (by decide), if_neg (by decide), if_neg (by decide),
      if_neg (by decide), if_neg (by decide), if_pos (by decide)]

/-- The sump latches the record that SUMP_SEL names (R482). -/
def latchRec (s : State) : State := { s with sump := { s.sump with latched := tabGet {} s.sump.slots (reg s Reg.sumpSel % 64) } }

theorem readReg_sumpRec {p : Nat} (hp : p < 2) (s : State) :
    readReg p Reg.sumpRec s = (latchRec s, regValue (latchRec s) Reg.sumpRec) := by
  have present : absent s Reg.sumpRec = false := by simp [absent, Reg.sumpRec]
  have effect : readEffect s Reg.sumpRec = latchRec s := by
    unfold readEffect
    rw [present, if_neg (by decide), if_neg (by decide), if_neg (by decide), if_neg (by decide), if_neg (by decide), if_pos rfl]; rfl
  unfold readReg
  rw [hidden_eq_false hp (by decide), if_neg (by decide), if_neg (by decide), if_neg (by decide)]
  simp only [effect, if_true]

theorem readOut_of {p a v : Nat} {s t : State} (h : readReg p a s = (t, v)) :
    readOut p a s = { t with out := t.out ++ [.value p a v] } := by
  simp [readOut, h]

/-- A path is a space of its own, reached as the path is. -/
theorem readSpace_path {p : Nat} (hp : p < 2) (a : Nat) (s : State) : readSpace p a s = readReg p a s := by
  interval_cases p <;> rfl
theorem writeSpace_path {p : Nat} (hp : p < 2) (a v : Nat) (s : State) : writeSpace p a v s = writeReg p a v s := by
  interval_cases p <;> rfl
theorem spaceUp_path {p : Nat} (hp : p < 2) (s : State) : spaceUp s p = pathUp s p := by
  interval_cases p <;> rfl
theorem spaceOk_path {p a : Nat} (hp : p < 2) (ha : a < 1024) : spaceOk p a = true := by
  interval_cases p <;> simp [spaceOk, ha]

theorem isWord_of_lt {v : Nat} (hv : v < 2 ^ 32) : isWord v = true := decide_eq_true hv

/-- A write over a path that is up, outside P4, comes about. -/
theorem execRegWrite_path {p a v : Nat} {s : State} (hp : p < 2) (ha : a < 1024) (hv : v < 2 ^ 32) (up : pathUp s p = true)
    (on : s.gov.ps ≠ .p4) : exec (.regWrite p a v) s = .next (writeReg p a v s) := by
  have ok : (spaceOk p a && isWord v) = true := by simp [spaceOk_path hp ha, isWord_of_lt hv]
  have reached : (spaceUp s p && s.gov.ps != .p4) = true := by simp [spaceUp_path hp, up, on]
  rw [← writeSpace_path hp]
  exact (withOperand_of ok _).trans (guard_of reached _ _)

/-- A read over a path that is up comes about, and its value goes out. -/
theorem execRcRead_path {p a : Nat} {s : State} (hp : p < 2) (ha : a < 1024) (up : pathUp s p = true) :
    exec (.rcRead p a) s = .next (readOut p a s) := by
  have h7 : p ≠ 7 := by omega
  show execRcRead p a s = _
  simp [execRcRead, spaceOk_path hp ha, spaceUp_path hp, readSpace_path hp, up, h7, readOut]

-- each attribute, as its commands show it

theorem regWrite_stores_clamped (s : State) (on : s.gov.ps ≠ .p4) (a lo hi v : Nat) (h : (a, lo, hi) ∈ clampedRegs) (hv : v < 2 ^ 32)
    (up : pathUp s 0 = true) : ∃ s', exec (.regWrite 0 a v) s = .next s' ∧
      { s' with regs := s.regs } = s ∧ reg s' a = min (max lo v) hi ∧ ∀ b, b ≠ a → reg s' b = reg s b := by
  obtain ⟨ha, hhi⟩ := clampedRegs_bounds _ h
  refine ⟨setReg s a (clampTo lo hi v), ?_, rfl, reg_setReg_self (clampTo_lt hhi) s a, fun b hb => reg_setReg_ne hb s _⟩
  rw [execRegWrite_path (by omega) ha hv up on, writeReg_clamped h]

theorem regWrite_ignored_of_security (s : State) (on : s.gov.ps ≠ .p4) (a v : Nat) (lo : 0x280 ≤ a) (hi : a < 0x300) (hv : v < 2 ^ 32)
    (up : pathUp s 1 = true) : exec (.regWrite 1 a v) s = .next s := by
  have ignored : (absent s a || hidden 1 a || ((1 : Nat) == 1 && decide (0x280 ≤ a ∧ a ≤ 0x2BF))) = true := by
    simp [hidden]; omega
  rw [execRegWrite_path (by omega) (by omega) hv up on, writeReg, if_pos ignored]

theorem rcRead_clears (s : State) (p a : Nat) (hp : p < 2) (h : a ∈ rcWords) (ha : absent s a = false) (up : pathUp s p = true) :
    ∃ s', exec (.rcRead p a) s = .next s' ∧
      s'.out = s.out ++ [.value p a (reg s a)] ∧ reg s' a = 0 ∧ ∀ b, b ≠ a → reg s' b = reg s b := by
  refine ⟨_, execRcRead_path hp (rcWords_plain a h).1 up, ?_⟩
  rw [readOut_of (readReg_rc hp h ha)]
  exact ⟨rfl, reg_setReg_self (by omega) s a, fun b hb => reg_setReg_ne hb s 0⟩

theorem snapshotRead_latches_time (s : State) (p : Nat) (hp : p < 2) (up : pathUp s p = true) :
    ∃ s', exec (.snapshotRead p 0x0C0) s = .next s' ∧
      s'.out = s.out ++ [.value p 0x0C0 (s.time.time % 65536)] ∧ regValue s' 0x0C1 = timeNs s % 2 ^ 32 ∧
      regValue s' 0x0C2 = timeNs s / 2 ^ 32 % 2 ^ 32 ∧ s'.time = s.time ∧ s'.regs = s.regs := by
  refine ⟨readOut p 0x0C0 s, ?_, ?_⟩
  · have ok : (decide (p < 2) && (roPairs.contains 0x0C0 || 0x0C0 == Reg.timeFrac)) = true := by simp [hp, Reg.timeFrac]
    exact (withOperand_of ok _).trans (guard_of up _ _)
  · rw [show (0x0C0 : Nat) = Reg.timeFrac from rfl, readOut_of (readReg_timeFrac hp s)]
    refine ⟨rfl, ?_, ?_, rfl, rfl⟩
    · exact (regValue_timeNs (.inl rfl) _).trans (latchTime_lo s)
    · exact (regValue_timeNs (.inr rfl) _).trans (latchTime_hi s)

theorem w1cWrite_clears_ones (s : State) (on : s.gov.ps ≠ .p4) (p a v : Nat) (hp : p < 2) (ha : a ∈ [0x240, 0x102, 0x103])
    (hv : v < 2 ^ 32) (up : pathUp s p = true) : ∃ s', exec (.w1cWrite p a v) s = .next s' ∧
      (∀ b, (reg s' a).testBit b = ((reg s a).testBit b && !v.testBit b)) ∧ ∀ b, b ≠ a → reg s' b = reg s b := by
  have stored : writeReg p a v s = setReg s a (reg s a - (reg s a &&& v)) := by
    simp only [List.mem_cons, List.not_mem_nil, or_false] at ha
    rcases ha with rfl | rfl | rfl <;> interval_cases p <;> simp [writeReg, absent, hidden, regWrite, writeW1c]
  refine ⟨writeReg p a v s, ?_, ?_⟩
  · have ok : (decide (p < 2) && [Reg.evtStatus, Reg.qpErrLo, Reg.qpErrHi].contains a && isWord v) = true := by
      have listed : [Reg.evtStatus, Reg.qpErrLo, Reg.qpErrHi].contains a = true := List.contains_iff_mem.mpr ha
      rw [decide_eq_true hp, listed, isWord_of_lt hv]; rfl
    have reached : (pathUp s p && s.gov.ps != .p4) = true := by simp [up, on]
    exact (withOperand_of ok _).trans (guard_of reached _ _)
  · rw [stored]
    refine ⟨fun b => ?_, fun b hb => reg_setReg_ne hb s _⟩
    rw [reg_setReg_self ((Nat.sub_le ..).trans_lt (reg_lt s a)), testBit_sub_and]

theorem floatOpRead_latches (s : State) (p n : Nat) (hp : p < 2) (hn : n < 8) (up : pathUp s p = true) :
    ∃ s', exec (.floatOpRead p n) s = .next s' ∧
      tabGet {} s'.floatLatch n = getFloat s n ∧ s'.floats = s.floats ∧ s'.out = s.out ++ [.value p (0x050 + 6 * n)
        ((getFloat s n).op + 256 * (getFloat s n).st + 65536 * (getFloat s n).result + 2 ^ 24 * (getFloat s n).seq)] := by
  have ok : (decide (p < 2) && decide (n < 8)) = true := by simp [hp, hn]
  refine ⟨readOut p (Reg.floatBase + 6 * n) s, (withOperand_of ok _).trans (guard_of up _ _), ?_⟩
  rw [readOut_of (readReg_floatOp hp hn)]
  exact ⟨tabGet_tabPut_self .., rfl, rfl⟩

theorem sumpRecRead_latches (s : State) (p : Nat) (hp : p < 2) (up : pathUp s p = true) : ∃ s', exec (.sumpRecRead p) s = .next s' ∧
      s'.sump.latched = tabGet {} s.sump.slots (reg s 0x301 % 64) ∧ s'.sump.intake = s.sump.intake ∧ s'.regs = s.regs := by
  refine ⟨readOut p Reg.sumpRec s, ?_, ?_⟩
  · exact (withOperand_of (decide_eq_true hp) _).trans (guard_of up _ _)
  · rw [readOut_of (readReg_sumpRec hp s)]
    exact ⟨rfl, rfl, rfl⟩

theorem rcRead_qpWord (s : State) (n : Nat) (hn : n < 64) (up : pathUp s 1 = true) :
    exec (.rcRead 2 (16 * n + 7)) s = .next { s with out := s.out ++ [.value 2 (16 * n + 7) (getQp s n).sqHead] } := by
  have hq : (16 * n + 7) / 16 = n ∧ (16 * n + 7) % 16 = 7 := by omega
  have ok : spaceOk 2 (16 * n + 7) = true := by simp [spaceOk]; omega
  have reached : spaceUp s 2 = true := up
  show execRcRead 2 (16 * n + 7) s = _
  simp [execRcRead, ok, reached, readSpace, hq, readQpWord]

theorem rcRead_unsupported (s : State) (a : Nat) (ha : a < 2 ^ 20) (up : pathUp s 1 = true) :
    ∃ s', exec (.rcRead 7 a) s = .next s' ∧ s'.out = s.out ++ [.unsupported 7 a] ∧ s'.regs = s.regs := by
  have ok : spaceOk 7 a = true := by simpa [spaceOk] using ha
  have reached : spaceUp s 7 = true := up
  refine ⟨{ unsupportedReq s with out := s.out ++ [.unsupported 7 a] }, ?_, rfl, rfl⟩
  show execRcRead 7 a s = _
  simp [execRcRead, ok, reached]

@[simp] theorem sendMsix_regs (s : State) (v : Nat) : (sendMsix s v).regs = s.regs := by
  unfold sendMsix; simp only; split
  · rfl
  · split <;> rfl

@[simp] theorem evtRise_regs (s : State) (old : Nat) : (evtRise s old).regs = s.regs := by
  unfold evtRise; simp only; split <;> simp

theorem evtMaskWrite_stores (s : State) (v : Nat) (hv : v < 2 ^ 32) :
    ∃ s', exec (.evtMaskWrite v) s = .next s' ∧ reg s' 0x241 = v % 2 ^ 14 ∧ reg s' 0x240 = reg s 0x240 := by
  refine ⟨writeEvtMask v s, ?_, ?_⟩
  · exact withOperand_of (decide_eq_true hv) _
  · have regs : (writeEvtMask v s).regs = (setReg s 0x241 (v % 2 ^ 14)).regs := evtRise_regs _ _
    exact ⟨(reg_of_regs regs _).trans (reg_setReg_self (by omega) s _), (reg_of_regs regs _).trans (reg_setReg_ne (by decide) s _)⟩

/-- Settles O45: each clause is the lemma of its attribute. -/
theorem registersReadAndWriteByTheirAttributes : Obligations.RegistersReadAndWriteByTheirAttributes := fun s on =>
  ⟨regWrite_stores_clamped s on, regWrite_ignored_of_security s on, rcRead_clears s, snapshotRead_latches_time s,
    w1cWrite_clears_ones s on, floatOpRead_latches s, sumpRecRead_latches s, rcRead_qpWord s, rcRead_unsupported s,
    evtMaskWrite_stores s⟩

end Sys2Proof.Machine

/-! PROOFS. The state after reset (R22). -/

namespace Sys2Proof.Machine

theorem reg_reset_rc : ∀ a ∈ rcWords ++ [Reg.evtStatus, Reg.sumpWr, Reg.dbgLevel], reg State.reset a = 0 := by decide

/-- The words that `coldRegs` names hold its values after reset. -/
theorem reg_reset_cold : ∀ p ∈ coldRegs [], reg State.reset p.1 = p.2.toNat := by decide

/-- Settles O57: the words named are those of the cold reset's table and of the counters, and the rest of the state is empty. -/
theorem resetGivesTheManualsValues : Obligations.ResetGivesTheManualsValues := by
  refine ⟨fun a v h => ?_, reg_reset_rc, rfl, rfl, rfl, rfl, rfl, rfl, rfl, rfl, rfl, rfl, rfl, rfl⟩
  have cold : (a, BitVec.ofNat 32 v) ∈ coldRegs [] ∧ v < 2 ^ 32 :=
    (by decide : ∀ p ∈ _, (p.1, BitVec.ofNat 32 p.2) ∈ coldRegs [] ∧ p.2 < 2 ^ 32) (a, v) h
  obtain ⟨listed, word⟩ := cold
  rw [reg_reset_cold _ listed, BitVec.toNat_ofNat, Nat.mod_eq_of_lt word]

end Sys2Proof.Machine

/-! PROOFS. The float codes (R51, R64, R65, R69): scaling by powers of two and the floor of the logarithm are exact on the
values that codes have, so a finite code is met again; the sign of a zero is kept by float formats alone. -/

namespace Sys2Proof.Machine

open Sys2Proof.Stated

-- scaling, the exponent of a value and its rounding

theorem scale2_natCast (n d a : Nat) : scale2 n d a = (n * 2 ^ a, d) := by simp [scale2]

theorem scale2_neg_natCast (n d a : Nat) : scale2 n d (-(a : Int)) = (n, d * 2 ^ a) := by
  cases a with
  | zero => simp [scale2]
  | succ a =>
    have neg : ¬ (0 : Int) ≤ -((a + 1 : Nat) : Int) := by omega
    rw [scale2, if_neg neg, Int.neg_neg, Int.toNat_natCast]

/-- `n/d · 2^(a−b)` is at least 1 where `d · 2^b ≤ n · 2^a`. -/
theorem scale2_sub_le {n d a b : Nat} (h : d * 2 ^ b ≤ n * 2 ^ a) :
    (scale2 n d ((a : Int) - b)).2 ≤ (scale2 n d ((a : Int) - b)).1 := by
  obtain ⟨c, rfl⟩ | ⟨c, rfl⟩ : (∃ c, a = b + c) ∨ ∃ c, b = a + c :=
    (Nat.le_total b a).imp Nat.exists_eq_add_of_le Nat.exists_eq_add_of_le
  · have diff : ((b + c : Nat) : Int) - b = c := by omega
    rw [diff, scale2_natCast]
    refine Nat.le_of_mul_le_mul_right (c := 2 ^ b) ?_ (by positivity)
    simpa [Nat.pow_add, Nat.mul_comm, Nat.mul_left_comm] using h
  · have diff : (a : Int) - (a + c : Nat) = -(c : Int) := by omega
    rw [diff, scale2_neg_natCast]
    refine Nat.le_of_mul_le_mul_right (c := 2 ^ a) ?_ (by positivity)
    simpa [Nat.pow_add, Nat.mul_comm, Nat.mul_left_comm] using h

theorem floorLog2_two_pow {n : Nat} (hn : n ≠ 0) (j : Nat) : floorLog2 n (2 ^ j) = (n.log2 : Int) - j := by
  have atLeast : 2 ^ j * 2 ^ n.log2 ≤ n * 2 ^ j := by
    rw [Nat.mul_comm]; exact Nat.mul_le_mul_right _ (Nat.log2_self_le hn)
  simp [floorLog2, Nat.log2_two_pow, scale2_sub_le atLeast]

/-- The exponent of `k · 2^x`. -/
theorem floorLog2_scale2 {k : Nat} (hk : k ≠ 0) (x : Int) :
    floorLog2 (scale2 k 1 x).1 (scale2 k 1 x).2 = k.log2 + x := by
  obtain ⟨a, rfl | rfl⟩ := x.eq_nat_or_neg
  · have shifted : (k * 2 ^ a).log2 = k.log2 + a := by
      rw [Nat.log2_eq_iff (by positivity), Nat.pow_add, Nat.add_right_comm, Nat.pow_add]
      exact ⟨Nat.mul_le_mul_right _ (Nat.log2_self_le hk), Nat.mul_lt_mul_of_pos_right Nat.lt_log2_self (by positivity)⟩
    rw [scale2_natCast]
    simpa [shifted] using floorLog2_two_pow (n := k * 2 ^ a) (by positivity) 0
  · rw [scale2_neg_natCast, Nat.one_mul, floorLog2_two_pow hk, Int.sub_eq_add_neg]

theorem rnaNat_mul_self (k : Nat) {t : Nat} (ht : 0 < t) : rnaNat (k * t) t = k := by
  have sum : 2 * (k * t) + t = t + 2 * t * k := by ring
  rw [rnaNat, sum, Nat.add_mul_div_left _ _ (by omega), Nat.div_eq_of_lt (by omega), Nat.zero_add]

/-- Scaling an integer by 2^x, back, and rounding gives it again. -/
theorem rnaNat_scale2_neg (k : Nat) (x : Int) :
    rnaNat (scale2 (scale2 k 1 x).1 (scale2 k 1 x).2 (-x)).1 (scale2 (scale2 k 1 x).1 (scale2 k 1 x).2 (-x)).2 = k := by
  obtain ⟨a, rfl | rfl⟩ := x.eq_nat_or_neg
  · rw [scale2_natCast, scale2_neg_natCast, Nat.one_mul]; exact rnaNat_mul_self k (by positivity)
  · rw [scale2_neg_natCast, Int.neg_neg, scale2_natCast, Nat.one_mul]; exact rnaNat_mul_self k (by positivity)

theorem scale2_fst_eq_zero_iff (k d : Nat) (x : Int) : (scale2 k d x).1 = 0 ↔ k = 0 := by
  unfold scale2; split <;> simp

-- magnitude codes

@[simp] theorem encMag_zero (sp : FSpec) (d : Nat) : encMag sp 0 d = 0 := rfl

/-- A value `k · 2^(e − bias − fb)` whose significand `k` is that of the exponent `e ≥ 1`, or is below 2^fb at the
lowest exponent 1, has the magnitude code `e · 2^fb + k − 2^fb`. -/
theorem encMag_scale2 (sp : FSpec) {k e : Nat} (he : 1 ≤ e) (hk : k < 2 ^ (sp.fb + 1)) (normal : 2 ^ sp.fb ≤ k ∨ e = 1) :
    let p := scale2 k 1 ((e : Int) - sp.bias - sp.fb)
    encMag sp p.1 p.2 = e * 2 ^ sp.fb + k - 2 ^ sp.fb := by
  intro p
  by_cases zero : k = 0
  · have lowest : e = 1 := normal.resolve_left (by simp [zero])
    simp [encMag, p, scale2_fst_eq_zero_iff, zero, lowest]
  · have upper : k.log2 < sp.fb + 1 := (Nat.log2_lt zero).2 hk
    have lower : 2 ^ sp.fb ≤ k → sp.fb ≤ k.log2 := (Nat.le_log2 zero).2
    have exponent : max (floorLog2 p.1 p.2) (1 - (sp.bias : Int)) = (e : Int) - sp.bias := by
      rw [floorLog2_scale2 zero]
      rcases normal with normal | lowest
      · have := lower normal; omega
      · omega
    have back : (sp.fb : Int) - ((e : Int) - sp.bias) = -((e : Int) - sp.bias - sp.fb) := by omega
    have field : ((e : Int) - sp.bias + sp.bias).toNat = e := by omega
    have nonzero : p.1 ≠ 0 := mt (scale2_fst_eq_zero_iff _ _ _).1 zero
    simp only [encMag, nonzero, if_false, exponent, back, field]
    rw [rnaNat_scale2_neg]

-- the value of a finite code

/-- The magnitude a finite magnitude code stands for (Table 02.2). -/
def magValue (sp : FSpec) (m : Nat) : Nat × Nat :=
  scale2 (if m / 2 ^ sp.fb = 0 then m % 2 ^ sp.fb else 2 ^ sp.fb + m % 2 ^ sp.fb) 1
    ((max (m / 2 ^ sp.fb) 1 : Nat) - (sp.bias : Int) - sp.fb)

theorem decFloat_of_le {sp : FSpec} {c : Nat} (small : c % 2 ^ (sp.w - 1) ≤ sp.maxCode) :
    decFloat sp c =
      .fin (c.testBit (sp.w - 1)) (magValue sp (c % 2 ^ (sp.w - 1))).1 (magValue sp (c % 2 ^ (sp.w - 1))).2 :=
  if_pos small

theorem decFloat_isFin_iff {sp : FSpec} {c : Nat} : (decFloat sp c).isFin = true ↔ c % 2 ^ (sp.w - 1) ≤ sp.maxCode := by
  constructor
  · intro fin
    by_contra large
    simp only [decFloat, large, if_false] at fin
    split at fin <;> simp [Val.isFin] at fin
  · intro small
    rw [decFloat_of_le small]; rfl

/-- A magnitude code's value has that code, whether it is subnormal or normal. -/
theorem encMag_magValue (sp : FSpec) (m : Nat) : encMag sp (magValue sp m).1 (magValue sp m).2 = m := by
  have parts : 2 ^ sp.fb * (m / 2 ^ sp.fb) + m % 2 ^ sp.fb = m := Nat.div_add_mod m _
  have frac : m % 2 ^ sp.fb < 2 ^ sp.fb := Nat.mod_lt _ (by positivity)
  have double : 2 ^ (sp.fb + 1) = 2 ^ sp.fb + 2 ^ sp.fb := by ring
  by_cases subnormal : m / 2 ^ sp.fb = 0
  · rw [subnormal] at parts
    have code := encMag_scale2 sp (k := m % 2 ^ sp.fb) (e := 1) le_rfl (by omega) (.inr rfl)
    simp only [magValue, subnormal, if_true, Nat.zero_max, code]
    omega
  · have least : max (m / 2 ^ sp.fb) 1 = m / 2 ^ sp.fb := max_eq_left (Nat.pos_of_ne_zero subnormal)
    have code := encMag_scale2 sp (k := 2 ^ sp.fb + m % 2 ^ sp.fb) (e := m / 2 ^ sp.fb) (Nat.pos_of_ne_zero subnormal)
      (by omega) (.inl (by omega))
    simp only [magValue, subnormal, if_false, least, code]
    rw [Nat.mul_comm (m / 2 ^ sp.fb)]
    omega

-- encoding

theorem signBit_add_mod {sp : FSpec} (hw : 0 < sp.w) {c : Nat} (hc : c < 2 ^ sp.w) :
    signBit sp (c.testBit (sp.w - 1)) + c % 2 ^ (sp.w - 1) = c := by
  obtain ⟨v, hv⟩ : ∃ v, sp.w = v + 1 := ⟨sp.w - 1, (Nat.succ_pred_eq_of_pos hw).symm⟩
  have top : c / 2 ^ v < 2 := Nat.div_lt_of_lt_mul (by rw [hv] at hc; simpa [Nat.pow_succ] using hc)
  have parts : 2 ^ v * (c / 2 ^ v) + c % 2 ^ v = c := Nat.div_add_mod c _
  obtain zero | one := Nat.le_one_iff_eq_zero_or_eq_one.1 (Nat.le_of_lt_succ top)
  · rw [zero] at parts
    simpa [signBit, hv, Nat.testBit_eq_decide_div_mod_eq, zero] using parts
  · rw [one] at parts
    simpa [signBit, hv, Nat.testBit_eq_decide_div_mod_eq, one] using parts

/-- A float format encodes by rule F or by rule S (Table 02.5). -/
theorem encElem_float {f : Fmt} {sp : FSpec} (h : (f, sp) ∈ floatFmts) :
    ∃ ruleF, ∀ z tab t, encElem f z tab none t = encFl sp ruleF t t := by
  simp only [floatFmts, List.mem_cons, Prod.mk.injEq, List.not_mem_nil, or_false] at h
  rcases h with ⟨rfl, rfl⟩ | ⟨rfl, rfl⟩ | ⟨rfl, rfl⟩ | ⟨rfl, rfl⟩ | ⟨rfl, rfl⟩ | ⟨rfl, rfl⟩ | ⟨rfl, rfl⟩
  exacts [⟨true, fun _ _ _ => rfl⟩, ⟨true, fun _ _ _ => rfl⟩, ⟨true, fun _ _ _ => rfl⟩, ⟨false, fun _ _ _ => rfl⟩,
    ⟨false, fun _ _ _ => rfl⟩, ⟨false, fun _ _ _ => rfl⟩, ⟨false, fun _ _ _ => rfl⟩]

/-- The code of a finite value: its sign bit, and the magnitude code up to the limit of the format's rule. -/
theorem encElem_float_code {f : Fmt} {sp : FSpec} (h : (f, sp) ∈ floatFmts) :
    ∃ top, sp.maxCode ≤ top ∧ ∀ z tab s n d,
      (encElem f z tab none (.fin s n d)).code = signBit sp s + min (encMag sp n d) top := by
  obtain ⟨ruleF, enc⟩ := encElem_float h
  simp only [enc]
  cases ruleF with
  | true => exact ⟨_, Nat.le_succ _, fun _ _ _ _ _ => rfl⟩
  | false => exact ⟨_, le_rfl, fun _ _ _ _ _ => rfl⟩

theorem floatFmts_width_pos : ∀ p ∈ floatFmts, 0 < p.2.w := by decide

theorem rnaInt_zero (s : Bool) {d : Nat} (hd : 0 < d) : rnaInt (.fin s 0 d) = 0 := by
  have zero : rnaNat 0 d = 0 := Nat.div_eq_of_lt (by omega)
  cases s <;> simp [rnaInt, zero]

/-- An integer zero has the code of the zero point, whatever its sign. -/
theorem encInt_zero_sign {f : Fmt} {z d : Nat} (hd : 0 < d) :
    (encInt f z (.fin true 0 d) (.fin true 0 d)).code = (encInt f z (.fin false 0 d) (.fin false 0 d)).code := by
  simp only [encInt, rnaInt_zero _ hd]

theorem n4Nearest_zero_sign (tab : List Nat) (d : Nat) : n4Nearest tab true 0 d = n4Nearest tab false 0 d := by
  have dist : n4Dist true 0 d = n4Dist false 0 d := funext fun l => by simp [n4Dist]
  unfold n4Nearest; rw [dist]

/-- Integer and grid formats have one zero. -/
theorem encElem_zero_sign {f : Fmt} (h : f ∈ [Fmt.int32, .int16, .int8, .int4, .uint8, .u4, .n4, .mxint8, .rb8]) (z : Nat)
    (tab : List Nat) {d : Nat} (hd : 0 < d) :
    (encElem f z tab none (.fin true 0 d)).code = (encElem f z tab none (.fin false 0 d)).code := by
  have times64 : 0 < d * 1 := by omega
  simp only [List.mem_cons, List.not_mem_nil, or_false] at h
  rcases h with rfl | rfl | rfl | rfl | rfl | rfl | rfl | rfl | rfl
  exacts [encInt_zero_sign hd, encInt_zero_sign hd, encInt_zero_sign hd, encInt_zero_sign hd, encInt_zero_sign hd,
    encInt_zero_sign hd, n4Nearest_zero_sign tab d, encInt_zero_sign times64, encInt_zero_sign hd]

/-- Settles O60: a float format's code is a sign bit beside the code of the magnitude, and the value of a finite code has
the magnitude code it came from; an integer or grid format encodes a zero without its sign. -/
theorem floatCodesKeepTheirValueAndSign : Obligations.FloatCodesKeepTheirValueAndSign := by
  refine ⟨fun f sp h z tab => ?_, fun f h z tab d hd => encElem_zero_sign h z tab hd⟩
  obtain ⟨top, room, code⟩ := encElem_float_code h
  refine ⟨fun d _ => by simp [code, signBit], fun n d _ zero => ?_, fun c hc fin => ?_⟩
  · have rounded : min (encMag sp n d) top = 0 := by
      simpa only [code, signBit, Bool.false_eq_true, if_false, Nat.zero_add] using zero
    rw [code, rounded]; rfl
  · have small := decFloat_isFin_iff.1 fin
    rw [decFloat_of_le small, code, encMag_magValue, Nat.min_eq_left (small.trans room),
      signBit_add_mod (floatFmts_width_pos _ h) hc]

end Sys2Proof.Machine

/-! PROOFS. STEPCLOSE and the step boundary (R101, R103, R162, R223): a held instruction stays at the front of its thread, and
a boundary moves a station's slots, their copy and the summed increments, and nothing else of the station. -/

namespace Sys2Proof.Machine

-- held at retirement (R162)

@[simp] theorem finish_hold (u t : Nat) (i : InFlight) (s s' : State) :
    finish u t i s (.hold s') = modStn s' u (fun x => markHeld x t) := rfl

/-- Holding an instruction changes the pipe and nothing else of the station. -/
theorem markHeld_eq_withPipe (x : Station) (t : Nat) : markHeld x t = { x with pipe := (markHeld x t).pipe } := by
  unfold markHeld; split <;> rfl

@[simp] theorem markHeld_closing (x : Station) (t : Nat) : (markHeld x t).closing = x.closing := by
  rw [markHeld_eq_withPipe]

@[simp] theorem thr_markHeld (x : Station) (t k : Nat) : thr (markHeld x t) k = thr x k := by
  rw [markHeld_eq_withPipe]; rfl

theorem markHeld_pipe {x : Station} {t : Nat} {i : InFlight} (h : front x t = some i) :
    (markHeld x t).pipe = x.pipe.takeWhile (fun j => j.thread != t) ++ { i with held := true } ::
      x.pipe.drop ((x.pipe.takeWhile (fun j => j.thread != t)).length + 1) := by
  simp [markHeld, h]

/-- The oldest instruction of a thread is still its oldest once it is held. -/
theorem front_markHeld {x : Station} {t : Nat} {i : InFlight} (h : front x t = some i) :
    front (markHeld x t) t = some { i with held := true } := by
  have own : i.thread = t := front_thread h
  have older : (x.pipe.takeWhile (fun j => j.thread != t)).find? (fun j => j.thread == t) = none := by
    refine List.find?_eq_none.2 fun j hj => ?_
    simpa using List.mem_takeWhile_imp hj
  rw [front, markHeld_pipe h]
  simp [older, own]

/-- What the retirement of an instruction that is held leaves, where its body has only changed the unit's station. -/
theorem holds_modStn (u t : Nat) (i : InFlight) (s : State) (f : Station → Station) :
    OnlyUnit u s (finish u t i s (.hold (modStn s u f))) ∧
      stn (finish u t i s (.hold (modStn s u f))) u = markHeld (f (stn s u)) t := by
  rw [finish_hold]; exact modStn_modStn s u f _

-- the hand-off (R223)

theorem stepcloseBody_of_none {s : State} {u : Nat} (noClose : (stn s u).closing = none) (i : InFlight) :
    stepcloseBody u s i = .hold (modStn s u (fun x => { x with closing := some (i.thread, false) })) := by
  simp [stepcloseBody, noClose]

theorem stepclose_handed_off {s : State} {u t : Nat} {i : InFlight} (h : AtRetire .stepclose s u t i)
    (noClose : (stn s u).closing = none) :
    ∃ s', exec (.stepclose u t) s = .next s' ∧ OnlyUnit u s s' ∧ (stn s' u).closing = some (t, false) ∧
      (thr (stn s' u) t).st = .run ∧ front (stn s' u) t = some { i with held := true } := by
  obtain ⟨only, station⟩ := holds_modStn u t i s (fun x => { x with closing := some (i.thread, false) })
  refine ⟨_, retire_of h (stepcloseBody u), ?_⟩
  rw [stepcloseBody_of_none noClose, station]
  refine ⟨only, ?_, ?_, front_markHeld h.oldest⟩
  · rw [markHeld_closing, front_thread h.oldest]
  · rw [thr_markHeld]; exact h.inRun

-- what the registers and events of a boundary leave of the stations

theorem stn_of_stns {s s' : State} (h : s'.stns = s.stns) (u : Nat) : stn s' u = stn s u := by simp [stn, h]

@[simp] theorem sendMsix_stns (s : State) (v : Nat) : (sendMsix s v).stns = s.stns := by
  unfold sendMsix; simp only; split
  · rfl
  · split <;> rfl

@[simp] theorem setEvt_stns (s : State) (b : Nat) : (setEvt s b).stns = s.stns := by
  unfold setEvt evtRise; simp only; split <;> simp

@[simp] theorem raiseMisfit_stns (s : State) (u k : Nat) : (raiseMisfit s u k).stns = s.stns := by
  simp [raiseMisfit, addReg]

@[simp] theorem addReg64_stns (s : State) (lo n : Nat) : (addReg64 s lo n).stns = s.stns := by simp [addReg64]

-- the step boundary (R101, R103)

/-- R101 step 2 changes a station's slots and nothing else of it. -/
theorem stn_closeSlots (s : State) (u : Nat) (l : List (Nat × Slot)) :
    stn (closeSlots s u l) u = { stn s u with slots := (stn (closeSlots s u l) u).slots } := by
  induction l generalizing s with
  | nil => rfl
  | cons p l ih =>
    obtain ⟨k, sl⟩ := p
    rw [closeSlots, ih]
    split
    · simp [stn_of_stns (raiseMisfit_stns _ _ _)]
    · simp

/-- The pending writes of R103 change a station's slots and nothing else of it. -/
theorem applyPend_eq_withSlots (x : Station) (l : List (Nat × Nat × Nat)) :
    applyPend x l = { x with slots := (applyPend x l).slots } := by
  induction l generalizing x with
  | nil => rfl
  | cons p l ih =>
    obtain ⟨k, f, v⟩ := p
    rw [applyPend]; split
    · exact ih x
    · rw [ih]

/-- A lone pending write is written to its slot. -/
theorem applyPend_singleton (x : Station) (k f v : Nat) :
    applyPend x [(k, f, v)] = { x with slots := tabMod {} x.slots k (fun sl => slotWrite sl f v) } := rfl

/-- The slots a boundary leaves: those that R101 step 2 closed, with the pending writes (R103). -/
def boundarySlots (s : State) (u : Nat) : Tab Slot :=
  (applyPend { stn (closeSlots s u (stn s u).slots) u with slotPend := [] } (stn s u).slotPend).slots

/-- What a boundary leaves of its station: new slots and their copy, and no write pending or increment left to sum. -/
theorem stn_boundary (s : State) (u : Nat) :
    stn (boundary s u) u = { stn s u with
      slots := boundarySlots s u, slotSnap := boundarySlots s u, slotPend := [], nfDue := 0, satDue := 0 } := by
  have closed := stn_closeSlots s u (stn s u).slots
  have pend : (stn (closeSlots s u (stn s u).slots) u).slotPend = (stn s u).slotPend := by rw [closed]
  simp only [boundary, sumNcu, stn_modStn, if_true, stn_of_stns (addReg64_stns _ _ _), pend]
  rw [applyPend_eq_withSlots, ← boundarySlots, closed]

theorem boundarySlots_hlen {s : State} {u k v : Nat} (lone : (stn s u).slotPend = [(k, 2, v)]) :
    (tabGet {} (boundarySlots s u) k).hlen = v := by
  rw [boundarySlots, lone, applyPend_singleton]
  simp [tabMod, slotWrite]

theorem exec_stepBoundary {s : State} {u t : Nat} (on : engineOn s u = true) (handed : (stn s u).closing = some (t, false))
    (idle : slotInFlight (stn s u) = false) :
    exec (.stepBoundary u) s = .next (modStn (boundary s u) u (fun x => { x with closing := some (t, true) })) := by
  show execStepBoundary u s = _
  simp [execStepBoundary, handed, on, idle]

/-- Settles O12: a close that finds none under way is held at the front of its thread, and its boundary leaves of the station
what `stn_boundary` says. -/
theorem stepCloseIsHeldUntilItsBoundary : Obligations.StepCloseIsHeldUntilItsBoundary := by
  intro s u t
  refine ⟨fun i => stepclose_handed_off, fun on handed idle => ⟨_, exec_stepBoundary on handed idle, ?_⟩⟩
  simp only [stn_modStn, if_true, stn_boundary, true_and, and_true]
  exact fun k v lone => boundarySlots_hlen lone

end Sys2Proof.Machine

/-! PROOFS. The byte RAMs (R110, R117): the cistern and the well, and every operation of the model that leaves both as they
are. One lemma per operation, in the order of the model's files. -/

namespace Sys2Proof.Machine

/-- The byte RAMs of the part: its cistern and its well. -/
def State.rams (s : State) : List Host.Cell × List Host.Cell := (s.cist, s.well)

theorem rams_eq_iff {s t : State} : t.rams = s.rams ↔ t.cist = s.cist ∧ t.well = s.well := Prod.ext_iff

@[simp] theorem rams_ite (c : Prop) [Decidable c] (s t : State) :
    (if c then s else t).rams = if c then s.rams else t.rams := apply_ite State.rams c s t

@[simp] theorem rams_fst_ite {α : Type} (c : Prop) [Decidable c] (p q : State × α) :
    (if c then p else q).1.rams = if c then p.1.rams else q.1.rams := by split <;> rfl

/-- A state given field by field holds the byte RAMs among them; every record update of the model takes this form. -/
@[simp] theorem rams_mk
    (part : Part) (cyc free : Nat) (regs latch : Tab Word) (stns : Tab Station) (resident : Tab Nat) (heldSig : List Signal)
    (cist : List Host.Cell) (cistErr : Tab Mark) (cistWb cistBad : List Nat) (well : List Host.Cell) (wellErr : Tab BeatMark)
    (reread : Option (Nat × Nat × Nat)) (wellBad : List Nat) (rbLen : Tab Nat) (scrubCist scrubWell : Nat) (hops : Tab Hop)
    (arrivals : List Arrival) (dieUp : Nat) (ext : Tab ExtLink) (credits credTurn : Tab Nat) (gov : Gov) (time : TimeB)
    (floats floatLatch : Tab Float8) (sump : Sump) (msix : Msix) (paired held roleNow : Bool) (trainLinks : Nat)
    (orphans : List (Nat × Nat × Nat)) (peerEn : Tab Nat) (qps : Tab QPair) (sess : Tab Sess) (disp : Disp) (text : TextE)
    (ldr : Loader) (fuses : Fuses) (sec : Sec) (dbg : Dbg) (tap : Tap) (wins : Tab Win) (boot : Boot) (pins : Pins) (telem : Telem)
    (out : List OutMsg) (pending : List Instr) :
    (State.mk part cyc free regs latch stns resident heldSig cist cistErr cistWb cistBad well wellErr reread wellBad rbLen
    scrubCist scrubWell hops arrivals dieUp ext credits credTurn gov time floats floatLatch sump msix paired held roleNow
    trainLinks orphans peerEn qps sess disp text ldr fuses sec dbg tap wins boot pins telem out pending).rams = (cist, well) := by
  simp only [State.rams]

@[simp] theorem rams_eta (s : State) : (s.cist, s.well) = s.rams := by simp only [State.rams]

/-- A fold of steps that keep the byte RAMs keeps them. -/
@[simp] theorem rams_foldl {α : Type} (f : State → α → State) (h : ∀ s a, (f s a).rams = s.rams) (l : List α) (s : State) :
    (l.foldl f s).rams = s.rams := by
  induction l generalizing s with
  | nil => rfl
  | cons a l ih => simp [ih, h]

@[simp] theorem rams_fst_foldl {α β : Type} (f : State × β → α → State × β) (h : ∀ p a, (f p a).1.rams = p.1.rams)
    (l : List α) (p : State × β) : (l.foldl f p).1.rams = p.1.rams := by
  induction l generalizing p with
  | nil => rfl
  | cons a l ih => simp [ih, h]

section Operations

variable (s : State) (u t : Nat)

-- Machine/Flags.lean

@[simp] theorem setReg_rams (a v : Nat) : (setReg s a v).rams = s.rams := by simp [setReg]
@[simp] theorem addReg_rams (a n : Nat) : (addReg s a n).rams = s.rams := by simp [addReg]
@[simp] theorem addReg64_rams (lo n : Nat) : (addReg64 s lo n).rams = s.rams := by simp [addReg64]
@[simp] theorem setField_rams (a hi lo v : Nat) : (setField s a hi lo v).rams = s.rams := by simp [setField]
@[simp] theorem sendMsix_rams (v : Nat) : (sendMsix s v).rams = s.rams := by simp [sendMsix]
@[simp] theorem evtRise_rams (old : Nat) : (evtRise s old).rams = s.rams := by simp [evtRise]
@[simp] theorem setEvt_rams (b : Nat) : (setEvt s b).rams = s.rams := by simp [setEvt]
@[simp] theorem pushRec_rams (r : RecIn) : (pushRec s r).rams = s.rams := by simp [pushRec]
@[simp] theorem noteFault_rams : (noteFault s).rams = s.rams := by simp [noteFault]
@[simp] theorem takeFree_rams : (takeFree s).2.rams = s.rams := by simp [takeFree]
@[simp] theorem putFloat_rams (n : Nat) (f : Float8) : (putFloat s n f).rams = s.rams := by simp [putFloat]
@[simp] theorem floatEnd_rams (n : Nat) (ok : Bool) (res : Nat) : (floatEnd s n ok res).rams = s.rams := by simp [floatEnd]
@[simp] theorem floatStart_rams (n op fin : Nat) : (floatStart s n op fin).rams = s.rams := by simp [floatStart]
@[simp] theorem floatPos_rams (n pos : Nat) : (floatPos s n pos).rams = s.rams := by simp [floatPos]
@[simp] theorem floatFin_rams (n fin : Nat) : (floatFin s n fin).rams = s.rams := by simp [floatFin]

@[simp] theorem primeBytes_rams (n : Nat) : (primeBytes s n).rams = s.rams := by
  unfold primeBytes; split <;> simp

-- Machine/Ops.lean

@[simp] theorem setStn_rams (x : Station) : (setStn s u x).rams = s.rams := by simp [setStn]
@[simp] theorem modStn_rams (f : Station → Station) : (modStn s u f).rams = s.rams := by simp [modStn]
@[simp] theorem evBump_rams (e : Nat) : (evBump s u e).rams = s.rams := by simp [evBump]
@[simp] theorem stepEnd_rams : (stepEnd s u t).rams = s.rams := by simp [stepEnd]

@[simp] theorem voidChal_rams : (voidChal s).rams = s.rams := by
  unfold voidChal; split <;> simp

@[simp] theorem cistUeReport_rams (w acc : Nat) : (cistUeReport s w acc).rams = s.rams := by simp [cistUeReport]

@[simp] theorem cistCheck_rams (acc : Nat) (l : List Nat) : (cistCheck s acc l).1.rams = s.rams := by
  induction l generalizing s with
  | nil => rfl
  | cons w t ih => unfold cistCheck; split <;> simp [ih]

@[simp] theorem cistRead_rams (a n acc : Nat) : (cistRead s u a n acc).1.rams = s.rams := by simp [cistRead]
@[simp] theorem rbForget_rams (k n : Nat) : (rbForget s k n).rams = s.rams := by simp [rbForget]
@[simp] theorem wellUeReport_rams (b : Nat) (q : WellAcc) : (wellUeReport s b q).rams = s.rams := by simp [wellUeReport]

@[simp] theorem wellCheck_rams (q : WellAcc) (l : List Nat) : (wellCheck s q l).1.rams = s.rams := by
  induction l generalizing s with
  | nil => rfl
  | cons w t ih =>
    unfold wellCheck; split
    · exact ih s
    · simp [ih]
    · simp [ih]
    · split <;> simp [ih]

@[simp] theorem wellRead_rams (a n : Nat) (q : WellAcc) : (wellRead s a n q).1.rams = s.rams := by simp [wellRead]

@[simp] theorem trfReadWord_rams (w : Nat) : (trfReadWord s u w).rams = s.rams := by
  unfold trfReadWord; split <;> simp

@[simp] theorem tileRead_rams (side : Bool) (r o n : Nat) : (tileRead s u side r o n).1.rams = s.rams := by simp [tileRead]
@[simp] theorem sideReads_rams (r : Nat) (rs : List (Nat × Nat)) : (sideReads s u r rs).rams = s.rams := by simp [sideReads]

@[simp] theorem tileWrite_rams (side : Bool) (r o : Nat) (bs : List Byte) :
    (tileWrite s u side r o bs).rams = s.rams := by simp [tileWrite]

-- Machine/Operands.lean

@[simp] theorem fatalTrap_rams (pc cause : Nat) : (fatalTrap s u t pc cause).rams = s.rams := by simp [fatalTrap]

@[simp] theorem finish_rams (u t : Nat) (i : InFlight) (s : State) (r : Ret) (h : (r.state s).rams = s.rams) :
    (finish u t i s r).rams = s.rams := by
  cases r <;> simp_all [finish]

@[simp] theorem writeS_rams (i : InFlight) (r : Nat) (v : Word) : (writeS s u i r v).rams = s.rams := by simp [writeS]

-- Machine/LeaveOps.lean

@[simp] theorem placeReq_rams (cls requester unit : Nat) (what : Purpose) (units : Tab Nat) :
    (placeReq s cls requester unit what units).1.rams = s.rams := by simp [placeReq]

theorem joinOrPlace_rams {s t : State} {u cls cap id : Nat} {what : Purpose} {units : Tab Nat}
    (h : joinOrPlace s u cls what cap units = some (t, id)) : t.rams = s.rams := by
  unfold joinOrPlace at h; simp only at h
  split at h
  · cases h; simp
  · split at h
    · simp only [Option.some.injEq, Prod.ext_iff] at h
      simp [← h.1]
    · cases h

@[simp] theorem withdraw_rams (f : LReq → Bool) : (withdraw s f).rams = s.rams := by simp [withdraw]
@[simp] theorem creditBack_rams (n : Nat) : (creditBack s n).rams = s.rams := by simp [creditBack]
@[simp] theorem hubSpend_rams (n : Nat) : (hubSpend s n).rams = s.rams := by simp [hubSpend]

@[simp] theorem maintDebit_rams (n : Nat) : (maintDebit s n).rams = s.rams := by
  unfold maintDebit; exact rams_mk ..

-- Machine/Scalar.lean

@[simp] theorem issueFrom_rams : (issueFrom s u t).rams = s.rams := by
  unfold issueFrom; simp only; split <;> simp

@[simp] theorem trapBad_rams : (trapBad s u).rams = s.rams := by
  unfold trapBad; (repeat' split) <;> simp

@[simp] theorem aluBody_rams (f : Word → Word → Word) (i : InFlight) :
    ((aluBody u f s i).state s).rams = s.rams := by simp [aluBody]

@[simp] theorem immBody_rams (f : Word → Word → Word → Word) (i : InFlight) :
    ((immBody u f s i).state s).rams = s.rams := by simp [immBody]

@[simp] theorem jumpTo_rams (pc : Nat) : (jumpTo s u t pc).rams = s.rams := by simp [jumpTo]

@[simp] theorem branchBody_rams (c : Word → Word → Bool) (i : InFlight) :
    ((branchBody u c s i).state s).rams = s.rams := by simp [branchBody]

@[simp] theorem pushCall_rams (i : InFlight) (target : Nat) : (pushCall s u i target).rams = s.rams := by simp [pushCall]

@[simp] theorem callBody_rams (u : Nat) (target : State → InFlight → Nat) (s : State) (i : InFlight) :
    ((callBody u target s i).state s).rams = s.rams := by
  simp [callBody]

@[simp] theorem retBody_rams (i : InFlight) : ((retBody u s i).state s).rams = s.rams := by
  unfold retBody; simp only; split <;> simp

@[simp] theorem endTransient_rams (f : Thread → Thread) : (endTransient s u t f).rams = s.rams := by simp [endTransient]

@[simp] theorem serveFill_rams (i : InFlight) : (serveFill s u t i).rams = s.rams := by
  unfold serveFill; simp only; split <;> simp

@[simp] theorem loadBody_rams (n : Nat) (f : Nat → Word) (i : InFlight) : ((loadBody u n f s i).state s).rams = s.rams := by
  unfold loadBody; simp only; (repeat' split) <;> simp

@[simp] theorem ewaitBody_rams (i : InFlight) : ((ewaitBody u s i).state s).rams = s.rams := by simp [ewaitBody]
@[simp] theorem rsigBody_rams (i : InFlight) : ((rsigBody u s i).state s).rams = s.rams := by simp [rsigBody]
@[simp] theorem parkAt_rams (pc : Nat) : (parkAt s u t pc).rams = s.rams := by simp [parkAt]

@[simp] theorem rdsrBody_rams (i : InFlight) : ((rdsrBody u s i).state s).rams = s.rams := by
  unfold rdsrBody; split <;> simp

-- Machine/Ncu.lean

@[simp] theorem tableRead_rams (a n acc : Nat) (need : Bool) :
    (tableRead s u a n acc need).1.rams = s.rams := by simp [tableRead]

@[simp] theorem readTables_rams (c : Conv) (d0 r j n acc : Nat) : (readTables s u c d0 r j n acc).1.rams = s.rams := by
  unfold readTables; simp only; split <;> simp

@[simp] theorem raiseMisfit_rams (k : Nat) : (raiseMisfit s u k).rams = s.rams := by simp [raiseMisfit]

@[simp] theorem closeSlots_rams (l : List (Nat × Slot)) : (closeSlots s u l).rams = s.rams := by
  induction l generalizing s with
  | nil => rfl
  | cons p t ih => simp [closeSlots, ih]

@[simp] theorem sumNcu_rams : (sumNcu s u).rams = s.rams := by simp [sumNcu]
@[simp] theorem boundary_rams : (boundary s u).rams = s.rams := by simp [boundary]

@[simp] theorem stepcloseBody_rams (i : InFlight) : ((stepcloseBody u s i).state s).rams = s.rams := by
  unfold stepcloseBody; split <;> simp

@[simp] theorem psetwBody_rams (i : InFlight) : ((psetwBody u s i).state s).rams = s.rams := by
  unfold psetwBody; simp only; split <;> simp

@[simp] theorem slotwBody_rams (i : InFlight) : ((slotwBody u s i).state s).rams = s.rams := by simp [slotwBody]

@[simp] theorem slotrBody_rams (i : InFlight) : ((slotrBody u s i).state s).rams = s.rams := by
  unfold slotrBody; split <;> simp

@[simp] theorem ncucntBody_rams (i : InFlight) : ((ncucntBody u s i).state s).rams = s.rams := by
  unfold ncucntBody; split <;> simp

-- Machine/HostOps.lean

@[simp] theorem setQp_rams (n : Nat) (q : QPair) : (setQp s n q).rams = s.rams := by simp [setQp]
@[simp] theorem modQp_rams (n : Nat) (f : QPair → QPair) : (modQp s n f).rams = s.rams := by simp [modQp]
@[simp] theorem setSess_rams (i : Nat) (x : Sess) : (setSess s i x).rams = s.rams := by simp [setSess]
@[simp] theorem modSess_rams (i : Nat) (f : Sess → Sess) : (modSess s i f).rams = s.rams := by simp [modSess]
@[simp] theorem qpError_rams (n cause addr : Nat) : (qpError s n cause addr).rams = s.rams := by simp [qpError]
@[simp] theorem qpMessage_rams (n : Nat) : (qpMessage s n).rams = s.rams := by simp [qpMessage]
@[simp] theorem cqWrite_rams (i : CqItem) : (cqWrite s i).rams = s.rams := by simp [cqWrite]

@[simp] theorem writeItems_rams (l : List CqItem) : (writeItems s l).1.rams = s.rams := by
  induction l generalizing s with
  | nil => rfl
  | cons i t ih => unfold writeItems; split <;> simp [ih]

@[simp] theorem flushSess_rams (sid : Nat) : (flushSess s sid).rams = s.rams := by simp [flushSess]
@[simp] theorem pushOut_rams (sid : Nat) (i : CqItem) : (pushOut s sid i).rams = s.rams := by simp [pushOut]
@[simp] theorem flushQp_rams (n : Nat) : (flushQp s n).rams = s.rams := by simp [flushQp]
@[simp] theorem flushAll_rams (n : Nat) : (flushAll s n).rams = s.rams := by simp [flushAll]
@[simp] theorem done_rams (f : Frame) (reason : Nat) (data : List Byte) : (done s f reason data).rams = s.rams := by simp [done]

@[simp] theorem doneHead_rams (sid reason : Nat) (data : List Byte) : (doneHead s sid reason data).rams = s.rams := by
  unfold doneHead; split <;> simp

@[simp] theorem doneList_rams (reason : Nat) (l : List Frame) : (doneList s reason l).rams = s.rams := by
  induction l generalizing s with
  | nil => rfl
  | cons p t ih => simp [doneList, ih]

@[simp] theorem textOut_rams (sid : Nat) (bs : List Byte) : (textOut s sid bs).rams = s.rams := by simp [textOut]

@[simp] theorem endGen_rams (sid reason stop : Nat) : (endGen s sid reason stop).rams = s.rams := by
  unfold endGen; split <;> simp

@[simp] theorem dropJob_rams (sid qp : Nat) : (dropJob s sid qp).rams = s.rams := by simp [dropJob]
@[simp] theorem freePages_rams (x : Sess) : (freePages s x).rams = s.rams := by simp [freePages]
@[simp] theorem faultSess_rams (sid : Nat) : (faultSess s sid).rams = s.rams := by simp [faultSess]
@[simp] theorem faultAll_rams : (faultAll s).rams = s.rams := by simp [faultAll]
@[simp] theorem dropSess_rams (sid : Nat) : (dropSess s sid).rams = s.rams := by simp [dropSess]
@[simp] theorem abortChains_rams : (abortChains s).rams = s.rams := by simp [abortChains]

-- Machine/LinkOps.lean

@[simp] theorem setHop_rams (h : Nat) (x : Hop) : (setHop s h x).rams = s.rams := by simp [setHop]
@[simp] theorem takeCredit_rams (d e : Nat) : (takeCredit s d e).rams = s.rams := by simp [takeCredit]
@[simp] theorem returnCredit_rams (d e : Nat) : (returnCredit s d e).rams = s.rams := by simp [returnCredit]
@[simp] theorem onWire_rams (h : Nat) (f : Flit) : (onWire s h f).rams = s.rams := by simp [onWire]

@[simp] theorem hopFlush_rams (n : Nat) (s : State) (h : Nat) : (hopFlush n s h).rams = s.rams := by
  induction n generalizing s with
  | zero => rfl
  | succ n ih =>
    unfold hopFlush; simp only; split
    · rfl
    · split <;> simp [ih]

@[simp] theorem hopSend_rams (h : Nat) (fs : List Flit) : (hopSend s h fs).rams = s.rams := by simp [hopSend]
@[simp] theorem hopAck_rams (h a : Nat) : (hopAck s h a).rams = s.rams := by simp [hopAck]

@[simp] theorem sipCredit_rams (q : Sip) : (sipCredit s q).rams = s.rams := by
  unfold sipCredit; split <;> simp

@[simp] theorem clearCredits_rams (l : Nat) : (clearCredits s l).rams = s.rams := by simp [clearCredits]

@[simp] theorem sipOrphan_rams (q : Sip) : (sipOrphan s q).rams = s.rams := by
  unfold sipOrphan; split <;> simp

@[simp] theorem endSips_rams (st : Nat) (f : Sip → Bool) : (endSips u st f s).rams = s.rams := by simp [endSips]
@[simp] theorem failUnit_rams (l : Nat) : (failUnit s l u).rams = s.rams := by simp [failUnit]
@[simp] theorem linkRecord_rams (l h reason : Nat) : (linkRecord s l h reason).rams = s.rams := by simp [linkRecord]
@[simp] theorem clearLink_rams (l : Nat) : (clearLink s l).rams = s.rams := by simp [clearLink]
@[simp] theorem unpair_rams : (unpair s).rams = s.rams := by simp [unpair]
@[simp] theorem trainFail_rams (l res : Nat) : (trainFail s l res).rams = s.rams := by simp [trainFail]
@[simp] theorem putExt_rams (l : Nat) (e : ExtLink) : (putExt s l e).rams = s.rams := by simp [putExt]
@[simp] theorem tellPeer_rams : (tellPeer s).rams = s.rams := by simp [tellPeer]
@[simp] theorem sendCtrl_rams (l code : Nat) (body : List Nat) : (sendCtrl s l code body).rams = s.rams := by simp [sendCtrl]
@[simp] theorem ctrlDown_rams (l reason : Nat) : (ctrlDown s l reason).rams = s.rams := by simp [ctrlDown]

@[simp] theorem linkDownAt_rams (h reason : Nat) (tell : Bool) :
    (linkDownAt s h reason tell).rams = s.rams := by simp [linkDownAt]

@[simp] theorem extDown_rams (l reason : Nat) (tell : Bool) : (extDown s l reason tell).rams = s.rams := by simp [extDown]
@[simp] theorem hopDown_rams (h reason : Nat) : (hopDown s h reason).rams = s.rams := by simp [hopDown]
@[simp] theorem hubSignal_rams (ev : Nat) : (hubSignal s u ev).rams = s.rams := by simp [hubSignal]

-- Machine/Pump.lean

@[simp] theorem modActive_rams (ch : Nat) (f : Active → Active) : (modActive s u ch f).rams = s.rams := by simp [modActive]
@[simp] theorem memSideRead_rams (ch d a n : Nat) : (memSideRead s u ch d a n).1.rams = s.rams := by simp [memSideRead]

@[simp] theorem readSeg_rams (ch d : Nat) (c : Conv) (r j0 j1 : Nat) : (readSeg s u ch d c r j0 j1).1.rams = s.rams := by
  unfold readSeg; simp only; (repeat' split) <;> simp

@[simp] theorem convSeg_rams (ch d : Nat) (c : Conv) (r j0 j1 : Nat) : (convSeg s u ch d c r j0 j1).1.rams = s.rams := by
  unfold convSeg; simp only; (repeat' split) <;> simp

@[simp] theorem convBlock_rams (ch d : Nat) (c : Conv) (l : List (Nat × Nat × Nat)) :
    (convBlock s u ch d c l).1.rams = s.rams := by
  induction l generalizing s with
  | nil => rfl
  | cons p t ih => simp [convBlock, ih]

@[simp] theorem gatherBlock_rams (c : Conv) (os : List ConvOut) : (gatherBlock s u c os).rams = s.rams := by simp [gatherBlock]
@[simp] theorem runBlock_rams (ch : Nat) (a : Active) : (runBlock s u ch a).st.rams = s.rams := by simp [runBlock]
@[simp] theorem creditSpans_rams (ch : Nat) (a : Active) : (creditSpans s u ch a).rams = s.rams := by simp [creditSpans]
@[simp] theorem descEnd_rams (ch : Nat) (a : Active) (st : Nat) : (descEnd s u ch a st).rams = s.rams := by simp [descEnd]

@[simp] theorem pissueBody_rams (i : InFlight) : ((pissueBody u s i).state s).rams = s.rams := by
  unfold pissueBody; simp only; (repeat' split) <;> simp

@[simp] theorem pstatBody_rams (i : InFlight) : ((pstatBody u s i).state s).rams = s.rams := by
  unfold pstatBody; simp only; split <;> simp

@[simp] theorem pcancelBody_rams (i : InFlight) : ((pcancelBody u s i).state s).rams = s.rams := by simp [pcancelBody]

-- Machine/Array.lean

@[simp] theorem readRows_rams (r o n : Nat) : (readRows s u r o n).1.rams = s.rams := by simp [readRows]

@[simp] theorem readOpnd_rams (r : Nat) (f : Fmt) (weight : Bool) (o n : Nat) :
    (readOpnd s u r f weight o n).1.rams = s.rams := by simp [readOpnd]

@[simp] theorem shiftEffect_rams (ma k w bank : Nat) : (shiftEffect s u ma k w bank).rams = s.rams := by
  unfold shiftEffect; split <;> simp

theorem arrComplete_rams {s t : State} {u ma : Nat} {shift : Bool} (h : arrComplete s u ma shift = some t) : t.rams = s.rams := by
  unfold arrComplete at h; simp only at h
  split at h
  · cases h
  · cases h; simp

@[simp] theorem readPair_rams (p : Nat) : (readPair s u p).1.rams = s.rams := by simp [readPair]
@[simp] theorem havocPair_rams (p : Nat) : (havocPair s u p).rams = s.rams := by simp [havocPair]

@[simp] theorem passEffect_rams (ma k w bank : Nat) : (passEffect s u ma k w bank).rams = s.rams := by
  unfold passEffect; simp only; (repeat' split) <;> simp

@[simp] theorem passClaimed_rams (ma k w bank : Nat) : (passClaimed s u ma k w bank).rams = s.rams := by simp [passClaimed]

-- Machine/Vec.lean

@[simp] theorem vecBody_rams (op : SOp) (i : InFlight) : ((vecBody op u s i).state s).rams = s.rams := by
  unfold vecBody; simp only; split
  · rfl
  · split
    · rfl
    · split
      · simp
      · split
        · rfl
        · next joined => simp [joinOrPlace_rams joined]

@[simp] theorem readView_rams (r wd : Nat) : (readView s u r t wd).1.rams = s.rams := by simp [readView]
@[simp] theorem vopEffect_rams (c : VCmd) : (vopEffect s u c).rams = s.rams := by simp [vopEffect]
@[simp] theorem vcmpEffect_rams (c : VCmd) : (vcmpEffect s u c).rams = s.rams := by simp [vcmpEffect]
@[simp] theorem vredEffect_rams (c : VCmd) : (vredEffect s u c).rams = s.rams := by simp [vredEffect]
@[simp] theorem moveEffect_rams (c : VCmd) : (moveEffect s u c).rams = s.rams := by simp [moveEffect]
@[simp] theorem readCvt_rams (r : Nat) (f : Fmt) (n : Nat) : (readCvt s u r f n).1.rams = s.rams := by simp [readCvt]
@[simp] theorem cvtSide_rams (r : Nat) (f : Fmt) (m : Nat) : (cvtSide s u r f m).1.rams = s.rams := by simp [cvtSide]
@[simp] theorem copySide_rams (rs rd m : Nat) (f : Fmt) : (copySide s u rs rd m f).rams = s.rams := by simp [copySide]

@[simp] theorem vcvtEffect_rams (c : VCmd) : (vcvtEffect s u c).rams = s.rams := by
  unfold vcvtEffect; simp only; split <;> simp

@[simp] theorem vecEffect_rams (op : SOp) (c : VCmd) : (vecEffect op s u c).rams = s.rams := by
  unfold vecEffect; split <;> simp

-- Machine/Chain.lean

@[simp] theorem chainBody_rams (i : InFlight) : ((chainBody u s i).state s).rams = s.rams := by
  unfold chainBody; simp only; (repeat' split) <;> simp

@[simp] theorem modChain_rams (f : ChainRec → ChainRec) : (modChain s u t f).rams = s.rams := by simp [modChain]

@[simp] theorem loadList_rams {α : Type} (f : State → Nat → State × Option α) (h : ∀ s i, (f s i).1.rams = s.rams)
    (s : State) (l : List Nat) : (loadList f s l).1.rams = s.rams := by
  induction l generalizing s with
  | nil => rfl
  | cons i t ih => unfold loadList; simp only; split <;> simp [ih, h]

@[simp] theorem loadCodes_rams (f : Fmt) (base d0 : Nat) (i : Nat) :
    (loadCodes u f base d0 s i).1.rams = s.rams := by simp [loadCodes]

@[simp] theorem loadA_rams (r : Nat) (i : Nat) : (loadA u r s i).1.rams = s.rams := by
  unfold loadA; simp only; split <;> simp

@[simp] theorem loadW_rams (r k base d0 : Nat) (i : Nat) : (loadW u r k base d0 s i).1.rams = s.rams := by
  unfold loadW; simp only; split <;> simp

@[simp] theorem loadC_rams (r : Nat) (int : Bool) (i : Nat) : (loadC u r int s i).1.rams = s.rams := by simp [loadC]

@[simp] theorem stageGemm_rams (c : ChainRec) (g : Nat) : (stageGemm s u c g t).1.rams = s.rams := by
  unfold stageGemm; simp only; (repeat' split) <;> simp

@[simp] theorem stageTwo_rams (c : ChainRec) (g : Nat) : (stageTwo s u c g t).1.rams = s.rams := by
  unfold stageTwo; simp only; (repeat' split) <;> simp

@[simp] theorem attnAll_rams (c : ChainRec) (g : Nat) : (attnAll s u c g).1.rams = s.rams := by
  unfold attnAll; simp only; (repeat' split) <;> simp

@[simp] theorem endChain_rams (st : Nat) : (endChain s u t st).rams = s.rams := by simp [endChain]

@[simp] theorem pageRead_rams (c : ChainRec) : (pageRead s u t c).rams = s.rams := by
  unfold pageRead; simp only; (repeat' split) <;> simp

@[simp] theorem stageGather_rams (c : ChainRec) (g : Nat) : (stageGather s u c g t).1.rams = s.rams := by
  unfold stageGather; simp only; (repeat' split) <;> simp

@[simp] theorem loadSlot_rams (r i : Nat) (d : Nat) : (loadSlot u r i s d).1.rams = s.rams := by
  unfold loadSlot; simp only; split <;> simp

@[simp] theorem reduceGroup_rams (c : ChainRec) (g : Nat) : (reduceGroup s u t c g).rams = s.rams := by
  unfold reduceGroup; simp only; split <;> simp

@[simp] theorem stageTile_rams (c : ChainRec) (g ct : Nat) : (stageTile s u t c g ct).1.rams = s.rams := by
  unfold stageTile; simp only; split <;> simp

@[simp] theorem convRows_rams (c : Conv) (d0 j : Nat) (l : List (Nat × List Nat)) : (convRows s u c d0 j l).1.rams = s.rams := by
  induction l generalizing s with
  | nil => rfl
  | cons p t ih => unfold convRows; simp only; split <;> simp [ih]

@[simp] theorem notify_rams (r ev : Nat) : (notify s u t r ev).rams = s.rams := by simp [notify]

@[simp] theorem fillNotes_rams : (fillNotes s u).rams = s.rams := by
  unfold fillNotes; split <;> simp

@[simp] theorem tileDone_rams (c : ChainRec) : (tileDone s u t c).rams = s.rams := by simp [tileDone]
@[simp] theorem havocWindow_rams (c : ChainRec) : (havocWindow s u c).rams = s.rams := by simp [havocWindow]
@[simp] theorem creditChain_rams (c : ChainRec) : (creditChain s u c).rams = s.rams := by simp [creditChain]
@[simp] theorem dropChain_rams : (dropChain s u t).rams = s.rams := by simp [dropChain]

-- Machine/Control.lean

@[simp] theorem idleCycle_rams : (idleCycle s).rams = s.rams := by simp [idleCycle]

@[simp] theorem quiesceLeave_rams : (quiesceLeave s u).rams = s.rams := by
  unfold quiesceLeave; simp only [creditBack_rams]
  rw [rams_foldl _ (fun s c => by simp), rams_foldl _ (fun s p => by split <;> simp)]

@[simp] theorem quiesceUnit_rams : (quiesceUnit s u).rams = s.rams := by simp [quiesceUnit]
@[simp] theorem beginReset_rams (ls : Nat) : (beginReset s ls).rams = s.rams := by simp [beginReset]

@[simp] theorem releaseUnit_rams : (releaseUnit s u).rams = s.rams := by
  unfold releaseUnit; split <;> simp

@[simp] theorem endReset_rams (ls : Nat) : (endReset s ls).rams = s.rams := by simp [endReset]
@[simp] theorem mapDone_rams (ls : Nat) : (mapDone s ls).rams = s.rams := by simp [mapDone]

@[simp] theorem unitOff_rams : (unitOff s u).rams = s.rams := by
  unfold unitOff; rw [rams_foldl _ (fun s t => by split <;> simp)]; simp

@[simp] theorem unitOn_rams : (unitOn s u).rams = s.rams := by simp [unitOn]
@[simp] theorem switchSpend_rams : (switchSpend s).rams = s.rams := by simp [switchSpend]

-- Machine/Rings.lean

@[simp] theorem writeSqTail_rams (n v : Nat) : (writeSqTail n v s).rams = s.rams := by simp [writeSqTail]
@[simp] theorem writeCqHead_rams (n v : Nat) : (writeCqHead n v s).rams = s.rams := by simp [writeCqHead]
@[simp] theorem qpDrop_rams (n : Nat) : (qpDrop s n).rams = s.rams := by simp [qpDrop]
@[simp] theorem writeQpEnable_rams (n v : Nat) : (writeQpEnable n v s).rams = s.rams := by simp [writeQpEnable]
@[simp] theorem writeQpCoal_rams (n v : Nat) : (writeQpCoal n v s).rams = s.rams := by simp [writeQpCoal]
@[simp] theorem msixRelease_rams : (msixRelease s).rams = s.rams := by simp [msixRelease]
@[simp] theorem writeVectorMask_rams (v : Nat) (m : Bool) : (writeVectorMask v m s).rams = s.rams := by simp [writeVectorMask]
@[simp] theorem routeFrame_rams (f : Frame) : (routeFrame s f).rams = s.rams := by simp [routeFrame]
@[simp] theorem retarget_rams : (retarget s).rams = s.rams := by simp [retarget]

-- Machine/Sessions.lean

theorem drbgTake_rams {s : State} {g : Nat × State} (h : drbgTake s = some g) : g.2.rams = s.rams := by
  unfold drbgTake at h
  split at h
  · cases h
  · cases h; simp

@[simp] theorem wakeWork_rams : (wakeWork s).rams = s.rams := by simp [wakeWork]

theorem openFrame_rams {s t : State} {f : Frame} (h : openFrame s f = some t) : t.rams = s.rams := by
  unfold openFrame at h; simp only at h
  split at h
  · cases h; simp
  · split at h
    · cases h; simp
    · split at h
      · cases h; simp
      · split at h
        · simp only [Option.map_eq_some_iff] at h
          obtain ⟨g, hg, rfl⟩ := h
          simpa using drbgTake_rams hg
        · cases h; simp

@[simp] theorem applyConfig_rams (f : Frame) (masks : List (Nat × List Byte)) (stops : List (List Byte)) :
    (applyConfig s f masks stops).rams = s.rams := by simp [applyConfig]

@[simp] theorem configFrame_rams (f : Frame) (p : Option (List Byte)) : (configFrame s f p).rams = s.rams := by
  unfold configFrame; simp only; (repeat' split) <;> simp

@[simp] theorem addTokens_rams (f : Frame) (toks : List Nat) (drop cut : Nat) :
    (addTokens s f toks drop cut).rams = s.rams := by simp [addTokens]

@[simp] theorem appendTokens_rams (f : Frame) (bs : List Byte) : (appendTokens s f bs).rams = s.rams := by simp [appendTokens]
@[simp] theorem startJob_rams (j : TextJob) : (startJob s j).rams = s.rams := by simp [startJob]

@[simp] theorem appendText_rams (f : Frame) (nspans : Nat) (bs : List Byte) (beyond : Nat) :
    (appendText s f nspans bs beyond).rams = s.rams := by simp [appendText]

@[simp] theorem appendTextFrame_rams (f : Frame) (p : Option (List Byte)) : (appendTextFrame s f p).rams = s.rams := by
  unfold appendTextFrame; (repeat' split) <;> simp

@[simp] theorem textReads_rams (l : List Nat) : (textReads s l).1.rams = s.rams := by
  induction l generalizing s with
  | nil => rfl
  | cons w t ih => unfold textReads; split <;> simp [ih]

@[simp] theorem textUe_rams (w sid : Nat) : (textUe s w sid).rams = s.rams := by simp [textUe]
@[simp] theorem textReadsOf_rams (ws : List Nat) : (textReadsOf s ws).1.rams = s.rams := by simp [textReadsOf]

@[simp] theorem textRepair_rams : (textRepair s).rams = s.rams := by
  unfold textRepair; split <;> simp

@[simp] theorem markReady_rams (sid : Nat) : (markReady s sid).rams = s.rams := by simp [markReady]
@[simp] theorem generateFrame_rams (f : Frame) : (generateFrame s f).rams = s.rams := by simp [generateFrame]
@[simp] theorem popUrgent_rams (f : Frame) : (popUrgent s f).rams = s.rams := by simp [popUrgent]
@[simp] theorem cancelFrames_rams (sid reason : Nat) : (cancelFrames s sid reason).1.rams = s.rams := by simp [cancelFrames]

-- Machine/Load.lean

@[simp] theorem setImgStatus_rams (v : Nat) : (setImgStatus s v).rams = s.rams := by simp [setImgStatus]
@[simp] theorem imgIgnored_rams (b : Bool) : (imgIgnored s b).rams = s.rams := by simp [imgIgnored]
@[simp] theorem clearText_rams : (clearText s).rams = s.rams := by simp [clearText]
@[simp] theorem parkAll_rams : (parkAll s).rams = s.rams := by simp [parkAll]
@[simp] theorem fitRegs_rams (modes : List Nat) (pool : Nat) : (fitRegs s modes pool).rams = s.rams := by simp [fitRegs]

@[simp] theorem fitCheck_rams (bs : List Byte) : (fitCheck s bs).rams = s.rams := by
  unfold fitCheck; simp only; split
  · split <;> simp
  · rfl

@[simp] theorem pairFit_rams : (pairFit s).rams = s.rams := by simp [pairFit]
@[simp] theorem loadEnd_rams (bs : List Byte) : (loadEnd s bs).rams = s.rams := by simp [loadEnd]

-- Machine/Steps.lean

@[simp] theorem hubRead_rams (a : Nat) : (hubRead s u a).1.rams = s.rams := by simp [hubRead]
@[simp] theorem readReports_rams (us : List Nat) (no : Nat) : (readReports s us no).rams = s.rams := by simp [readReports]
@[simp] theorem primeReads_rams : (primeReads s).rams = s.rams := by simp [primeReads]
@[simp] theorem resetAll_rams : (resetAll s).rams = s.rams := by simp [resetAll]
@[simp] theorem timeoutRec_rams (no : Nat) (f : Nat → Bool) : (timeoutRec s no f).rams = s.rams := by simp [timeoutRec]

theorem allocPage_rams {s t : State} {sid p : Nat} (h : allocPage s sid p = some t) : t.rams = s.rams := by
  unfold allocPage at h; simp only at h
  split at h
  · cases h; rfl
  · simp only [Option.ite_none_left_eq_some, Option.some.injEq] at h
    obtain ⟨-, rfl⟩ := h; simp

@[simp] theorem decodeRow_rams (b : Build) (sid r : Nat) : (decodeRow b sid r).1.rams = b.1.rams := by
  unfold decodeRow; simp only; split
  · rfl
  · split
    · rename_i h; exact allocPage_rams h
    · simp

@[simp] theorem joinRow_rams (cap : Nat) (b : Build) (sid : Nat) : (joinRow cap b sid).1.rams = b.1.rams := by
  unfold joinRow; simp only; split
  · rfl
  · split <;> simp

@[simp] theorem prefill_rams (b : Build) (gs sids : List Nat) : (prefill b gs sids).1.rams = b.1.rams := by
  induction b, gs, sids using prefill.induct with
  | case1 | case2 => simp [prefill]
  | case3 b g gs sid t x s h ih => rw [prefill]; simp only [x] at h; simp [h, ih, allocPage_rams h]
  | case4 b g gs sid t x h hg ih => rw [prefill]; simp only [x] at h hg; simp [h, hg, ih]
  | case5 b g gs sid t x h hg ih => rw [prefill]; simp only [x] at h hg; simp [h, hg, ih]

@[simp] theorem buildStep_rams : (buildStep s).1.rams = s.rams := by simp [buildStep]

@[simp] theorem startStep_rams (no : Nat) (rows : List RowRec) (sec : Bool) :
    (startStep s no rows sec).rams = s.rams := by simp [startStep]

@[simp] theorem readOuts_rams (no : Nat) (rows : List Nat) : (readOuts s no rows).1.rams = s.rams := by
  unfold readOuts
  rw [rams_fst_foldl _ (fun q r => by split <;> simp)]

@[simp] theorem standpipe_rams (sid : Nat) : (standpipe s sid t).rams = s.rams := by
  unfold standpipe; simp only; (repeat' split) <;> simp

@[simp] theorem endByLength_rams (sid : Nat) : (endByLength s sid).rams = s.rams := by
  unfold endByLength; simp only; split <;> simp

@[simp] theorem decoded_rams (sid pos out : Nat) : (decoded s sid pos out).rams = s.rams := by
  unfold decoded; simp only; (repeat' split) <;> simp

@[simp] theorem finishRow_rams (own peer : Tab Nat) (s0 s : State) (r : RowRec) :
    (finishRow own peer s0 s r).rams = s.rams := by
  simp [finishRow]

@[simp] theorem stepFault_rams (st : StepRec) (told : Bool) : (stepFault s st told).rams = s.rams := by simp [stepFault]

-- Machine/Memory.lean

@[simp] theorem scrubFloat_rams (n op pos total cnt : Nat) :
    (scrubFloat s n op pos total cnt).rams = s.rams := by simp [scrubFloat]

@[simp] theorem scrubWord_rams (w : Nat) : (scrubWord s w).rams = s.rams := by
  unfold scrubWord; split <;> simp

-- Machine/Links.lean

@[simp] theorem dropArrival_rams (n : Nat) : (dropArrival s n).rams = s.rams := by simp [dropArrival]
@[simp] theorem applySignal_rams (v ev : Nat) : (applySignal s v ev).rams = s.rams := by simp [applySignal]
@[simp] theorem modSip_rams (req : Nat) (f : Sip → Sip) : (modSip s u req f).rams = s.rams := by simp [modSip]

@[simp] theorem landedAt_rams (req st : Nat) : (landedAt s u req st).rams = s.rams := by
  unfold landedAt; (repeat' split) <;> simp

@[simp] theorem forward_rams (fs : List Flit) : (forward s fs).rams = s.rams := by
  unfold forward; (repeat' split) <;> simp

@[simp] theorem arrive_rams (h die : Nat) (f : Flit) (w : ArrKind) : (arrive s h die f w).rams = s.rams := by simp [arrive]
@[simp] theorem trainStart_rams (l : Nat) : (trainStart s l).rams = s.rams := by simp [trainStart]
@[simp] theorem trainLinks_rams (mask : Nat) : (trainLinks s mask).rams = s.rams := by simp [trainLinks]
@[simp] theorem trainDone_rams : (trainDone s).rams = s.rams := by simp [trainDone]

@[simp] theorem extUp_rams (l : Nat) (maps : List Nat) : (extUp s l maps).rams = s.rams := by
  unfold extUp; simp only; split <;> simp

@[simp] theorem pairCheck_rams (l peerRole variant : Nat) (maps : List Nat) :
    (pairCheck s l peerRole variant maps).rams = s.rams := by
  unfold pairCheck; (repeat' split) <;> simp

@[simp] theorem peerDown_rams (l reason : Nat) : (peerDown s l reason).rams = s.rams := by simp [peerDown]
@[simp] theorem ctrlEffect_rams (l : Nat) (f : Flit) : (ctrlEffect s l f).rams = s.rams := by simp [ctrlEffect]

@[simp] theorem deliver_rams (h : Nat) (f : Flit) : (deliver s h f).rams = s.rams := by
  unfold deliver; simp only; (repeat' split) <;> simp

@[simp] theorem sendNak_rams (h : Nat) : (sendNak s h).rams = s.rams := by simp [sendNak]
@[simp] theorem popWire_rams (h : Nat) : (popWire s h).rams = s.rams := by simp [popWire]
@[simp] theorem receive_rams (h : Nat) (f : Flit) (good : Bool) : (receive s h f good).rams = s.rams := by simp [receive]
@[simp] theorem fecCount_rams (h corr uncorr : Nat) : (fecCount s h corr uncorr).rams = s.rams := by simp [fecCount]
@[simp] theorem replay_rams (h k : Nat) : (replay s h k).rams = s.rams := by simp [replay]
@[simp] theorem acceptNext_rams (l : Nat) : (acceptNext s l).rams = s.rams := by simp [acceptNext]
@[simp] theorem extDisable_rams (l : Nat) : (extDisable s l).rams = s.rams := by simp [extDisable]

-- Machine/Power.lean

@[simp] theorem markStarved_rams : (markStarved s).rams = s.rams := by simp [markStarved]
@[simp] theorem calibrate_rams : (calibrate s).rams = s.rams := by simp [calibrate]
@[simp] theorem windowClose_rams : (windowClose s).rams = s.rams := by simp [windowClose]
@[simp] theorem windowOpen_rams : (windowOpen s).rams = s.rams := by simp [windowOpen]

theorem reqSpan_rams {s t : State} {u ch : Nat} (h : reqSpan s u ch = some t) : t.rams = s.rams := by
  unfold reqSpan at h; simp only at h
  split at h
  · split at h
    · cases h
    · cases h; simp
  · cases h

theorem reqTile_rams {s t : State} {u req : Nat} {what : Purpose} (h : reqTile s u req what = some t) :
    t.rams = s.rams := by
  unfold reqTile at h; simp only at h
  split at h
  · split at h
    · cases h
    · split at h
      · cases h
      · cases h; simp
  · cases h

theorem reqChain_rams {s t' : State} {u t cls : Nat} (h : reqChain s u t cls = some t') : t'.rams = s.rams := by
  unfold reqChain at h; split at h
  · simp only [Option.ite_none_left_eq_some, Option.some.injEq] at h
    obtain ⟨-, rfl⟩ := h; simp
  · cases h

@[simp] theorem grantTo_rams (q : LReq) (cost : Nat) (eco : Bool) : (grantTo s q cost eco).rams = s.rams := by
  unfold grantTo; (repeat' split) <;> simp

@[simp] theorem grant_rams (q : LReq) : (grant s q).rams = s.rams := by simp [grant]

-- Machine/Time.lean

@[simp] theorem servoGo_rams (t : Servo) : (servoGo s t).rams = s.rams := by simp [servoGo]
@[simp] theorem timeStep_rams (th : Int) : (timeStep s th).rams = s.rams := by simp [timeStep]
@[simp] theorem timeSlew_rams (th : Int) : (timeSlew s th).rams = s.rams := by simp [timeSlew]

@[simp] theorem measure_rams (th : Int) : (measure s th).rams = s.rams := by
  unfold measure; simp only; (repeat' split) <;> simp

@[simp] theorem writeTimeCtl_rams (v : Nat) : (writeTimeCtl v s).rams = s.rams := by simp [writeTimeCtl]
@[simp] theorem writeTodHi_rams (v : Nat) : (writeTodHi v s).rams = s.rams := by simp [writeTodHi]
@[simp] theorem sumpEnter_rams (r : RecIn) : (sumpEnter s r).rams = s.rams := by simp [sumpEnter]
@[simp] theorem sumpDrain_rams : (sumpDrain s).rams = s.rams := by simp [sumpDrain]
@[simp] theorem writeEvtMask_rams (v : Nat) : (writeEvtMask v s).rams = s.rams := by simp [writeEvtMask]

-- Machine/Reset.lean

@[simp] theorem setStage_rams (n : Nat) : (setStage s n).rams = s.rams := by simp [setStage]

@[simp] theorem restartZero_rams : (restartZero s).rams = s.rams := by
  unfold restartZero; split <;> simp

@[simp] theorem stationsReset_rams : (stationsReset s).rams = s.rams := by simp [stationsReset]

@[simp] theorem resetWords_rams (ranges : List (Nat × Nat)) (keep : List Nat) :
    (resetWords s ranges keep).rams = s.rams := by simp [resetWords]

@[simp] theorem tapEndScan_rams : (tapEndScan s).rams = s.rams := by simp [tapEndScan]
@[simp] theorem debugReset_rams : (debugReset s).rams = s.rams := by simp [debugReset]
@[simp] theorem ctrlScrub_rams : (ctrlScrub s).rams = s.rams := by simp [ctrlScrub]
@[simp] theorem writeStnReset_rams (v : Nat) : (writeStnReset v s).rams = s.rams := by simp [writeStnReset]

-- Machine/Boot.lean

@[simp] theorem vidGo_rams (p : PState) : (vidGo s p).rams = s.rams := by simp [vidGo]
@[simp] theorem fwAuth_rams (src : Nat) (bytes : List Byte) : (fwAuth s src bytes).rams = s.rams := by simp [fwAuth]
@[simp] theorem bootFail_rams (code : Nat) : (bootFail s code).rams = s.rams := by simp [bootFail]
@[simp] theorem bootReady_rams : (bootReady s).rams = s.rams := by simp [bootReady]

-- Machine/Security.lean

@[simp] theorem unlockRec_rams (level old slot cnt : Nat) (jtag : Bool) :
    (unlockRec s level old slot cnt jtag).rams = s.rams := by simp [unlockRec]

@[simp] theorem setDbgStatus_rams (v : Nat) : (setDbgStatus s v).rams = s.rams := by simp [setDbgStatus]
@[simp] theorem unlockDone_rams (u : Unlock) : (unlockDone s u).rams = s.rams := by simp [unlockDone]
@[simp] theorem zeroSess_rams (sid : Nat) : (zeroSess s sid).rams = s.rams := by simp [zeroSess]
@[simp] theorem zeroLoad_rams : (zeroLoad s).rams = s.rams := by simp [zeroLoad]
@[simp] theorem zeroBegin_rams (z : Zero) : (zeroBegin s z).rams = s.rams := by simp [zeroBegin]
@[simp] theorem startZero_rams (kind cause : Nat) : (startZero s kind cause).rams = s.rams := by simp [startZero]
@[simp] theorem askZero_rams (cause : Nat) : (askZero s cause).rams = s.rams := by simp [askZero]
@[simp] theorem writeZeroize_rams (v : Nat) : (writeZeroize v s).rams = s.rams := by simp [writeZeroize]
@[simp] theorem writeLcReq_rams (v : Nat) : (writeLcReq v s).rams = s.rams := by simp [writeLcReq]
@[simp] theorem makeReport_rams (gen : Nat) : (makeReport s gen).rams = s.rams := by simp [makeReport]
@[simp] theorem makeChal_rams (gen level : Nat) (jtag : Bool) : (makeChal s gen level jtag).rams = s.rams := by simp [makeChal]

@[simp] theorem drbgServe_rams (w : Option (Nat × Bool)) : (drbgServe s w).rams = s.rams := by
  unfold drbgServe; split
  · simp
  · rename_i h; split <;> simpa using drbgTake_rams h

@[simp] theorem reseed_rams : (reseed s).rams = s.rams := by simp [reseed]
@[simp] theorem writeAttestCtl_rams (v : Nat) : (writeAttestCtl v s).rams = s.rams := by simp [writeAttestCtl]
@[simp] theorem grantUnlock_rams (u : Unlock) : (grantUnlock s u).rams = s.rams := by simp [grantUnlock]

@[simp] theorem respond_rams : (respond s).rams = s.rams := by
  unfold respond; (repeat' split) <;> simp

-- Machine/PState.lean

@[simp] theorem creditUnit_rams (x : Station) : (creditUnit s u x).rams = s.rams := by
  unfold creditUnit; simp only [setStn_rams, creditBack_rams]
  exact rams_foldl _ (fun s p => by split <;> simp) _ _

@[simp] theorem creditAll_rams : (creditAll s).rams = s.rams := by simp [creditAll]

@[simp] theorem floatsOff_rams : (floatsOff s).rams = s.rams := by
  unfold floatsOff; rw [rams_foldl _ (fun s n => by (repeat' split) <;> simp)]

@[simp] theorem storeTemps_rams (dieT stackT : List Nat) : (storeTemps s dieT stackT).rams = s.rams := by simp [storeTemps]
@[simp] theorem thermalStop_rams : (thermalStop s).1.rams = s.rams := by simp [thermalStop]

@[simp] theorem stackStop_rams (q : State × List ThermNote) (k t : Nat) : (stackStop q k t).1.rams = q.1.rams := by
  unfold stackStop; simp only; split
  · split <;> simp
  · split <;> simp

@[simp] theorem thermRec_rams (n : ThermNote) : (thermRec s n).rams = s.rams := by simp [thermRec]

@[simp] theorem writePwrCtl_rams (v : Nat) : (writePwrCtl v s).rams = s.rams := by
  unfold writePwrCtl; simp only; split <;> simp

@[simp] theorem vidFit_rams (p : PState) : (vidFit s p).rams = s.rams := by simp [vidFit]
@[simp] theorem moveTo_rams (p : PState) (auto : Bool) : (moveTo s p auto).rams = s.rams := by simp [moveTo]
@[simp] theorem standbyLink_rams (l : Nat) : (standbyLink s l).rams = s.rams := by simp [standbyLink]

@[simp] theorem leaveP3_rams (p : PState) : (leaveP3 s p).rams = s.rams := by
  unfold leaveP3; simp only; split <;> simp

-- Machine/Debug.lean

@[simp] theorem cmdEnd_rams (code : Nat) : (cmdEnd s code).rams = s.rams := by simp [cmdEnd]
@[simp] theorem putData_rams (ws : List Nat) : (putData s ws).rams = s.rams := by simp [putData]
@[simp] theorem putBytes_rams (bs : List Byte) : (putBytes s bs).rams = s.rams := by simp [putBytes]

@[simp] theorem takeCmd_rams (s : State) (w level : Nat) (station power : Bool) (go : State → Nat → State)
    (h : ∀ s u, (go s u).rams = s.rams) : (takeCmd s w level station power go).rams = s.rams := by
  unfold takeCmd; simp only; (repeat' split) <;> simp [h]

@[simp] theorem dbgReadThread_rams (w : Nat) : (dbgReadThread w s).rams = s.rams := by simp [dbgReadThread]
@[simp] theorem dbgReadEvents_rams (w : Nat) : (dbgReadEvents w s).rams = s.rams := by simp [dbgReadEvents]
@[simp] theorem dbgReadPump_rams (w : Nat) : (dbgReadPump w s).rams = s.rams := by simp [dbgReadPump]
@[simp] theorem dbgHalt_rams (w : Nat) : (dbgHalt w s).rams = s.rams := by simp [dbgHalt]
@[simp] theorem dbgResume_rams (w : Nat) : (dbgResume w s).rams = s.rams := by simp [dbgResume]
@[simp] theorem dbgStep_rams (w : Nat) : (dbgStep w s).rams = s.rams := by simp [dbgStep]
@[simp] theorem dbgBrk_rams (arm : Bool) (w : Nat) : (dbgBrk arm w s).rams = s.rams := by simp [dbgBrk]
@[simp] theorem dbgReadScalar_rams (w : Nat) : (dbgReadScalar w s).rams = s.rams := by simp [dbgReadScalar]
@[simp] theorem dbgWriteScalar_rams (w : Nat) : (dbgWriteScalar w s).rams = s.rams := by simp [dbgWriteScalar]
@[simp] theorem tileGet_rams (a : Nat) : (tileGet s u a).1.rams = s.rams := by simp [tileGet]
@[simp] theorem tilePut_rams (a : Nat) (bs : List Byte) : (tilePut s u a bs).rams = s.rams := by simp [tilePut]
@[simp] theorem dbgReadTile_rams (w : Nat) : (dbgReadTile w s).rams = s.rams := by simp [dbgReadTile]
@[simp] theorem dbgWriteTile_rams (w : Nat) : (dbgWriteTile w s).rams = s.rams := by simp [dbgWriteTile]
@[simp] theorem notStep_rams (s t : State) : (notStep s t).rams = t.rams := by simp [notStep]

@[simp] theorem pmRead_rams (a : Nat) : (pmRead s u a).1.rams = s.rams := by
  unfold pmRead; split <;> simp

@[simp] theorem pmReads_rams (a n : Nat) : (pmReads s u a n).1.rams = s.rams := by simp [pmReads]
@[simp] theorem textUeFree_rams (w : Nat) : (textUeFree s w).rams = s.rams := by simp [textUeFree]

@[simp] theorem textRead_rams (a n : Nat) : (textRead s a n).1.rams = s.rams := by
  unfold textRead; simp only; split <;> simp

@[simp] theorem textPiece_rams (a : Nat) (bs : List Byte) : (textPiece s a bs).1.rams = s.rams := by
  unfold textPiece; simp only; (repeat' split) <;> simp

@[simp] theorem textWrite_rams (a : Nat) (bs : List Byte) : (textWrite s a bs).1.rams = s.rams := by simp [textWrite]

-- Machine/Access.lean

@[simp] theorem setWin_rams (p : Nat) (w : Win) : (setWin s p w).rams = s.rams := by simp [setWin]
@[simp] theorem writeWinTable_rams (p v : Nat) : (writeWinTable p v s).rams = s.rams := by simp [writeWinTable]
@[simp] theorem writeWinIndex_rams (p v : Nat) : (writeWinIndex p v s).rams = s.rams := by simp [writeWinIndex]

@[simp] theorem readWinData_rams (p : Nat) : (readWinData p s).1.rams = s.rams := by
  unfold readWinData; simp only; (repeat' split) <;> simp

theorem tableWrite_rams {s t : State} {tb k v : Nat} (h : tableWrite s tb k v = some t) : t.rams = s.rams := by
  unfold tableWrite at h; simp only at h
  split at h
  · split at h <;> cases h; simp
  · split at h <;> cases h; simp
  · split at h <;> cases h; simp
  · cases h; simp
  · split at h <;> cases h; simp
  · cases h

@[simp] theorem writeWinData_rams (p v : Nat) : (writeWinData p v s).rams = s.rams := by
  unfold writeWinData; simp only; split
  · simp
  · split
    · rename_i h; simpa using tableWrite_rams h
    · simp

@[simp] theorem setLatch_rams (a v : Nat) : (setLatch s a v).rams = s.rams := by simp [setLatch]
@[simp] theorem readEffect_rams (a : Nat) : (readEffect s a).rams = s.rams := by simp [readEffect]
@[simp] theorem readReg_rams (path a : Nat) : (readReg path a s).1.rams = s.rams := by simp [readReg]
@[simp] theorem readOut_rams (path a : Nat) : (readOut path a s).rams = s.rams := by simp [readOut]
@[simp] theorem readBar0_rams (o : Nat) : (readBar0 o s).1.rams = s.rams := by simp [readBar0]
@[simp] theorem readBar2_rams (o : Nat) : (readBar2 o s).1.rams = s.rams := by simp [readBar2]
@[simp] theorem unsupportedReq_rams : (unsupportedReq s).rams = s.rams := by simp [unsupportedReq]

@[simp] theorem readSpace_rams (path a : Nat) : (readSpace path a s).1.rams = s.rams := by
  unfold readSpace; split <;> simp

@[simp] theorem writeW1c_rams (a v : Nat) : (writeW1c a v s).rams = s.rams := by simp [writeW1c]

@[simp] theorem writeQpWord_rams (n k v : Nat) : (writeQpWord n k v s).rams = s.rams := by
  unfold writeQpWord; split <;> simp

@[simp] theorem writeMsixWord_rams (e k v : Nat) : (writeMsixWord e k v s).rams = s.rams := by
  unfold writeMsixWord; split <;> simp

@[simp] theorem writeConfig_rams (k v : Nat) : (writeConfig k v s).rams = s.rams := by
  unfold writeConfig; split <;> simp

@[simp] theorem writeBar2_rams (o v : Nat) : (writeBar2 o v s).rams = s.rams := by simp [writeBar2]

-- Machine/Port.lean

@[simp] theorem portCount_rams (st : Nat) : (portCount s st).rams = s.rams := by simp [portCount]
@[simp] theorem burstRead_rams (c a : Nat) : (burstRead s c a).1.rams = s.rams := by simp [burstRead]
@[simp] theorem answer_rams (bs : List Byte) : (answer s bs).rams = s.rams := by simp [answer]
@[simp] theorem readFrame_rams (bs : List Byte) : (readFrame s bs).rams = s.rams := by simp [readFrame]
@[simp] theorem tapSelect_rams (code : Nat) (ok : Bool) : (tapSelect s code ok).rams = s.rams := by simp [tapSelect]
@[simp] theorem tapOut_rams (n v : Nat) : (tapOut s n v).rams = s.rams := by simp [tapOut]
@[simp] theorem stopExt_rams (l : Nat) : (stopExt s l).rams = s.rams := by simp [stopExt]
@[simp] theorem scanSelect_rams (code : Nat) : (scanSelect s code).rams = s.rams := by simp [scanSelect]

@[simp] theorem enabled_rams (s : State) (o : Option State) (h : ∀ t, o = some t → t.rams = s.rams) :
    (nextOr s (enabled s o)).rams = s.rams := by
  cases o <;> simp_all [enabled]

@[simp] theorem retire_rams (op : SOp) (body : State → InFlight → Ret) (u t : Nat) (s : State)
    (h : ∀ i, ((body s i).state s).rams = s.rams) : (nextOr s (retire op body u t s)).rams = s.rams := by
  unfold retire; split
  · simp
  · split <;> simp [h]

end Operations

end Sys2Proof.Machine

/-! PROOFS. The canonical form of the byte RAMs: every operation that writes one of them, or empties it, leaves both in it. -/

namespace Sys2Proof.Machine

/-- Both byte RAMs are in their canonical form. -/
def Canonical (m : List Host.Cell × List Host.Cell) : Prop := tabWf 0 m.1 = true ∧ tabWf 0 m.2 = true

theorem memWf_iff_canonical (s : State) : memWf s = true ↔ Canonical s.rams := by
  rw [memWf, Bool.and_eq_true]; rfl

@[simp] theorem canonical_nil : Canonical ([], []) := ⟨rfl, rfl⟩

@[simp] theorem canonical_ite (c : Prop) [Decidable c] (m n : List Host.Cell × List Host.Cell) :
    Canonical (if c then m else n) ↔ if c then Canonical m else Canonical n := by split <;> rfl

theorem canonical_of_ite {c : Prop} [Decidable c] {s t : State} (hs : Canonical s.rams) (ht : Canonical t.rams) :
    Canonical (if c then s else t).rams := by split <;> assumption

/-- A fold of steps that keep the byte RAMs canonical keeps them canonical. -/
@[simp] theorem canonical_foldl {α : Type} (f : State → α → State) (hf : ∀ s a, Canonical s.rams → Canonical (f s a).rams)
    (l : List α) (s : State) (h : Canonical s.rams) : Canonical (l.foldl f s).rams := by
  induction l generalizing s with
  | nil => exact h
  | cons a l ih => exact ih _ (hf s a h)

-- the writes of the model

@[simp] theorem canonical_memWrite_cist {s : State} (h : Canonical s.rams) (a : Nat) (bs : List Byte) :
    Canonical (memWrite s.cist a bs, s.well) := ⟨memWrite_wf _ _ _ h.1, h.2⟩

@[simp] theorem canonical_memWrite_well {s : State} (h : Canonical s.rams) (a : Nat) (bs : List Byte) :
    Canonical (s.cist, memWrite s.well a bs) := ⟨h.1, memWrite_wf _ _ _ h.2⟩

@[simp] theorem canonical_memClear_well {s : State} (h : Canonical s.rams) (a n : Nat) :
    Canonical (s.cist, memClear s.well a n) := ⟨h.1, memClear_wf _ _ _ h.2⟩

section Operations

variable (s : State) (u t : Nat)

-- Machine/Ops.lean

@[simp] theorem cistWrite_canonical (a : Nat) (bs : List Byte) (h : Canonical s.rams) :
    Canonical (cistWrite s u a bs).1.rams := by
  rw [← memWf_iff_canonical] at h ⊢; exact memWf_cistWrite s u a bs h

@[simp] theorem wellWrite_canonical (a : Nat) (bs : List Byte) (q : WellAcc) (h : Canonical s.rams) :
    Canonical (wellWrite s a bs q).1.rams := by
  rw [← memWf_iff_canonical] at h ⊢; exact memWf_wellWrite s a bs q h

-- Machine/ChainFields.lean

@[simp] theorem spoilBytes_canonical (v a n g : Nat) (f : Nat → Bool) (h : Canonical s.rams) :
    Canonical (spoilBytes s v a n g f).rams := by
  refine ⟨List.foldlRecOn (motive := fun m => tabWf 0 m = true) _ _ h.1 fun m hm k _ => ?_, h.2⟩
  split
  · exact memWrite_wf _ _ _ hm
  · exact hm

@[simp] theorem chainTouch_canonical (v a n : Nat) (h : Canonical s.rams) :
    Canonical (chainTouch s u v a n).rams := by
  unfold chainTouch; simp only; split
  · exact h
  · exact canonical_foldl _ (fun s c hs => by simp [hs]) _ _ (by simp [h])

-- Machine/Scalar.lean

@[simp] theorem serveSpill_canonical (i : InFlight) (h : Canonical s.rams) :
    Canonical (serveSpill s u t i).rams := by simp [serveSpill, h]

@[simp] theorem storeBody_canonical (n : Nat) (i : InFlight) (h : Canonical s.rams) :
    Canonical ((storeBody u n s i).state s).rams := by simp [storeBody, h]

-- Machine/LinkOps.lean

@[simp] theorem landRows_canonical (s : State) (t : Tile) (a : Int) (l : List (List Byte)) (h : Canonical s.rams) :
    Canonical (landRows s t a l).1.rams := by
  induction l generalizing s a with
  | nil => exact h
  | cons b rest ih => simp [landRows, ih, h]

@[simp] theorem landScales_canonical (s : State) (v : Nat) (l : List (Nat × Nat)) (bs : List Byte) (h : Canonical s.rams) :
    Canonical (landScales s v l bs).1.rams := by
  induction l generalizing s bs with
  | nil => exact h
  | cons p rest ih => simp [landScales, ih, h]

@[simp] theorem landTile_canonical (t : Tile) (h : Canonical s.rams) :
    Canonical (landTile s t).1.rams := by simp [landTile, h]

-- Machine/Pump.lean

@[simp] theorem writeMem_canonical (ch d : Nat) (c : Conv) (hav : Option Nat) (g : SegOut) (h : Canonical s.rams) :
    Canonical (writeMem s u ch d c hav g).1.rams := by simp [writeMem, h]

@[simp] theorem writeSeg_canonical (ch d : Nat) (c : Conv) (hav : Option Nat) (g : SegOut) (h : Canonical s.rams) :
    Canonical (writeSeg s u ch d c hav g).1.rams := by simp [writeSeg, h]

@[simp] theorem writeBlock_canonical (ch d : Nat) (c : Conv) (hav : Option Nat) (l : List SegOut) (h : Canonical s.rams) :
    Canonical (writeBlock s u ch d c hav l).1.rams := by
  induction l generalizing s with
  | nil => exact h
  | cons p t ih => simp [writeBlock, ih, h]

theorem mixCells_wf (g en : Nat) {old : List Host.Cell} (new : List Host.Cell) (h : tabWf 0 old = true) :
    tabWf 0 (mixCells g en old new) = true := by
  refine List.foldlRecOn (motive := fun m => tabWf 0 m = true) _ _ h fun m hm a _ => ?_
  simp only; split
  · exact hm
  · exact memWrite_wf _ _ _ hm

/-- Of a block that ends early each byte is as it was, as it would be, or a mixture (R141); either way the form stands. -/
@[simp] theorem partBlock_canonical (ch d : Nat) (c : Conv) (hav : Option Nat) (qs : List (SegOut × ConvOut))
    (h : Canonical s.rams) :
    Canonical (partBlock s u ch d c hav qs).rams := by
  unfold partBlock; simp only; (repeat' split)
  case isFalse => exact ⟨mixCells_wf _ _ _ h.1, mixCells_wf _ _ _ h.2⟩
  all_goals simp [h]

@[simp] theorem pumpBlock_canonical (ch : Nat) (a : Active) (h : Canonical s.rams) :
    Canonical (pumpBlock s u ch a).rams := by simp [pumpBlock, h]

@[simp] theorem cutBlock_canonical (ch : Nat) (a : Active) (h : Canonical s.rams) :
    Canonical (cutBlock s u ch a).rams := by simp [cutBlock, h]

-- Machine/Array.lean

@[simp] theorem spoilOutput_canonical (g : Nat) (c : ChainRec) (h : Canonical s.rams) :
    Canonical (spoilOutput s u g c).rams := by
  unfold spoilOutput; (repeat' split)
  · simpa using h
  · exact h
  · exact canonical_foldl _ (fun s p hs => by simp [hs]) _ _ h

@[simp] theorem breakChains_canonical (ma : Nat) (h : Canonical s.rams) :
    Canonical (breakChains s u ma).rams := by
  unfold breakChains; simp only; split
  · exact h
  · exact canonical_foldl _ (fun s c hs => by simp [hs]) _ _ (by simp [h])

@[simp] theorem handOff_canonical (ma : Nat) (f : Arr → Arr) (c : ACmd) (h : Canonical s.rams) :
    Canonical (handOff s u ma f c).rams := by simp [handOff, h]

@[simp] theorem mshiftBody_canonical (i : InFlight) (h : Canonical s.rams) :
    Canonical ((mshiftBody u s i).state s).rams := by
  unfold mshiftBody; simp only; split
  · exact h
  · split
    · exact h
    · split
      · exact h
      · split
        · exact h
        · next joined => simp [joinOrPlace_rams joined, h]

@[simp] theorem mpassBody_canonical (i : InFlight) (h : Canonical s.rams) :
    Canonical ((mpassBody u s i).state s).rams := by
  unfold mpassBody; simp only; split
  · exact h
  · split
    · exact h
    · split
      · exact h
      · split
        · exact h
        · next joined => simp [joinOrPlace_rams joined, h]

-- Machine/Chain.lean

@[simp] theorem writeOut_canonical (v : Nat) (broken : Option Nat) (l : List (Nat × List Byte)) (h : Canonical s.rams) :
    Canonical (writeOut s v broken l).1.rams := by
  induction l generalizing s with
  | nil => exact h
  | cons p t ih => simp [writeOut, ih, h]

@[simp] theorem partialTile_canonical (c : ChainRec) (h : Canonical s.rams) :
    Canonical (partialTile s u t c).rams := by
  unfold partialTile; simp only; (repeat' split) <;> simp [h]

@[simp] theorem outputTile_canonical (c : ChainRec) (h : Canonical s.rams) :
    Canonical (outputTile s u t c).rams := by
  unfold outputTile; simp only; (repeat' split) <;> simp [h]

-- Machine/Control.lean

@[simp] theorem heldBody_canonical (op : SOp) (u : Nat) (s : State) (i : InFlight) (h : Canonical s.rams) :
    Canonical ((heldBody op u s i).state s).rams := by
  unfold heldBody; split <;> simp [h]

-- Machine/Load.lean

@[simp] theorem wellClear_canonical (lo n : Nat) (h : Canonical s.rams) :
    Canonical (wellClear s lo n).rams := by simp [wellClear, h]

@[simp] theorem clearDies_canonical (ds : List Nat) (h : Canonical s.rams) :
    Canonical (clearDies s ds).rams := canonical_foldl _ (fun s d hs => by simp [hs]) ds s h

@[simp] theorem clearRegions_canonical (h : Canonical s.rams) :
    Canonical (clearRegions s).rams := by simp [clearRegions, h]

@[simp] theorem removeDies_canonical (ds : List Nat) (h : Canonical s.rams) :
    Canonical (removeDies s ds).rams := by simp [removeDies, h]

@[simp] theorem removeImage_canonical (h : Canonical s.rams) :
    Canonical (removeImage s).rams := by simp [removeImage, h]

@[simp] theorem refuseImage_canonical (reason idx : Nat) (id : List Byte) (wrote : List Nat) (h : Canonical s.rams) :
    Canonical (refuseImage s reason idx id wrote).rams := by simp [refuseImage, h]

@[simp] theorem writeChunks_canonical (cs : List Chunk) (h : Canonical s.rams) :
    Canonical (writeChunks s cs).rams := canonical_foldl _ (fun s c hs => by simp [hs]) _ _ (by simp [h])

@[simp] theorem installText_canonical (t : List Byte) (h : Canonical s.rams) :
    Canonical (installText s t).rams := by simp [installText, h]

@[simp] theorem installImage_canonical (bs : List Byte) (l : Loaded) (h : Canonical s.rams) :
    Canonical (installImage s bs l).rams := by
  unfold installImage; split <;> simp [h]

@[simp] theorem loadRequest_canonical (h : Canonical s.rams) :
    Canonical (loadRequest s).rams := by simp [loadRequest, h]

@[simp] theorem runLoad_canonical (extents : List (Nat × Nat)) (bytes : Option (List Byte)) (bad : Option Nat)
    (h : Canonical s.rams) : Canonical (runLoad s extents bytes bad).rams := by
  unfold runLoad; simp only; (repeat' split) <;> simp [h]

@[simp] theorem unloadRequest_canonical (h : Canonical s.rams) :
    Canonical (unloadRequest s).rams := by simp [unloadRequest, h]

-- Machine/Steps.lean

@[simp] theorem hubWrite_canonical (a : Nat) (bs : List Byte) (h : Canonical s.rams) :
    Canonical (hubWrite s u a bs).rams := by simp [hubWrite, h]

@[simp] theorem primeUnit_canonical (im : Image) (saved : Option (Tab Slot)) (h : Canonical s.rams) :
    Canonical (primeUnit s im u saved).rams := by simp [primeUnit, h]

@[simp] theorem primeFail_canonical (what : PrimeOf) (res : Nat) (h : Canonical s.rams) :
    Canonical (primeFail s what res).rams := by simp [primeFail, h]

@[simp] theorem writeMasks_canonical (r : RowRec) (h : Canonical s.rams) :
    Canonical (writeMasks s r).rams := by
  unfold writeMasks; simp only; split
  · exact h
  · exact canonical_foldl _ (fun s k hs => by split <;> simp [hs]) _ _ h

@[simp] theorem writeTables_canonical (no : Nat) (rows : List RowRec) (h : Canonical s.rams) :
    Canonical (writeTables s no rows).rams :=
  canonical_foldl _ (fun s r hs => by simp [hs]) _ _ (canonical_foldl _ (fun s u hs => by simp [hs]) _ _ h)

-- Machine/Links.lean

@[simp] theorem tileTouch_canonical (t : Tile) (h : Canonical s.rams) :
    Canonical (tileTouch s t).rams :=
  chainTouch_canonical _ _ _ _ _ (canonical_foldl _ (fun s i hs => by simp [hs]) _ _ h)

-- Machine/Reset.lean

@[simp] theorem endLoad_canonical (h : Canonical s.rams) :
    Canonical (endLoad s).rams := by simp [endLoad, h]

@[simp] theorem hostReset_canonical (h : Canonical s.rams) :
    Canonical (hostReset s).rams := by simp [hostReset, h]

@[simp] theorem warmReset_canonical (h : Canonical s.rams) :
    Canonical (warmReset s).rams := by simp [warmReset, h]

@[simp] theorem ctrlFinish_canonical (h : Canonical s.rams) :
    Canonical (ctrlFinish s).rams := by
  unfold ctrlFinish; dsimp only
  rw [restartZero_rams, setReg_rams, debugReset_rams, rams_mk, rams_eta, ctrlScrub_rams, resetWords_rams,
    rams_foldl _ clearLink_rams, rams_mk, rams_eta]
  simp [h]

@[simp] theorem ctrlReset_canonical (h : Canonical s.rams) :
    Canonical (ctrlReset s).rams := by simp [ctrlReset, h]

@[simp] theorem writeBootCtl_canonical (v : Nat) (h : Canonical s.rams) :
    Canonical (writeBootCtl v s).rams := by simp [writeBootCtl, h]

@[simp] theorem lostState_canonical (pins : Pins) : Canonical (lostState s pins).rams := canonical_nil

-- Machine/Security.lean

@[simp] theorem lcDone_canonical (new : Nat) (full : Bool) (h : Canonical s.rams) :
    Canonical (lcDone s new full).rams := by simp [lcDone, h]

@[simp] theorem relock_canonical (level : Nat) (jtag : Bool) (h : Canonical s.rams) :
    Canonical (relock s level jtag).rams := by simp [relock, h]

@[simp] theorem levelRequest_canonical (level : Nat) (jtag : Bool) (h : Canonical s.rams) :
    Canonical (levelRequest s level jtag).rams := by
  unfold levelRequest; simp only; (repeat' split) <;> simp [h]

@[simp] theorem writeDbgReq_canonical (jtag : Bool) (v : Nat) (h : Canonical s.rams) :
    Canonical (writeDbgReq jtag v s).rams := by simp [writeDbgReq, h]

-- Machine/PState.lean

@[simp] theorem enterP4_canonical : Canonical (enterP4 s).rams := by simp [enterP4]

/-- The cistern loses what it holds, and the well keeps it (R370). -/
theorem enterP3_rams : (enterP3 s).rams = ([], s.well) := by
  have well (t : State) (ht : t.rams = s.rams) : t.well = s.well := congrArg Prod.snd ht
  simp only [enterP3, retarget_rams, vidFit_rams, rams_mk]
  rw [well _ (by simp)]

@[simp] theorem enterP3_canonical (h : Canonical s.rams) : Canonical (enterP3 s).rams := by
  rw [enterP3_rams]; exact ⟨rfl, h.2⟩

-- Machine/Debug.lean

theorem takeCmd_canonical (s : State) (w level : Nat) (station power : Bool) (go : State → Nat → State)
    (hgo : ∀ s u, Canonical s.rams → Canonical (go s u).rams) (h : Canonical s.rams) :
    Canonical (takeCmd s w level station power go).rams := by
  unfold takeCmd; simp only; (repeat' split) <;> simp [h, hgo]

@[simp] theorem memGo_canonical (op w : Nat) (h : Canonical s.rams) :
    Canonical (memGo op w s u).rams := by
  unfold memGo; simp only; (repeat' split) <;> simp [h]

@[simp] theorem dbgMem_canonical (op w : Nat) (h : Canonical s.rams) :
    Canonical (dbgMem op w s).rams := by
  refine canonical_of_ite (by simp [h]) (takeCmd_canonical _ _ _ _ _ _ (fun s u hs => ?_) h)
  simp [hs]

@[simp] theorem takeMem_canonical (op w : Nat) (h : Canonical s.rams) :
    Canonical (takeMem op w s).rams := by simp [takeMem, h]

@[simp] theorem writeDbgCmd_canonical (w : Nat) (h : Canonical s.rams) :
    Canonical (writeDbgCmd w s).rams := by
  unfold writeDbgCmd; split <;> simp [h]

-- Machine/Access.lean

@[simp] theorem writeImgCtl_canonical (v : Nat) (h : Canonical s.rams) :
    Canonical (writeImgCtl v s).rams := by simp [writeImgCtl, h]

-- what writes registers and frames

@[simp] theorem writeSlotCtl_rams (v : Nat) : (writeSlotCtl v s).rams = s.rams := by
  unfold writeSlotCtl; simp

@[simp] theorem writeSvnAdvance_rams (v : Nat) : (writeSvnAdvance v s).rams = s.rams := by simp [writeSvnAdvance]

@[simp] theorem zeroFinish_canonical (z : Zero) : Canonical (zeroFinish s z).rams := by
  unfold zeroFinish; simp only; split <;> simp

@[simp] theorem zeroStep_canonical (z : Zero) (h : Canonical s.rams) : Canonical (zeroStep s z).rams := by simp [zeroStep, h]

@[simp] theorem lcStep_canonical (target : Nat) (h : Canonical s.rams) : Canonical (lcStep s target).rams := by simp [lcStep, h]

@[simp] theorem regWrite_canonical (path a v : Nat) (h : Canonical s.rams) : Canonical (regWrite path a v s).rams := by
  unfold regWrite; split <;> simp [execLinkPairCtlWrite, execLinkRetrain, h]

@[simp] theorem writeReg_canonical (path a v : Nat) (h : Canonical s.rams) : Canonical (writeReg path a v s).rams := by
  simp [writeReg, h]

@[simp] theorem writeSpace_canonical (space a v : Nat) (h : Canonical s.rams) : Canonical (writeSpace space a v s).rams := by
  unfold writeSpace; split <;> simp [writeBar0, h]

@[simp] theorem writeFrame_canonical (bs : List Byte) (h : Canonical s.rams) : Canonical (writeFrame s bs).rams := by
  have burst : Canonical (burstWrite s bs).rams := canonical_foldl _ (fun s p hs => by simp [hs]) _ s h
  simp [writeFrame, burst, h]

end Operations

end Sys2Proof.Machine

/-! PROOFS. Every command keeps the byte RAMs in their canonical form, and so does every step. -/

namespace Sys2Proof.Machine

@[simp] theorem finish_canonical (u t : Nat) (i : InFlight) (s : State) (r : Ret) (hs : Canonical s.rams)
    (hr : Canonical (r.state s).rams) : Canonical (finish u t i s r).rams := by
  cases r <;> simp_all [finish]

/-- Retirement keeps the form where the instruction's body does. -/
@[simp] theorem retire_canonical (op : SOp) (body : State → InFlight → Ret) (u t : Nat) (s : State)
    (hb : ∀ i, Canonical ((body s i).state s).rams) (h : Canonical s.rams) : Canonical (nextOr s (retire op body u t s)).rams := by
  unfold retire; split
  · exact h
  · split <;> simp [hb, h]

/-- A step over an optional state keeps the form where that state holds the same bytes. -/
theorem enabled_canonical {s : State} {o : Option State} (ho : ∀ t, o = some t → t.rams = s.rams) (h : Canonical s.rams) :
    Canonical (nextOr s (enabled s o)).rams := by
  cases o with
  | none => exact h
  | some t => simpa [ho t rfl] using h

section Commands

variable {s : State} (h : Canonical s.rams)

include h

theorem execShiftComplete_canonical (u ma : Nat) : Canonical (nextOr s (execShiftComplete u ma s)).rams := by
  unfold execShiftComplete; split
  · exact enabled_canonical (fun _ => arrComplete_rams) h
  · exact h

theorem execPassComplete_canonical (u ma : Nat) : Canonical (nextOr s (execPassComplete u ma s)).rams := by
  unfold execPassComplete; split
  · exact enabled_canonical (fun _ => arrComplete_rams) h
  · exact h

theorem execOpenSession_canonical (sid : Nat) : Canonical (nextOr s (execOpenSession sid s)).rams := by
  unfold execOpenSession; split
  · exact enabled_canonical (fun _ => openFrame_rams) h
  · exact h

theorem execPrimingStart_canonical : Canonical (nextOr s (execPrimingStart s)).rams := by
  unfold execPrimingStart; split
  · next what im _ _ =>
    have primed := canonical_foldl (fun s u => primeUnit s im u
      (if what = .p3 then s.ldr.savedSlots.find? (fun p => p.1 == u) |>.map (·.2) else none)) (fun s u hs => by simp [hs])
      (liveUnits s) s h
    simp [primed, h]
  · exact h

theorem execSecondaryStepRows_canonical (no : Nat) (bufs pts : List (List Byte)) (masks : List (Nat × Nat × List Byte)) :
    Canonical (nextOr s (execSecondaryStepRows no bufs pts masks s)).rams := by
  unfold execSecondaryStepRows; simp only [nextOr_withOperand, nextOr_guard]
  refine canonical_of_ite (canonical_of_ite ?_ h) h
  rw [startStep_rams]
  refine canonical_foldl _ (fun s m hs => ?_) _ _ (canonical_foldl _ (fun s u hs => by simp [hs]) _ s h)
  split <;> simp [hs]

theorem execLeaveRequest_canonical (kind u x y : Nat) : Canonical (nextOr s (execLeaveRequest kind u x y s)).rams := by
  unfold execLeaveRequest; simp only; split
  · split
    · exact enabled_canonical (fun _ => reqSpan_rams) h
    · exact h
  · split
    · exact enabled_canonical (fun _ => reqTile_rams) h
    · exact h
  · split
    · exact enabled_canonical (fun _ => reqChain_rams) h
    · exact h
  · split
    · split
      · exact enabled_canonical (fun _ => reqTile_rams) h
      · exact h
    · exact h
  · simp [h]
  · exact h

theorem execPstateTransition_canonical : Canonical (nextOr s (execPstateTransition s)).rams := by
  unfold execPstateTransition; simp only; (repeat' split) <;> simp [raiseFirst, h]

theorem execP3Exit_canonical : Canonical (nextOr s (execP3Exit s)).rams := by
  unfold execP3Exit; simp only; (repeat' split) <;> simp [raiseFirst, h]

theorem execLcTransition_canonical (w : Option Nat) : Canonical (nextOr s (execLcTransition w s)).rams := by
  unfold execLcTransition; split
  · simp [h]
  · cases s.sec.lcTo with
    | none => exact h
    | some target =>
      simp only [Option.bind_some]; split
      · simp [enabled, h]
      · exact h

end Commands

/-- A command that looks for what it acts on keeps the form in each case of what it finds; every other one, guarded or not, by
what it does. -/
theorem exec_canonical (c : Instr) (s : State) (h : Canonical s.rams) : Canonical (nextOr s (exec c s)).rams := by
  cases c
  case shiftComplete u ma => exact execShiftComplete_canonical h u ma
  case passComplete u ma => exact execPassComplete_canonical h u ma
  case openSession sid => exact execOpenSession_canonical h sid
  case primingStart => exact execPrimingStart_canonical h
  case secondaryStepRows no bufs pts masks => exact execSecondaryStepRows_canonical h no bufs pts masks
  case leaveRequest kind u x y => exact execLeaveRequest_canonical h kind u x y
  case pstateTransition => exact execPstateTransition_canonical h
  case p3Exit => exact execP3Exit_canonical h
  case lcTransition w => exact execLcTransition_canonical h w
  case nop => exact retire_canonical .nop (fun s _ => .done s) _ _ s (fun _ => h) h
  case
      instrIssue | stepBoundary | descStart | descComplete | shiftStart | passStart | vecCmdStart | vfenceFire | chainStart |
      attnPageRead | gatherShareStart | reduceCombine | chainComplete | threadPark | unitSwitch | sqFetch | config | appendTokens
      | appendText | tokenizeAppend | generate | cancel | cancelApply | close | querySession | queryDevice | primingComplete |
      stepComplete | stepFault | stepWatchdog | wellRead | wellReread | signalSend | signalApply | siphonTileSend | landedReceive
      | flitReceive | nakReceive | extLinkTrainState | leaveGrant | ptmMeasure | ppsEdge | sumpIntake | fwAuth | haltDone |
      trapService | pumpBlock | timeout | chainTileOutput | heldRetire | primingTimeout | tileLand | zeroize | dbgAccess =>
    simp only [exec,
      -- Machine/Scalar.lean
      execInstrIssue, execTrapService,
      -- Machine/Ncu.lean
      execStepBoundary,
      -- Machine/Pump.lean
      execDescStart, execDescComplete, execPumpBlock, execTimeout,
      -- Machine/Array.lean
      execShiftStart, execPassStart,
      -- Machine/Vec.lean
      execVecCmdStart, execVfenceFire,
      -- Machine/Chain.lean
      execChainStart, execAttnPageRead, execGatherShareStart, execReduceCombine, execChainComplete, execChainTileOutput,
      -- Machine/Control.lean
      execThreadPark, execUnitSwitch, execHeldRetire,
      -- Machine/Rings.lean
      execSqFetch,
      -- Machine/Sessions.lean
      execConfig, execAppendTokens, execAppendText, execTokenizeAppend, execGenerate, execCancel, execCancelApply, execClose,
      execQuerySession, execQueryDevice,
      -- Machine/Steps.lean
      execPrimingComplete, execStepComplete, execStepFault, execStepWatchdog, execPrimingTimeout,
      -- Machine/Memory.lean
      execWellRead, execWellReread,
      -- Machine/Links.lean
      execSignalSend, execSignalApply, execSiphonTileSend, execLandedReceive, execFlitReceive, execNakReceive,
      execExtLinkTrainState, execTileLand,
      -- Machine/Power.lean
      execLeaveGrant,
      -- Machine/Time.lean
      execPtmMeasure, execPpsEdge, execSumpIntake,
      -- Machine/Boot.lean
      execFwAuth,
      -- Machine/Debug.lean
      execHaltDone,
      -- Machine/Security.lean
      execZeroize,
      -- Machine/Port.lean
      execDbgAccess]
    (repeat' split) <;> simp [h]
  all_goals simp [exec, h,
    -- Machine/Scalar.lean
    execAdd, execSub, execAnd, execOr, execXor, execShl, execShr, execSra, execSlt, execSltu, execMin, execMax, execMinu,
    execMaxu, execMul, execMulh, execMulhu, execAdds, execSubs, execClz, execPopc, execAddi, execAndi, execOri, execXori,
    execSlti, execSltiu, execLui, execShli, execShri, execSrai, execBeq, execBne, execBlt, execBge, execBltu, execBgeu, execJ,
    execJr, execCall, execCallr, execRet, execLw, execLh, execLhu, execLb, execLbu, execSw, execSh, execSb, execEwait,
    execWaitWake, execEsig, execEset, execErd, execRsig, execPark, execBrk, execRdsr, execSetvl, execCpos, execCstat,
    -- Machine/Ncu.lean
    execStepclose, execPsetw, execSlotw, execSlotr, execNcucnt,
    -- Machine/Pump.lean
    execPissue, execPstat, execPclr, execPcancel,
    -- Machine/Array.lean
    execMshift, execMpass,
    -- Machine/Vec.lean
    execVecCmdComplete, execVopAdd, execVopSub, execVopMul, execVopFma, execVopMin, execVopMax, execVopAbs, execVopNeg,
    execVopSel, execVopAddb, execVopSubb, execVopMulb, execVopExp, execVopLog, execVopRcp, execVopRsqrt, execVopSqrt, execVopTanh,
    execVopSigmoid, execVopSilu, execVopGeluTanh, execVcmp, execVredRsum, execVredRmax, execVredRmin, execVredRmaxabs,
    execVmovMov, execSplat, execCompress, execExpand, execZero, execMand, execMor, execMxor, execMnot, execMset, execVfence,
    execVcvt,
    -- Machine/Chain.lean
    execChain, execCabort,
    -- Machine/Control.lean
    execParkRequest, execPmWrite, execResume, execDeadlockCountExpire, execStationReset,
    -- Machine/Rings.lean
    execSqTailDoorbell, execCqHeadDoorbell, execQpEnableWrite, execQpDisableDone, execQpCoalWrite, execMsixCoalTimeout,
    execMsixVectorUnmask,
    -- Machine/Sessions.lean
    execTextSramRepair, execTextScrub,
    -- Machine/Load.lean
    execLoad, execUnload, execPeerImageId,
    -- Machine/Steps.lean
    execStepStart,
    -- Machine/Memory.lean
    execCistCeWriteback, execWellRefresh, execWellRecal, execScrubCistLine, execScrubWellBeat,
    -- Machine/Links.lean
    execReplayTimeout, execLinkAckTimeout, execIdleAckFlit, execLossOfLock, execCtrlDownReceive, execDieLinkRetrain,
    execLinkPairCtlWrite, execLinkRetrain, execPairInfo, execExtAutoRetrain, execLinkTrainTimeout, execPairHoldExpire,
    -- Machine/Power.lean
    execWindowStart, execDroopAssert, execDroopStretchEnd,
    -- Machine/Time.lean
    execTimeTick, execServoHoldover, execTimeSrcSelect, execStepReq, execTimeTodHiWrite, execEvtMaskWrite,
    -- Machine/Reset.lean
    execFlr, execWarmReset, execPcieLinkTrain, execStationResetRelease, execBootGo, execCtrlReset, execMapStnReset, execPwrOkFall,
    execColdReset, execVddIoValid, execRailOutOfTolerance, execRefclkLoss,
    -- Machine/Boot.lean
    execVidStep, execBootFlash, execBootLinkTrain, execMemTrain, execSelfTest, execBootRom,
    -- Machine/Security.lean
    execDrbgReseed, execEntropyHealthFail, execEntropyStartupPass, execAttest, execDbgReqWrite, execDbgResponse,
    execChallengeExpire, execSlotProgram, execSlotRevoke, execSvnAdvance,
    -- Machine/PState.lean
    execThermSample, execPwrCtlWrite, execAutoIdleEnter, standby, execP3Entry, execPairStandby,
    -- Machine/Debug.lean
    execReadThread, execReadEvents, execReadPump, execHalt, execDbgResume, execDbgStep, execBrkArm, execBrkDisarm, execReadScalar,
    execWriteScalar, execReadTile, execWriteTile, execReadMem, execWriteMem,
    -- Machine/Telemetry.lean
    execTelemSnapshot,
    -- Machine/Access.lean
    execWinTableWrite, execWinDataWrite, execRcRead, execSnapshotRead, execFloatOpRead, execSumpRecRead, execWinDataRead,
    execRegWrite, execW1cWrite,
    -- Machine/Port.lean
    execCpReadFrame, execCpFrameAbandon, execIdcode, execBypass, execSamplePreload, execExtest, execExtestPulse, execExtestTrain,
    execClamp, execHighz, execScan, execTestLogicReset, execCpWriteFrame]

theorem step_canonical {s s' : State} (h : Canonical s.rams) (hstep : step s = .next s') : Canonical s'.rams := by
  unfold step at hstep; split at hstep
  · next c rest _ =>
    have kept := exec_canonical c { s with pending := rest } (by simpa using h)
    rwa [hstep, nextOr_next] at kept
  · cases hstep; simpa using h

/-- Settles O58: what writes a byte RAM writes it in canonical form, and every other operation of the model leaves both
RAMs as they are. -/
theorem everyStepKeepsMemoryCanonical : Obligations.EveryStepKeepsMemoryCanonical := by
  intro s s' h hstep
  rw [memWf_iff_canonical] at h ⊢
  exact step_canonical h hstep

end Sys2Proof.Machine

/-! PROOFS. PISSUE (R125, R126, R201): a clean read of the cistern returns the bytes that stand there, a fatal trap leaves its
thread trapped at the instruction, and so a descriptor is queued or its instruction traps. -/

namespace Sys2Proof.Machine

open Sys2Proof.Stated

-- reads of the cistern (R114)

/-- A run of bytes read is the bytes at its addresses. -/
theorem memRead_eq_map (m : List Host.Cell) (a n : Nat) : memRead m a n = (List.range n).map (fun k => tabGet 0 m (a + k)) :=
  List.ext_getElem (by simp) fun k h _ => by simp [getElem_memRead]

theorem mem_wordsOf {size a n w : Nat} (h : w ∈ wordsOf size a n) : a / size ≤ w ∧ w ≤ (a + n - 1) / size := by
  unfold wordsOf at h; split at h
  · cases h
  · obtain ⟨k, hk, rfl⟩ := List.mem_map.1 h
    rw [List.mem_range] at hk
    omega

/-- No word of a clean range is marked. -/
theorem marked_of_clean {s : State} {u a n : Nat} (clean : cleanRange s u a n) : marked s.cistErr 8 (gaddr u a) n = [] := by
  unfold marked; split
  · rfl
  · refine List.filter_eq_nil_iff.2 fun w hw hit => ?_
    obtain ⟨⟨k, m⟩, hmem, hk⟩ := List.any_eq_true.1 hit
    obtain rfl : k = w := by simpa using hk
    exact clean k m (mem_wordsOf hw).1 (mem_wordsOf hw).2 hmem

/-- A clean read changes nothing and returns the bytes at its addresses. -/
theorem cistRead_of_clean {s : State} {u a n : Nat} (clean : cleanRange s u a n) (acc : Nat) :
    cistRead s u a n acc = (s, some ((List.range n).map (fun k => cistByte s (gaddr u a + k)))) := by
  simp [cistRead, marked_of_clean clean, cistCheck, memRead_eq_map, cistByte]

-- fatal traps (R175, R177)

@[simp] theorem pushRec_stns (s : State) (r : RecIn) : (pushRec s r).stns = s.stns := by unfold pushRec; split <;> rfl
@[simp] theorem addReg_stns (s : State) (a n : Nat) : (addReg s a n).stns = s.stns := rfl

@[simp] theorem thr_flush (x : Station) (t k : Nat) : thr (flush x t) k = thr x k := rfl

@[simp] theorem thr_pmApply (x : Station) (l : List (Nat × Word)) (t : Nat) : thr (pmApply x l) t = thr x t := by
  induction l generalizing x with
  | nil => rfl
  | cons p l ih => exact ih _

@[simp] theorem thr_pmFlush (x : Station) (t : Nat) : thr (pmFlush x) t = thr x t := by
  unfold pmFlush; split
  · rw [thr_pmApply]; rfl
  · rfl

/-- The thread of a fatal trap stands TRAPPED at its instruction. -/
theorem thr_fatalTrap (s : State) (u t pc cause : Nat) :
    thr (stn (fatalTrap s u t pc cause) u) t = { thr (stn (stepEnd s u t) u) t with st := .trapped, cause := cause, pc := pc } := by
  have stns : (fatalTrap s u t pc cause).stns = (modStn (stepEnd s u t) u (fun x => pmFlush (flush (modThr x t (fun h =>
      { h with st := .trapped, cause := cause, pc := pc })) t))).stns := by
    unfold fatalTrap; simp only [setEvt_stns]; split <;> split <;> simp
  rw [stn_of_stns stns, stn_modStn, if_pos rfl, thr_pmFlush, thr_flush, thr_modThr, if_pos rfl]

theorem finish_trap_trapsWith (u t : Nat) (i : InFlight) (s s' : State) (cause : Nat) :
    TrapsWith u t cause i (finish u t i s (.trap cause s')) := by
  simp [TrapsWith, finish, thr_fatalTrap]

-- PISSUE (R201)

theorem pissueBody_misplaced {s : State} {u : Nat} {i : InFlight}
    (h : (opA s u i).toNat % 64 ≠ 0 ∨ spillBase < (opA s u i).toNat + 64) : pissueBody u s i = .trap 6 s := by
  have outside : ((opA s u i).toNat % 64 ≠ 0 || !inGeneral (opA s u i).toNat 64) = true := by simpa [inGeneral] using h
  simp only [pissueBody, outside, if_true]

/-- An aligned descriptor that finds a place is copied to the end of its channel's queue. -/
theorem pissueBody_queues {s : State} {u : Nat} {i : InFlight} (aligned : (opA s u i).toNat % 64 = 0)
    (general : (opA s u i).toNat + 64 ≤ spillBase) (clean : cleanRange s u (opA s u i).toNat 64)
    (place : (getChan (stn s u) (fCh i.word)).queue.length +
      (if (getChan (stn s u) (fCh i.word)).active.isSome then 1 else 0) < 16) :
    pissueBody u s i = .done (modStn s u (fun x => setChan x (fCh i.word) { getChan x (fCh i.word) with
      queue := (getChan x (fCh i.word)).queue ++
        [(leNat ((List.range 64).map (fun k => cistByte s (gaddr u (opA s u i).toNat + k))), false)] })) := by
  have inside : ((opA s u i).toNat % 64 ≠ 0 || !inGeneral (opA s u i).toNat 64) = false := by simp [inGeneral, aligned, general]
  simp only [pissueBody, inside, Nat.not_le.2 place, cistRead_of_clean clean]
  simp

/-- Settles O10: an instruction at its retirement leaves what its body says. -/
theorem pumpIssueQueuesTheDescriptor : Obligations.PumpIssueQueuesTheDescriptor := by
  intro s u t i h
  refine ⟨fun aligned general clean place => ⟨_, retire_of h (pissueBody u), ?_⟩,
    fun misplaced => ⟨_, retire_of h (pissueBody u), ?_⟩⟩
  · rw [pissueBody_queues aligned general clean place]
    exact retires_done u t i s _
  · rw [pissueBody_misplaced misplaced]
    exact finish_trap_trapsWith u t i s s 6

end Sys2Proof.Machine

/-! PROOFS. Pump descriptors (R128, R129, R138 to R140, R146): the start of the oldest one, and what a completion leaves of the
channel, of its error records and of the descriptor's event. -/

namespace Sys2Proof.Machine

@[simp] theorem getChan_setChan (x : Station) (ch k : Nat) (c : Chan) :
    getChan (setChan x ch c) k = if k = ch then c else getChan x k := by simp [getChan, setChan, tabGet_tabPut]

@[simp] theorem setChan_inReset (x : Station) (ch : Nat) (c : Chan) : (setChan x ch c).inReset = x.inReset := rfl
@[simp] theorem evGet_setChan (x : Station) (ch e : Nat) (c : Chan) : evGet (setChan x ch c) e = evGet x e := rfl
@[simp] theorem getChan_evSet (x : Station) (e ch : Nat) (v : Word) : getChan (evSet x e v) ch = getChan x ch := rfl

theorem onlyUnit_setStn (s : State) (u : Nat) (x : Station) : OnlyUnit u s (setStn s u x) :=
  ⟨rfl, fun v hv => by simp [hv]⟩

theorem inReset_of_engineOn {s : State} {u : Nat} (on : engineOn s u = true) : (stn s u).inReset = false := by
  simp only [engineOn, Bool.and_eq_true, Bool.not_eq_true'] at on
  exact on.2

/-- The state of a descriptor that starts (R128, R129, R146). -/
def startedDesc (s : State) (u d : Nat) (cancelled : Bool) : Active :=
  { raw := d, timeoutUs := dTimeoutUs s d,
    ended := if cancelled then some 1 else if dValidate s u d = 0 then none else some (dValidate s u d) }

/-- The oldest descriptor of a channel with none active leaves the queue and becomes active. -/
theorem exec_descStart {s : State} {u ch d : Nat} {cancelled : Bool} {rest : List (Nat × Bool)} (hch : ch < 4)
    (queue : (getChan (stn s u) ch).queue = (d, cancelled) :: rest) (idle : (getChan (stn s u) ch).active = none)
    (on : engineOn s u = true) :
    exec (.descStart u ch) s = .next (setStn s u (setChan (stn s u) ch { getChan (stn s u) ch with
      queue := rest, active := some (startedDesc s u d cancelled) })) := by
  show execDescStart u ch s = _
  simp [execDescStart, hch, queue, idle, on, startedDesc]

/-- The end of a descriptor changes its channel and nothing else of the station. -/
theorem stn_descEnd (s : State) (u ch : Nat) (a : Active) (st : Nat) :
    stn (descEnd s u ch a st) u = setChan (stn s u) ch (chanDone (getChan (stn s u) ch) a st) := by
  have before (t : State) (ht : t.stns = s.stns) :
      stn (modStn t u (fun x => setChan x ch (chanDone (getChan x ch) a st))) u =
        setChan (stn s u) ch (chanDone (getChan (stn s u) ch) a st) := by simp [stn_of_stns ht]
  unfold descEnd; refine before _ ?_
  split <;> split <;> rfl

/-- A completion ends the descriptor and counts its event. -/
theorem exec_descComplete {s : State} {u ch st : Nat} {a : Active} (active : (getChan (stn s u) ch).active = some a)
    (complete : completes a = some st) (on : engineOn s u = true) :
    exec (.descComplete u ch) s = .next (evBump (descEnd s u ch a st) u (dEvt a.raw)) := by
  show execDescComplete u ch s = _
  simp [execDescComplete, active, complete, on]

theorem stn_descComplete {s : State} {u : Nat} (on : engineOn s u = true) (ch st : Nat) (a : Active) :
    stn (evBump (descEnd s u ch a st) u (dEvt a.raw)) u =
      evSet (setChan (stn s u) ch (chanDone (getChan (stn s u) ch) a st)) (dEvt a.raw) (evGet (stn s u) (dEvt a.raw) + 1) := by
  simp [evBump, stn_descEnd, inReset_of_engineOn on, evAdd]

/-- Settles O19: both commands leave one channel changed, and a completion one event. -/
theorem descriptorsStartAndCompleteInOrder : Obligations.DescriptorsStartAndCompleteInOrder := by
  constructor
  · intro s u ch d cancelled rest hch queue idle on
    refine ⟨_, startedDesc s u d cancelled, exec_descStart hch queue idle on, onlyUnit_setStn .., ?_⟩
    simp +contextual [startedDesc]
  · intro s u ch a st active complete on
    refine ⟨_, exec_descComplete active complete on, ?_, ?_, ?_, ?_, ?_, ?_, rams_eq_iff.1 (by simp)⟩
    all_goals rw [stn_descComplete on]
    all_goals simp +contextual [chanDone, dTag, dEvt, stick, min_comm]

end Sys2Proof.Machine

/-! PROOFS. Memory errors (R114, R121, R145): counters that rise by one, a load of a word with a single-bit error and the
word's write-back, the hub's well read in each state of its beat, and the re-reads of an uncorrectable beat. -/

namespace Sys2Proof.Machine

open Sys2Proof.Stated

-- counters

/-- A counter below its last value rises by one. -/
theorem reg_addReg_one {s : State} {a : Nat} (h : reg s a < 2 ^ 32 - 1) : reg (addReg s a 1) a = reg s a + 1 := by
  have below : reg s a + 1 ≤ 0xFFFFFFFF := by omega
  rw [addReg, stick32, Nat.min_eq_left below, reg_setReg_self (by omega)]

theorem reg_addReg_ne {a b : Nat} (h : b ≠ a) (s : State) (n : Nat) : reg (addReg s a n) b = reg s b := reg_setReg_ne h s _

/-- A record at the sump's intake changes no register but the count of dropped ones. -/
theorem reg_pushRec {a : Nat} (h : a ≠ Reg.sumpDrop) (s : State) (r : RecIn) : reg (pushRec s r) a = reg s a := by
  unfold pushRec; split
  · exact reg_addReg_ne h s 1
  · rfl

@[simp] theorem addReg_wellErr (s : State) (a n : Nat) : (addReg s a n).wellErr = s.wellErr := rfl
@[simp] theorem addReg_reread (s : State) (a n : Nat) : (addReg s a n).reread = s.reread := rfl
@[simp] theorem pushRec_wellErr (s : State) (r : RecIn) : (pushRec s r).wellErr = s.wellErr := by unfold pushRec; split <;> rfl
@[simp] theorem pushRec_reread (s : State) (r : RecIn) : (pushRec s r).reread = s.reread := by unfold pushRec; split <;> rfl

-- cistern (R114)

/-- R197: the two spellings of a sign-extended immediate agree. -/
theorem ofInt_sext_eq_simm (w : Nat) : BitVec.ofInt 32 (sext 16 w) = simm w := by
  have value : (BitVec.ofNat 16 w).toInt = sext 16 w := by
    rw [BitVec.toInt_eq_toNat_cond, BitVec.toNat_ofNat]
    simp only [sext]; split <;> split <;> omega
  rw [simm, BitVec.signExtend, value]

theorem memAddr_eq_localAddr (s : State) (u : Nat) (i : InFlight) : memAddr s u i = localAddr s u i := by
  rw [memAddr, localAddr, ofInt_sext_eq_simm]

/-- The four bytes of an aligned word lie in one 64-bit word. -/
theorem wordsOf_aligned {g : Nat} (h : g % 4 = 0) : wordsOf 8 g 4 = [g / 8] := by
  have one : (g + 4 - 1) / 8 + 1 - g / 8 = 1 := by omega
  rw [wordsOf, if_neg (by decide), one]
  simp

theorem marked_of_find {t : Tab Mark} {g : Nat} {m : Mark} (aligned : g % 4 = 0)
    (h : t.find? (fun p => p.1 == g / 8) = some (g / 8, m)) : marked t 8 g 4 = [g / 8] := by
  have hit : t.any (fun p => p.1 == g / 8) = true := List.any_eq_true.2 ⟨_, List.mem_of_find?_eq_some h, by simp⟩
  have listed : t.isEmpty = false := by cases t <;> simp_all
  simp [marked, listed, wordsOf_aligned aligned, hit]

/-- The state after the correction of a word in flight: it is counted, and its write-back is due. -/
def corrected (s : State) (w : Nat) : State :=
  { addReg s Reg.cistCe 1 with cistWb := if s.cistWb.contains w then s.cistWb else s.cistWb ++ [w] }

theorem mem_corrected_cistWb (s : State) (w : Nat) : w ∈ (corrected s w).cistWb := by
  by_cases h : w ∈ s.cistWb <;> simp [corrected, h]

theorem gaddr_aligned {u a : Nat} (h : a % 4 = 0) : gaddr u a % 4 = 0 := by unfold gaddr; omega

/-- A read of four aligned bytes with a single-bit error in their word corrects it, and returns the bytes. -/
theorem cistRead_of_single {s : State} {u a : Nat} (aligned : a % 4 = 0)
    (h : s.cistErr.find? (fun p => p.1 == gaddr u a / 8) = some (gaddr u a / 8, .single)) (acc : Nat) :
    cistRead s u a 4 acc =
      (corrected s (gaddr u a / 8), some ((List.range 4).map (fun k => cistByte s (gaddr u a + k)))) := by
  rw [cistRead, marked_of_find (gaddr_aligned aligned) h]
  simp [cistCheck, h, corrected, memRead_eq_map, cistByte, addReg]

/-- A load of an aligned word with a single-bit error retires with the bytes that stand there. -/
theorem exec_lw_of_single {s : State} {u t : Nat} {i : InFlight} (at_ : AtRetire .lw s u t i)
    (general : localAddr s u i + 4 ≤ spillBase) (aligned : localAddr s u i % 4 = 0)
    (h : s.cistErr.find? (fun p => p.1 == gaddr u (localAddr s u i) / 8) = some (gaddr u (localAddr s u i) / 8, .single)) :
    exec (.lw u t) s = .next (modStn (writeS (corrected s (gaddr u (localAddr s u i) / 8)) u i (fRd i.word) (BitVec.ofNat 32
      (leNat ((List.range 4).map (fun k => cistByte s (gaddr u (localAddr s u i) + k)))))) u (fun x => popFront x t)) := by
  have inside : (!inGeneral (localAddr s u i) 4 || localAddr s u i % 4 != 0) = false := by simp [inGeneral, general, aligned]
  rw [show exec (.lw u t) s = .next (finish u t i s (loadBody u 4 (BitVec.ofNat 32) s i)) from retire_of at_ _]
  simp [loadBody, memAddr_eq_localAddr, inside, cistRead_of_single aligned h]

/-- The departure of an instruction from the pipe leaves every thread's record. -/
theorem thr_popFront (x : Station) (t k : Nat) : thr (popFront x t) k = thr x k := rfl

/-- A due write-back clears the word's mark and is due no longer. -/
theorem exec_cistCeWriteback {s : State} {w : Nat} (h : w ∈ s.cistWb) : exec (.cistCeWriteback w) s =
    .next { s with cistWb := s.cistWb.filter (· != w), cistErr := tabDel s.cistErr w } :=
  guard_of (by simpa using h) s _

-- the hub's well reads (R121)

/-- What the well controller does to a beat that the hub reads. -/
def readBeat (s : State) (b : Nat) : State :=
  match s.wellErr.find? (fun p => p.1 == b) with
  | none => s
  | some (_, .stack) => addReg s Reg.stackEcc 1
  | some (_, .single) => addReg { s with wellErr := tabDel s.wellErr b } Reg.wellCe 1
  | some (_, .bad _) => { s with reread := some (b, 0, 2) }

/-- The hub's traffic spends leave and nothing else. -/
theorem hubSpend_eq (s : State) (n : Nat) : ∃ g, hubSpend s n = { s with gov := g } := by
  unfold hubSpend; split
  · exact ⟨_, rfl⟩
  · exact ⟨s.gov, rfl⟩

/-- A beat that the hub may read is read once its leave is spent. -/
theorem exec_wellRead {s : State} {a : Nat} (aligned : a % 32 = 0) (die : wellDie a < dies s) (off : wellOff a < wellEnd)
    (idle : s.reread = none) (awake : s.gov.ps ≠ .p3) (powered : s.gov.ps ≠ .p4) (leave : hubReady s 32 = true) :
    exec (.wellRead a) s = .next (readBeat (hubSpend s 32) (a / 32)) := by
  have operand : (decide (a % 32 = 0) && decide (wellDie a < dies s) && decide (wellOff a < wellEnd)) = true := by
    simp [aligned, die, off]
  have ready : (s.reread.isNone && wellOn s && hubReady s 32) = true := by simp [idle, wellOn, awake, powered, leave]
  show execWellRead a s = _
  rw [execWellRead, withOperand_of operand, guard_of ready]; rfl

-- re-reads (R121, R145)

/-- R145: a beat that stays uncorrectable is counted. -/
theorem reg_wellUeReport {s : State} (below : reg s Reg.wellUe < 2 ^ 32 - 1) (b : Nat) (q : WellAcc) :
    reg (wellUeReport s b q) Reg.wellUe = reg s Reg.wellUe + 1 := by
  have counted (t : State) (h : t.regs = s.regs) : reg (addReg t Reg.wellUe 1) Reg.wellUe = reg s Reg.wellUe + 1 := by
    rw [← reg_of_regs h] at below ⊢
    exact reg_addReg_one below
  have first := counted (if q.acc = 2 ∨ q.acc = 3 then s else noteFault s) (by split <;> rfl)
  simp only [wellUeReport]
  generalize addReg (if q.acc = 2 ∨ q.acc = 3 then s else noteFault s) Reg.wellUe 1 = t at first ⊢
  by_cases known : t.wellBad.contains b = true
  · rw [if_pos known]
    exact first
  · rw [if_neg known, reg_pushRec (by decide)]
    split <;> exact first

@[simp] theorem wellUeReport_wellErr (s : State) (b : Nat) (q : WellAcc) : (wellUeReport s b q).wellErr = s.wellErr := by
  unfold wellUeReport; simp only [apply_ite State.wellErr, pushRec_wellErr, addReg_wellErr, noteFault_wellErr, ite_self]

@[simp] theorem wellUeReport_reread (s : State) (b : Nat) (q : WellAcc) : (wellUeReport s b q).reread = s.reread := by
  unfold wellUeReport; simp only [apply_ite State.reread, pushRec_reread, addReg_reread, noteFault_reread, ite_self]

/-- One re-read of the waiting beat: it is delivered, or a second one follows, or the beat is counted. -/
theorem exec_wellReread {s : State} {b n acc : Nat} {rr : List ReRead} (waits : s.reread = some (b, n, acc))
    (bad : s.wellErr.find? (fun p => p.1 == b) = some (b, .bad rr)) :
    exec .wellReread s = .next
      (if rr.getD n .bad ≠ .bad then addReg { s with reread := none, wellErr := tabDel s.wellErr b } Reg.wellRetry 1
       else if n = 0 then { s with reread := some (b, 1, acc) }
       else wellUeReport { s with reread := none } b { acc := acc }) := by
  show execWellReread s = _
  simp only [execWellReread, waits, bad, bne_iff_ne, apply_ite Host.Outcome.next]

/-- Settles O27: the cases are the states of the word, of the beat and of its re-reads. -/
theorem memoryErrorsAreCorrectedOrReported : Obligations.MemoryErrorsAreCorrectedOrReported := by
  refine ⟨⟨?_, ?_⟩, ?_, ?_⟩
  · intro s u t i at_ general aligned single below
    refine ⟨_, exec_lw_of_single at_ general aligned single, ?_, ?_, mem_corrected_cistWb .., rfl⟩
    · obtain rfl := front_thread at_.oldest
      by_cases zero : fRd i.word = 0
      · simp [zero, sread]
      · simp [writeS, thr_popFront, sread_swrite, zero]
    · exact reg_addReg_one below
  · intro s w due
    exact ⟨_, exec_cistCeWriteback due, by simp, rfl, rfl⟩
  · intro s a aligned die off idle awake powered leave
    have read := exec_wellRead aligned die off idle awake powered leave
    obtain ⟨g, spent⟩ := hubSpend_eq s 32
    rw [spent] at read
    refine ⟨fun clean => ⟨_, read, ?_⟩, fun stack below => ⟨_, read, ?_⟩, fun single below => ⟨_, read, ?_⟩,
      fun rr bad => ⟨_, read, ?_⟩⟩
    · simp [readBeat, clean]
    · simp only [readBeat, stack]
      exact ⟨reg_addReg_one below, rfl, rfl, rfl⟩
    · simp only [readBeat, single]
      exact ⟨reg_addReg_one below, rfl, rfl, rfl⟩
    · simp [readBeat, bad]
  · intro s b n acc rr waits bad
    rw [exec_wellReread waits bad]
    refine ⟨fun delivered below => ⟨_, rfl, ?_⟩, fun lost first => ?_, fun lost second below => ⟨_, rfl, ?_⟩⟩
    · rw [if_pos delivered]
      exact ⟨reg_addReg_one below, rfl, rfl, rfl⟩
    · rw [if_neg (not_not.2 lost), if_pos first]
    · subst second
      rw [if_neg (not_not.2 lost), if_neg Nat.one_ne_zero]
      exact ⟨reg_wellUeReport (s := { s with reread := none }) below _ _, by simp, by simp, (rams_eq_iff.1 (wellUeReport_rams ..)).2⟩

end Sys2Proof.Machine

/-! PROOFS. Maintenance (R152 to R154, R358, R419): the debits of refresh and recalibration, the scrub of the cistern and of
the well, which repairs marks and moves its position, and the scrub and repair of Text SRAM. -/

namespace Sys2Proof.Machine

-- refresh and recalibration (R152, R358)

theorem wellOn_of_awake {s : State} (awake : s.gov.ps ≠ .p3) (powered : s.gov.ps ≠ .p4) : wellOn s = true := by
  simp [wellOn, awake, powered]

-- floats (R473)

/-- Only what an update of a float changes differs: floats, registers and messages. -/
def FloatFrame (s t : State) : Prop := { t with regs := s.regs, msix := s.msix, out := s.out, floats := s.floats } = s

theorem FloatFrame.trans {s t v : State} (first : FloatFrame s t) (second : FloatFrame t v) : FloatFrame s v := by
  unfold FloatFrame at *
  exact (congrArg (fun w : State => { w with regs := s.regs, msix := s.msix, out := s.out, floats := s.floats }) second).trans first

theorem floatFrame_putFloat (s : State) (n : Nat) (f : Float8) : FloatFrame s (putFloat s n f) := rfl
theorem floatFrame_setReg (s : State) (a v : Nat) : FloatFrame s (setReg s a v) := rfl

theorem floatFrame_sendMsix (s : State) (v : Nat) : FloatFrame s (sendMsix s v) := by
  unfold sendMsix; simp only []; split
  · rfl
  · split <;> rfl

theorem floatFrame_setEvt (s : State) (b : Nat) : FloatFrame s (setEvt s b) := by
  have rise (t : State) (old : Nat) : FloatFrame t (evtRise t old) := by
    unfold evtRise; simp only []; split
    · exact floatFrame_sendMsix ..
    · rfl
  exact (floatFrame_setReg s Reg.evtStatus (reg s Reg.evtStatus ||| 2 ^ b)).trans (rise ..)

theorem floatFrame_floatEnd (s : State) (n : Nat) (ok : Bool) (res : Nat) : FloatFrame s (floatEnd s n ok res) := by
  unfold floatEnd; simp only []; split
  · rfl
  · exact (floatFrame_putFloat ..).trans (floatFrame_setEvt ..)

theorem floatFrame_floatStart (s : State) (n op fin : Nat) : FloatFrame s (floatStart s n op fin) := by
  unfold floatStart; simp only []; split
  · exact (floatFrame_floatEnd ..).trans (floatFrame_putFloat ..)
  · exact floatFrame_putFloat ..

theorem floatFrame_floatPos (s : State) (n pos : Nat) : FloatFrame s (floatPos s n pos) := by
  unfold floatPos; simp only []; split
  · rfl
  · exact floatFrame_putFloat ..

/-- The float of a scrub advances, ends or starts anew, and nothing else changes but registers and messages. -/
theorem floatFrame_scrubFloat (s : State) (n op pos total cnt : Nat) : FloatFrame s (scrubFloat s n op pos total cnt) := by
  have running : FloatFrame s (if (getFloat s n).st = 1 then s else floatStart s n op total) := by
    split
    · rfl
    · exact floatFrame_floatStart ..
  have moved := running.trans (floatFrame_floatPos _ n pos)
  unfold scrubFloat; simp only []; split
  · exact moved
  · exact moved.trans ((floatFrame_floatEnd ..).trans (floatFrame_setReg ..))

-- scrub (R153)

theorem stns_foldl {α : Type} {f : State → α → State} (h : ∀ s a, (f s a).stns = s.stns) (l : List α) (s : State) :
    (l.foldl f s).stns = s.stns := by
  induction l generalizing s with
  | nil => rfl
  | cons a l ih => rw [List.foldl_cons, ih, h]

@[simp] theorem cistUeReport_stns (s : State) (w acc : Nat) : (cistUeReport s w acc).stns = s.stns := by
  unfold cistUeReport; simp only [apply_ite State.stns, pushRec_stns, addReg_stns, noteFault_stns, ite_self]

@[simp] theorem wellUeReport_stns (s : State) (b : Nat) (q : WellAcc) : (wellUeReport s b q).stns = s.stns := by
  unfold wellUeReport; simp only [apply_ite State.stns, pushRec_stns, addReg_stns, noteFault_stns, ite_self]

theorem scrubWord_stns (s : State) (w : Nat) : (scrubWord s w).stns = s.stns := by
  unfold scrubWord; split
  · rfl
  · exact cistUeReport_stns ..
  · rfl

theorem wellCheck_stns (s : State) (q : WellAcc) (l : List Nat) : (wellCheck s q l).1.stns = s.stns := by
  induction l generalizing s with
  | nil => rfl
  | cons b l ih =>
    unfold wellCheck; split
    · exact ih s
    · exact ih _
    · exact ih _
    · split
      · exact ih _
      · exact wellUeReport_stns ..

theorem scrubOn_of_mem {s : State} (h : s.gov.ps ∈ [PState.p0, .p1, .p2]) : scrubOn s = true := by
  simpa [scrubOn, or_assoc] using h

/-- One cistern line is scrubbed: the position moves on, and no byte and no station changes. -/
theorem exec_scrubCistLine {s : State} (on : scrubOn s = true) : ∃ s', exec .scrubCistLine s = .next s' ∧
    s'.scrubCist = (s.scrubCist + 1) % 81920 ∧ s'.cist = s.cist ∧ s'.well = s.well ∧ s'.stns = s.stns := by
  refine ⟨_, guard_of on s _, ?_⟩
  generalize (s.cistErr.map (·.1)).filter (fun w => decide (w % 2 ^ 20 / 8 = s.scrubCist) && isResident s (w / 2 ^ 20)) = ws
  have float := floatFrame_scrubFloat { ws.foldl scrubWord s with scrubCist := (s.scrubCist + 1) % 81920 } 6 8 (s.scrubCist + 1)
    81920 Reg.scrubCist
  obtain ⟨cist, well⟩ := rams_eq_iff.1 (rams_foldl scrubWord scrubWord_rams ws s)
  exact ⟨congrArg State.scrubCist float, (congrArg State.cist float).trans cist, (congrArg State.well float).trans well,
    (congrArg State.stns float).trans (stns_foldl scrubWord_stns ws s)⟩

/-- The scrub of one marked beat. -/
def scrubBeat (s : State) (b : Nat) : State := (wellCheck s { acc := 3 } [b]).1

/-- One beat of every stack is scrubbed: the position moves on, and no byte and no station changes. -/
theorem exec_scrubWellBeat {s : State} (on : scrubOn s = true) : ∃ s', exec .scrubWellBeat s = .next s' ∧
    s'.scrubWell = (s.scrubWell + 1) % 1509949440 ∧ s'.cist = s.cist ∧ s'.well = s.well ∧ s'.stns = s.stns := by
  refine ⟨_, guard_of on s _, ?_⟩
  generalize ((List.range (stackCount s)).map (fun st => stackBeat st s.scrubWell / 32)).filter
    (fun b => s.wellErr.any (fun p => p.1 == b)) = bs
  have float := floatFrame_scrubFloat (maintDebit { bs.foldl scrubBeat s with scrubWell := (s.scrubWell + 1) % 1509949440 }
    (stackCount s * costEntry 5 false)) 7 9 (s.scrubWell + 1) 1509949440 Reg.scrubWell
  obtain ⟨cist, well⟩ := rams_eq_iff.1 (rams_foldl scrubBeat (fun s b => wellCheck_rams s _ [b]) bs s)
  exact ⟨congrArg State.scrubWell float, (congrArg State.cist float).trans cist, (congrArg State.well float).trans well,
    (congrArg State.stns float).trans (stns_foldl (fun s b => wellCheck_stns s _ [b]) bs s)⟩

-- Text SRAM (R419)

/-- Patrol scrub meets nothing where no word is marked. -/
theorem exec_textScrub_clean {s : State} (clean : s.text.err = []) : exec .textScrub s = .next s := by
  show execTextScrub s = _
  simp [execTextScrub, clean, textReads, guard]

/-- Patrol scrub corrects and counts a single-bit error. -/
theorem exec_textScrub_single {s : State} {w : Nat} (text : hasText s = true) (powered : s.gov.ps ≠ .p4)
    (single : s.text.err = [(w, .single)]) :
    exec .textScrub s = .next (addReg { s with text := { s.text with err := [] } } Reg.textCe 1) := by
  show execTextScrub s = _
  simp [execTextScrub, single, textReads, tabDel, guard, text, powered]

/-- The rewrite of the oldest failing word. -/
theorem exec_textSramRepair {s : State} {w : Nat} {t : List Nat} (due : s.text.repair = w :: t) (running : s.tap.scan = false) :
    exec .textSramRepair s = .next { s with text := { s.text with
      repair := t, err := tabDel s.text.err w,
      sram := memWrite s.text.sram (8 * w) ((List.range 8).map (fun i => s.text.copy.getD (8 * w + i) 0)) } } := by
  show execTextSramRepair s = _
  simp [execTextSramRepair, textRepair, due, running, guard]

/-- Settles O41: maintenance is a debit, scrub repairs marks, and a repair writes one word. -/
theorem maintenanceAndScrubChangeNoData : Obligations.MaintenanceAndScrubChangeNoData := by
  refine ⟨fun s => ⟨?_, ?_, fun on => exec_scrubCistLine (scrubOn_of_mem on), fun on => exec_scrubWellBeat (scrubOn_of_mem on)⟩,
    fun s => ⟨fun _ _ clean => exec_textScrub_clean clean, ?_, ?_⟩⟩
  · exact fun awake powered => ⟨_, _, guard_of (wellOn_of_awake awake powered) s _, rfl, rfl⟩
  · exact fun awake powered => ⟨_, _, guard_of (wellOn_of_awake awake powered) s _, rfl, rfl⟩
  · exact fun w text powered single below => ⟨_, exec_textScrub_single text powered single, rfl, reg_addReg_one below, rfl⟩
  · intro w t due running
    refine ⟨_, exec_textSramRepair due running, rfl, rfl, fun i hi => ?_, fun a outside => ?_⟩
    · rw [tabGet_memWrite, dif_pos (by simp [hi])]
      simp
    · rw [tabGet_memWrite, dif_neg (by rw [List.length_map, List.length_range]; omega)]

end Sys2Proof.Machine

/-! PROOFS. Rules of the station controller (R158, R162, R174 to R180): what a unit's steps leave of the part, what a thread that
parks or traps leaves of its station, and how an instruction is held for the trap context. -/

namespace Sys2Proof.Machine

-- transient traps (R174, R176)

/-- R174: what a transient trap does. The thread is trapped at its instruction with the cause, it stands last in the trap context's
queue, and nothing outside its unit changes. -/
structure TakesTransient (u t cause : Nat) (i : InFlight) (s s' : State) : Prop where
  traps : TrapsWith u t cause i s'
  queued : (stn s' u).trapQ = (stn s u).trapQ ++ [t]
  only : OnlyUnit u s s'

/-- What an instruction that takes a transient trap leaves of its station: its thread waits for the trap context. -/
def transientStn (x : Station) (t pc cause : Nat) : Station :=
  let x := markHeld (modThr x t (fun h => { h with st := .trapped, cause := cause, pc := pc })) t
  { x with trapQ := x.trapQ ++ [t] }

@[simp] theorem finish_transient (u t : Nat) (i : InFlight) (s : State) (cause : Nat) :
    finish u t i s (.transient cause) = modStn s u (fun x => transientStn x t i.pc cause) := rfl

theorem thr_transientStn (x : Station) (t pc cause : Nat) :
    thr (transientStn x t pc cause) t = { thr x t with st := .trapped, cause := cause, pc := pc } := by
  show thr (markHeld _ t) t = _
  rw [thr_markHeld, thr_modThr, if_pos rfl]

@[simp] theorem markHeld_trapQ (x : Station) (t : Nat) : (markHeld x t).trapQ = x.trapQ := by rw [markHeld_eq_withPipe]

theorem trapQ_transientStn (x : Station) (t pc cause : Nat) : (transientStn x t pc cause).trapQ = x.trapQ ++ [t] := by
  simp only [transientStn, markHeld_trapQ]; rfl

theorem finish_transient_takesTransient (u t : Nat) (i : InFlight) (s : State) (cause : Nat) :
    TakesTransient u t cause i s (finish u t i s (.transient cause)) := by
  rw [finish_transient]
  refine ⟨?_, ?_, onlyUnit_modStn ..⟩
  · rw [TrapsWith, stn_modStn, if_pos rfl, thr_transientStn]
    exact ⟨rfl, rfl, rfl⟩
  · rw [stn_modStn, if_pos rfl]
    exact trapQ_transientStn ..

-- steps of one unit

/-- A further change of the unit's station is still a change of that unit only. -/
theorem OnlyUnit.modStn {u : Nat} {s t : State} (h : OnlyUnit u s t) (f : Station → Station) : OnlyUnit u s (modStn t u f) :=
  ⟨h.rest, fun v hv => by simp [hv, h.units v hv]⟩

theorem thr_setThr_same (x : Station) (t : Nat) (h : Thread) : thr (setThr x t h) t = h := by simp

theorem tabPut_tabPut {α : Type} (l : Tab α) (i : Nat) (v w : α) : tabPut (tabPut l i v) i w = tabPut l i w := by
  induction l with
  | nil => simp [tabPut]
  | cons p l ih =>
    obtain ⟨k, x⟩ := p
    by_cases below : i < k
    · simp [tabPut, below]
    · by_cases here : i = k
      · simp [tabPut, here]
      · simp [tabPut, below, here, ih]

/-- Of two writes of a thread's record the second stands. -/
theorem setThr_setThr (x : Station) (t : Nat) (h k : Thread) : setThr (setThr x t h) t k = setThr x t k := by
  simp only [setThr, tabPut_tabPut]

-- the pipe

/-- A thread without instructions has no oldest one. -/
theorem front_of_empty {x : Station} {t : Nat} (none_left : ∀ i ∈ x.pipe, i.thread ≠ t) : front x t = none :=
  List.find?_eq_none.2 fun i hi => by simpa using none_left i hi

theorem not_mem_flush {x : Station} {t : Nat} {i : InFlight} (h : i ∈ (flush x t).pipe) : i.thread ≠ t := by
  simpa using (List.mem_filter.1 h).2

/-- R179: applying held program writes changes program memory, its error marks and the held writes, and nothing else. -/
theorem pmApply_eq (x : Station) (l : List (Nat × Word)) :
    pmApply x l = { x with pm := (pmApply x l).pm, pmErr := (pmApply x l).pmErr } := by
  induction l generalizing x with
  | nil => rfl
  | cons p l ih => rw [pmApply, ih]

theorem pmFlush_eq (x : Station) :
    pmFlush x = { x with pm := (pmFlush x).pm, pmErr := (pmFlush x).pmErr, pmHeld := (pmFlush x).pmHeld } := by
  unfold pmFlush; split
  · rw [pmApply_eq]
  · rfl

@[simp] theorem pmFlush_pipe (x : Station) : (pmFlush x).pipe = x.pipe := by rw [pmFlush_eq]
@[simp] theorem pmFlush_brkHit (x : Station) : (pmFlush x).brkHit = x.brkHit := by rw [pmFlush_eq]

-- parking (R158, R178)

/-- What a thread that parks at `pc` leaves of its station. -/
def parkedStn (x : Station) (t pc : Nat) : Station :=
  pmFlush (flush (modThr x t (fun h => { h with st := .parked, pc := pc % 2 ^ 14 })) t)

/-- A thread that is not being single-stepped parks without a change outside its station. -/
theorem parkAt_eq_modStn {s : State} {u t : Nat} (notStepped : (stn s u).stepThread ≠ some t) (pc : Nat) :
    parkAt s u t pc = modStn s u (fun x => parkedStn x t pc) := by
  rw [parkAt, stepEnd, if_neg notStepped]; rfl

theorem thr_parkedStn (x : Station) (t pc k : Nat) :
    thr (parkedStn x t pc) k = if k = t then { thr x t with st := .parked, pc := pc % 2 ^ 14 } else thr x k := by
  rw [parkedStn, thr_pmFlush, thr_flush, thr_modThr]

theorem not_mem_parkedStn {x : Station} {t pc : Nat} : ∀ i ∈ (parkedStn x t pc).pipe, i.thread ≠ t := by
  intro i hi
  rw [parkedStn, pmFlush_pipe] at hi
  exact not_mem_flush hi

@[simp] theorem front_parkedStn (x : Station) (t pc : Nat) : front (parkedStn x t pc) t = none := front_of_empty not_mem_parkedStn

@[simp] theorem parkedStn_brkHit (x : Station) (t pc : Nat) : (parkedStn x t pc).brkHit = x.brkHit := pmFlush_brkHit _

/-- A parked thread has no instruction left to depart. -/
theorem popFront_parkedStn (x : Station) (t pc : Nat) : popFront (parkedStn x t pc) t = parkedStn x t pc := by
  have none_left : (parkedStn x t pc).pipe.eraseP (fun i => i.thread == t) = (parkedStn x t pc).pipe :=
    List.eraseP_of_forall_not fun i hi => by simpa using not_mem_parkedStn i hi
  rw [popFront, none_left]

end Sys2Proof.Machine

/-! PROOFS. Traps of calls, returns, loads and stores (R167, R172 to R175, R198): the outcome of each body where it finds no room,
no entry, or an address out of place. -/

namespace Sys2Proof.Machine

open Sys2Proof.Stated

theorem callBody_of_limit {s : State} {u : Nat} {i : InFlight} (full : (thr (stn s u) i.thread).stack.length = 16)
    (spilled : (thr (stn s u) i.thread).spill = 128) (target : State → InFlight → Nat) : callBody u target s i = .trap 4 s := by
  simp [callBody, full, spilled]

theorem callBody_of_spillRoom {s : State} {u : Nat} {i : InFlight} (full : (thr (stn s u) i.thread).stack.length = 16)
    (room : (thr (stn s u) i.thread).spill < 128) (target : State → InFlight → Nat) : callBody u target s i = .transient 1 := by
  simp [callBody, full, room]

theorem retBody_of_empty {s : State} {u : Nat} {i : InFlight} (empty : (thr (stn s u) i.thread).stack = []) :
    retBody u s i = if 0 < (thr (stn s u) i.thread).spill then .transient 2 else .trap 5 s := by
  simp [retBody, empty]

/-- R198: an access is misplaced where it is misaligned or ends above general storage. -/
theorem misplaced {s : State} {u n : Nat} {i : InFlight} (h : spillBase < localAddr s u i + n ∨ localAddr s u i % n ≠ 0) :
    (!inGeneral (memAddr s u i) n || memAddr s u i % n != 0) = true := by
  simpa [memAddr_eq_localAddr, inGeneral] using h

theorem loadBody_misplaced {s : State} {u n : Nat} {i : InFlight}
    (h : spillBase < localAddr s u i + n ∨ localAddr s u i % n ≠ 0) (f : Nat → Word) : loadBody u n f s i = .trap 6 s := by
  simp only [loadBody, misplaced h, if_true]

theorem storeBody_misplaced {s : State} {u n : Nat} {i : InFlight}
    (h : spillBase < localAddr s u i + n ∨ localAddr s u i % n ≠ 0) : storeBody u n s i = .trap 6 s := by
  simp only [storeBody, misplaced h, if_true]

/-- Table 06.6: the loads and stores, and the bytes each accesses. -/
def accessOps : List (ThreadCmd × SOp × Nat) :=
  [(.lw, .lw, 4), (.lh, .lh, 2), (.lhu, .lhu, 2), (.lb, .lb, 1), (.lbu, .lbu, 1), (.sw, .sw, 4), (.sh, .sh, 2), (.sb, .sb, 1)]

/-- R197: every access of the table is a load or a store of its bytes. -/
theorem exec_access {c : ThreadCmd} {op : SOp} {n : Nat} (h : (c, op, n) ∈ accessOps) (u t : Nat) (s : State) :
    (∃ f, exec (c u t) s = retire op (loadBody u n f) u t s) ∨ exec (c u t) s = retire op (storeBody u n) u t s := by
  simp only [accessOps, List.mem_cons, Prod.mk.injEq, List.not_mem_nil, or_false] at h
  rcases h with ⟨rfl, rfl, rfl⟩ | ⟨rfl, rfl, rfl⟩ | ⟨rfl, rfl, rfl⟩ | ⟨rfl, rfl, rfl⟩ | ⟨rfl, rfl, rfl⟩ | ⟨rfl, rfl, rfl⟩ |
    ⟨rfl, rfl, rfl⟩ | ⟨rfl, rfl, rfl⟩
  exacts [.inl ⟨_, rfl⟩, .inl ⟨_, rfl⟩, .inl ⟨_, rfl⟩, .inl ⟨_, rfl⟩, .inl ⟨_, rfl⟩, .inr rfl, .inr rfl, .inr rfl]

theorem exec_access_misplaced {c : ThreadCmd} {op : SOp} {n : Nat} (h : (c, op, n) ∈ accessOps)
    {s : State} {u t : Nat} {i : InFlight} (at_ : AtRetire op s u t i)
    (bad : spillBase < localAddr s u i + n ∨ localAddr s u i % n ≠ 0) :
    exec (c u t) s = .next (finish u t i s (.trap 6 s)) := by
  obtain ⟨f, load⟩ | store := exec_access h u t s
  · rw [load, retire_of at_, loadBody_misplaced bad]
  · rw [store, retire_of at_, storeBody_misplaced bad]

/-- Settles O5: a full stack and a full spill area, an empty stack and an empty spill area, and a misplaced address each have
their body's trap. -/
theorem scalarTrapsHaveTheirCause : Obligations.ScalarTrapsHaveTheirCause := by
  refine ⟨?_, ?_, ?_⟩
  · intro s u t i c op hc at_
    have call : exec (c u t) s = .next (finish u t i s (callBody u (callTarget u) s i)) := by
      simp only [List.mem_cons, Prod.mk.injEq, List.not_mem_nil, or_false] at hc
      obtain ⟨rfl, rfl⟩ | ⟨rfl, rfl⟩ := hc
      · exact retire_of at_ _
      · exact retire_of at_ _
    obtain rfl := front_thread at_.oldest
    refine ⟨fun full spilled => ⟨_, call, ?_⟩, fun full room => ⟨_, call, ?_⟩⟩
    · rw [callBody_of_limit full spilled]
      exact finish_trap_trapsWith ..
    · rw [callBody_of_spillRoom full room]
      have transient := finish_transient_takesTransient u i.thread i s 1
      exact ⟨transient.traps, transient.queued, transient.only.rest⟩
  · intro s u t i at_ empty
    obtain rfl := front_thread at_.oldest
    have ret : exec (.ret u i.thread) s = .next (finish u i.thread i s (retBody u s i)) := retire_of at_ _
    rw [retBody_of_empty empty] at ret
    refine ⟨fun unspilled => ⟨_, ret, ?_⟩, fun spilled => ⟨_, ret, ?_⟩⟩
    · rw [if_neg (by omega)]
      exact finish_trap_trapsWith ..
    · rw [if_pos spilled]
      have transient := finish_transient_takesTransient u i.thread i s 2
      exact ⟨transient.traps, transient.queued⟩
  · intro c op n h s u t i at_ bad
    exact ⟨_, exec_access_misplaced h at_ bad, finish_trap_trapsWith .., (rams_eq_iff.1 (fatalTrap_rams ..)).1⟩

end Sys2Proof.Machine

/-! PROOFS. Event instructions, waits and remote signals (R169 to R171, R199, R200, R282). -/

namespace Sys2Proof.Machine

open Sys2Proof.Stated

-- counters (R169)

/-- A write of a counter changes that counter and nothing else of the station. -/
theorem setsEvent_evSet (x : Station) (e : Nat) (v : Word) : SetsEvent e v x (evSet x e v) :=
  ⟨by simp, fun k hk => by simp [hk], rfl⟩

theorem exec_esig {s : State} {u t : Nat} {i : InFlight} (at_ : AtRetire .esig s u t i) : exec (.esig u t) s =
    .next (finish u t i s (if bits i.word 15 8 = 0 then .trap 3 s
      else .done (modStn s u (fun x => evAdd x (fRd i.word) (bits i.word 15 8))))) := by
  show execEsig u t s = _
  exact retire_of at_ _

theorem exec_eset {s : State} {u t : Nat} {i : InFlight} (at_ : AtRetire .eset s u t i) : exec (.eset u t) s =
    .next (finish u t i s (.done (modStn s u (fun x => evSet x (fRd i.word) (opA s u i))))) := by
  show execEset u t s = _
  exact retire_of at_ _

theorem exec_erd {s : State} {u t : Nat} {i : InFlight} (at_ : AtRetire .erd s u t i) : exec (.erd u t) s =
    .next (finish u t i s (.done (writeS s u i (fRa i.word) (evGet (stn s u) (fRd i.word))))) := by
  show execErd u t s = _
  exact retire_of at_ _

-- waits (R171)

theorem waitTrue_iff {x : Station} {e : Nat} {target : Word} : waitTrue x e target = true ↔ waitMet x e target := decide_eq_true_iff

/-- A wait whose condition holds observes the chains that signal its counter; one whose condition does not hold is held with
its thread in WAIT. -/
theorem exec_ewait {s : State} {u t : Nat} {i : InFlight} (at_ : AtRetire .ewait s u t i) : exec (.ewait u t) s =
    .next (finish u t i s (if waitTrue (stn s u) (fRd i.word) (opA s u i) then
        .done (modStn s u (fun x => chainSeen x (fRd i.word)))
      else .hold (modStn s u (fun x => modThr x i.thread (fun h =>
        { h with st := .wait, waitEv := fRd i.word, waitTarget := (opA s u i).toNat }))))) := retire_of at_ _

/-- A write of a thread's record leaves the pipe. -/
theorem front_modThr (x : Station) (t k : Nat) (f : Thread → Thread) : front (modThr x t f) k = front x k := rfl

/-- A waiting thread whose condition holds returns to RUN without its EWAIT. -/
theorem exec_waitWake {s : State} {u t : Nat} (runs : unitRuns s u = true) (waits : (thr (stn s u) t).st = .wait)
    (met : waitMet (stn s u) (thr (stn s u) t).waitEv (BitVec.ofNat 32 (thr (stn s u) t).waitTarget)) :
    exec (.waitWake u t) s = .next (modStn s u (fun x =>
      popFront (modThr (notStuck (chainSeen x (thr (stn s u) t).waitEv)) t (fun h => { h with st := .run })) t)) :=
  guard_of (by simp [runs, waits, waitTrue_iff.2 met]) s _

/-- Settles O6: each instruction's outcome is one change of the station, or a trap. -/
theorem eventInstructionsAndWaitsActOnTheirCounter : Obligations.EventInstructionsAndWaitsActOnTheirCounter := by
  constructor
  · intro s u t i
    refine ⟨fun at_ counts => ⟨_, _, exec_esig at_, setsEvent_evSet _ _ _, ?_⟩, fun at_ zero => ⟨_, exec_esig at_, ?_⟩,
      fun at_ => ⟨_, _, exec_eset at_, setsEvent_evSet _ _ _, ?_⟩, fun at_ => ⟨_, exec_erd at_, ?_⟩⟩
    · rw [if_neg counts]
      exact retires_done u t i s (fun x => evAdd x (fRd i.word) (bits i.word 15 8))
    · rw [if_pos zero]
      exact finish_trap_trapsWith ..
    · exact retires_done u t i s (fun x => evSet x (fRd i.word) (opA s u i))
    · exact retiresReg_done (front_thread at_.oldest) ..
  · intro s u t
    refine ⟨fun i at_ met => ⟨_, exec_ewait at_, ?_⟩, fun i at_ unmet => ⟨_, exec_ewait at_, ?_⟩,
      fun runs waits met => ⟨_, exec_waitWake runs waits met, onlyUnit_modStn .., ?_⟩⟩
    · rw [if_pos (waitTrue_iff.2 met)]
      exact retires_done ..
    · obtain rfl := front_thread at_.oldest
      obtain ⟨-, station⟩ := holds_modStn u i.thread i s (fun x => modThr x i.thread (fun h =>
        { h with st := .wait, waitEv := fRd i.word, waitTarget := (opA s u i).toNat }))
      rw [if_neg (mt waitTrue_iff.1 unmet), station, thr_markHeld, thr_modThr, if_pos rfl]
      exact ⟨rfl, rfl, rfl, front_markHeld ((front_modThr ..).trans at_.oldest)⟩
    · rw [stn_modStn, if_pos rfl]; rfl

-- remote signals (R170, R199)

theorem testBit_seven {v : Nat} (h : v < 256) : v.testBit 7 = decide (128 ≤ v) := by
  rw [Nat.testBit_eq_decide_div_mod_eq, decide_eq_decide]; omega

/-- R199: the operands that name a work unit with a host. -/
theorem rsigTarget_iff {s : State} {v : Nat} : rsigTarget s v = true ↔
    v < 128 ∧ (hostOf s v).isSome ∨ 128 ≤ v ∧ v < 256 ∧ s.paired = true ∧ peerHosts s (v - 128) = true := by
  by_cases big : v < 256
  · have near (h : v < 128) : v % 128 = v := by omega
    have far (h : 128 ≤ v) : v % 128 = v - 128 := by omega
    by_cases h : 128 ≤ v
    · simp [rsigTarget, big, testBit_seven big, h, far h, Nat.not_lt.2 h]
    · simp [rsigTarget, big, testBit_seven big, h, near (Nat.lt_of_not_le h), Nat.lt_of_not_le h]
  · simp [rsigTarget, big, show ¬ v < 128 by omega]

theorem rsigBody_illegal {s : State} {u : Nat} {i : InFlight} (low : fRd i.word < 16) : rsigBody u s i = .trap 3 s := by
  simp [rsigBody, low]

theorem rsigBody_badTarget {s : State} {u : Nat} {i : InFlight} (remote : 16 ≤ fRd i.word)
    (bad : rsigTarget s (opA s u i).toNat = false) : rsigBody u s i = .trap 9 s := by
  simp [rsigBody, Nat.not_lt.2 remote, bad]

theorem rsigBody_full {s : State} {u : Nat} {i : InFlight} (remote : 16 ≤ fRd i.word)
    (target : rsigTarget s (opA s u i).toNat = true) (full : 8 ≤ (stn s u).outq.length) : rsigBody u s i = .hold s := by
  simp [rsigBody, Nat.not_lt.2 remote, target, full]

theorem rsigBody_room {s : State} {u : Nat} {i : InFlight} (remote : 16 ≤ fRd i.word)
    (target : rsigTarget s (opA s u i).toNat = true) (room : (stn s u).outq.length < 8) :
    rsigBody u s i = .done (modStn s u (fun x => { x with outq := x.outq ++
      [⟨u, (opA s u i).toNat % 128, decide (128 ≤ (opA s u i).toNat), fRd i.word⟩] })) := by
  have below : (opA s u i).toNat < 256 := by
    rcases rsigTarget_iff.1 target with ⟨near, -⟩ | ⟨-, far, -⟩ <;> omega
  simp [rsigBody, Nat.not_lt.2 remote, target, Nat.not_le.2 room, testBit_seven below]

/-- Settles O7: the cases are those of the counter, the target and the room in the queue. -/
theorem remoteSignalsEnterTheOutboundQueue : Obligations.RemoteSignalsEnterTheOutboundQueue := by
  intro s u t i at_
  have rsig : exec (.rsig u t) s = .next (finish u t i s (rsigBody u s i)) := retire_of at_ _
  refine ⟨?_, fun low => ⟨_, rsig, ?_⟩, fun remote bad => ⟨_, rsig, ?_⟩⟩
  · rintro v rfl remote named
    have target := rsigTarget_iff.2 named
    refine ⟨fun room => ⟨_, rsig, ?_⟩, fun full => ⟨_, rsig, ?_⟩⟩
    · rw [rsigBody_room remote target room]
      exact retires_done ..
    · rw [rsigBody_full remote target full, finish_hold]
      exact ⟨onlyUnit_modStn .., by simp⟩
  · rw [rsigBody_illegal low]
    exact finish_trap_trapsWith ..
  · have unnamed : rsigTarget s (opA s u i).toNat = false := by
      rw [← Bool.not_eq_true, rsigTarget_iff]
      rintro (⟨near, host⟩ | ⟨high, far, -⟩)
      · rcases bad with beyond | ⟨-, unhosted⟩
        · omega
        · simp [unhosted] at host
      · omega
    rw [rsigBody_badTarget remote unnamed]
    exact finish_trap_trapsWith ..

end Sys2Proof.Machine

/-! PROOFS. System instructions (R158, R210, R224): NOP, BRK, SETVL and PARK. -/

namespace Sys2Proof.Machine

theorem exec_nop {s : State} {u t : Nat} {i : InFlight} (at_ : AtRetire .nop s u t i) :
    exec (.nop u t) s = .next (finish u t i s (.done s)) := by
  show execNop u t s = _
  exact retire_of at_ _

theorem exec_brk {s : State} {u t : Nat} {i : InFlight} (at_ : AtRetire .brk s u t i) : exec (.brk u t) s =
    .next (finish u t i s (if (stn s u).brkArmed then
      .done (modStn (parkAt s u i.thread (i.pc + 1)) u (fun x => { x with brkHit := x.brkHit ++ [i.thread] }))
    else .done s)) := by
  show execBrk u t s = _
  exact retire_of at_ _

theorem exec_setvl {s : State} {u t : Nat} {i : InFlight} (at_ : AtRetire .setvl s u t i) : exec (.setvl u t) s =
    .next (finish u t i s (.done (writeS (modStn s u (fun x => modThr x i.thread (fun h =>
      { h with vl := min (opA s u i).toNat 64 }))) u i (fRd i.word) (BitVec.ofNat 32 (min (opA s u i).toNat 64))))) := by
  show execSetvl u t s = _
  exact retire_of at_ _

theorem exec_park {s : State} {u t : Nat} {i : InFlight} (at_ : AtRetire .park s u t i) :
    exec (.park u t) s = .next (finish u t i s (.done (parkAt s u i.thread (i.pc + 1)))) := by
  show execPark u t s = _
  exact retire_of at_ _

/-- An instruction that changes nothing only leaves the pipe. -/
theorem retires_unchanged (u t : Nat) (i : InFlight) (s : State) : Retires u t id s (finish u t i s (.done s)) :=
  by rw [finish_done]; exact ⟨onlyUnit_modStn .., by simp⟩

/-- Two changes of the thread's record retire as one. -/
theorem retiresThread_twice (u t : Nat) (i : InFlight) (s : State) (f g : Thread → Thread) :
    RetiresThread u t (fun _ => g (f (thr (stn s u) t))) s (finish u t i s
      (.done (modStn (modStn s u (fun x => modThr x t f)) u (fun x => modThr x t g)))) := by
  rw [finish_done]
  refine ⟨((onlyUnit_modStn ..).modStn _).modStn _, ?_⟩
  rw [stn_modStn, if_pos rfl, stn_modStn, if_pos rfl, stn_modStn, if_pos rfl, modThr, modThr, thr_setThr_same, setThr_setThr]

/-- What a PARK that is not single-stepped leaves: its thread parked after it, and nothing else of the part changed. -/
theorem finish_park {s : State} {u t : Nat} {i : InFlight} (own : i.thread = t) (notStepped : (stn s u).stepThread ≠ some t) :
    finish u t i s (.done (parkAt s u i.thread (i.pc + 1))) = modStn (modStn s u (fun x => parkedStn x t (i.pc + 1))) u
      (fun x => popFront x t) := by
  subst own
  rw [finish_done, parkAt_eq_modStn notStepped]

/-- R224: the report of a BRK changes no thread. -/
theorem thr_withBrkHit (x : Station) (hits : List Nat) (k : Nat) : thr { x with brkHit := hits } k = thr x k := rfl

/-- Settles O8: NOP and an unarmed BRK only leave the pipe, SETVL writes its thread's record, and PARK and an armed BRK park. -/
theorem systemInstructionsHaveTheirEffect : Obligations.SystemInstructionsHaveTheirEffect := by
  intro s u t i
  refine ⟨fun at_ => ⟨_, exec_nop at_, retires_unchanged ..⟩, fun at_ unarmed => ⟨_, exec_brk at_, ?_⟩,
    fun at_ armed notStepped => ⟨_, exec_brk at_, ?_⟩, fun at_ => ⟨_, _, exec_setvl at_, writesReg_swrite .., ?_⟩,
    fun at_ notStepped => ⟨_, exec_park at_, ?_⟩⟩
  · rw [if_neg (by simp [unarmed])]
    exact retires_unchanged ..
  · obtain rfl := front_thread at_.oldest
    rw [if_pos armed, finish_done, parkAt_eq_modStn notStepped]
    refine ⟨((onlyUnit_modStn ..).modStn _).modStn _, ?_⟩
    simp only [stn_modStn, if_true, thr_popFront]
    refine ⟨?_, ?_, front_of_empty fun j hj => ?_, ?_⟩
    · rw [thr_withBrkHit, thr_parkedStn, if_pos rfl]
    · rw [thr_withBrkHit, thr_parkedStn, if_pos rfl]; rfl
    · exact not_mem_parkedStn j (List.mem_of_mem_eraseP hj)
    · show (parkedStn (stn s u) i.thread (i.pc + 1)).brkHit ++ [i.thread] = _
      rw [parkedStn_brkHit]
  · obtain rfl := front_thread at_.oldest
    exact retiresThread_twice ..
  · rw [finish_park (front_thread at_.oldest) notStepped]
    refine ⟨(onlyUnit_modStn ..).modStn _, ?_⟩
    simp only [stn_modStn, if_true, popFront_parkedStn, thr_parkedStn, front_parkedStn, true_and]
    exact ⟨rfl, fun k hk => if_neg hk⟩

end Sys2Proof.Machine

/-! PROOFS. Issue, and what retires after being held (R159, R160, R162, R166, R175, R192, R223): a cycle of the controller traps what is
no instruction and issues from the first eligible thread, and a held instruction leaves with its body's outcome. -/

namespace Sys2Proof.Machine

-- issue (R159, R160, R166)

/-- The issue of one instruction, where a thread is eligible. -/
def issueFirst (s : State) (u : Nat) : State :=
  match (issueOrder (stn s u).lastIssue).find? (eligible (stn s u)) with
  | some t => issueFrom s u t
  | none => s

/-- A cycle of a unit that runs. -/
theorem exec_instrIssue {s : State} {u : Nat} (runs : unitRuns s u = true) :
    exec (.instrIssue u) s = .next (issueFirst (trapBad s u) u) :=
  guard_of runs s (issueFirst (trapBad s u) u)

theorem issueFirst_of_some {s : State} {u t : Nat}
    (first : (issueOrder (stn s u).lastIssue).find? (eligible (stn s u)) = some t) : issueFirst s u = issueFrom s u t := by
  simp only [issueFirst, first]

theorem trapBad_of_none {s : State} {u : Nat} (good : badHead (stn s u) = none) : trapBad s u = s := by
  simp only [trapBad, good]

theorem trapBad_of_some {s : State} {u t : Nat} {i : InFlight} (bad : badHead (stn s u) = some t)
    (oldest : front (stn s u) t = some i) : trapBad s u = fatalTrap s u t i.pc (if pmBad (stn s u) i.pc then 7 else 3) := by
  simp only [trapBad, bad, oldest]

/-- The station whose thread `t` is the one to issue: it is the last that did. -/
def chosenStn (x : Station) (t : Nat) : Station :=
  { x with lastIssue := t, stepIssued := x.stepIssued || x.stepThread == some t }

/-- The word at `pc` enters the pipe, and its thread goes on to the next address. -/
def fetchedStn (x : Station) (t pc : Nat) : Station :=
  { modThr x t (fun h => { h with pc := (pc + 1) % 2 ^ 14 }) with pipe := x.pipe ++ [⟨t, pc, pmFetch x pc, false⟩] }

/-- R166: the correction of a single-bit error at `pc`, as a fetch makes it. -/
def correctedFetch (s : State) (u pc : Nat) : State :=
  match pmMark (stn s u) pc with
  | some .single => addReg (modStn s u (fun x => { x with pmErr := tabDel x.pmErr pc })) Reg.pmCe 1
  | _ => s

theorem issueFrom_eq (s : State) (u t : Nat) : issueFrom s u t =
    modStn (correctedFetch (modStn s u (fun x => chosenStn x t)) u (thr (stn s u) t).pc) u
      (fun x => fetchedStn x t (thr (stn s u) t).pc) := by
  have pc : (thr (stn (modStn s u (fun x => chosenStn x t)) u) t).pc = (thr (stn s u) t).pc := by
    rw [stn_modStn, if_pos rfl]; rfl
  rw [← pc]; rfl

theorem thr_fetchedStn (x : Station) (t pc k : Nat) :
    thr (fetchedStn x t pc) k = if k = t then { thr x t with pc := (pc + 1) % 2 ^ 14 } else thr x k :=
  thr_modThr x t k (fun h => { h with pc := (pc + 1) % 2 ^ 14 })

theorem correctedFetch_of_none {s : State} {u pc : Nat} (clean : pmMark (stn s u) pc = none) : correctedFetch s u pc = s := by
  simp only [correctedFetch, clean]

theorem correctedFetch_of_single {s : State} {u pc : Nat} (single : pmMark (stn s u) pc = some .single) :
    correctedFetch s u pc = addReg (modStn s u (fun x => { x with pmErr := tabDel x.pmErr pc })) Reg.pmCe 1 := by
  simp only [correctedFetch, single]

/-- The correction of a fetched word changes no thread. -/
theorem thr_correctedFetch (s : State) (u pc k : Nat) : thr (stn (correctedFetch s u pc) u) k = thr (stn s u) k := by
  unfold correctedFetch; split
  · rw [stn_of_stns (addReg_stns ..), stn_modStn, if_pos rfl]; rfl
  · rfl

theorem thr_issueFrom (s : State) (u t k : Nat) : thr (stn (issueFrom s u t) u) k =
    if k = t then { thr (stn s u) t with pc := ((thr (stn s u) t).pc + 1) % 2 ^ 14 } else thr (stn s u) k := by
  rw [issueFrom_eq, stn_modStn, if_pos rfl, thr_fetchedStn, thr_correctedFetch, thr_correctedFetch, stn_modStn, if_pos rfl]
  rfl

/-- A word without an error mark is fetched as it stands. -/
theorem pmFetch_of_none {x : Station} {pc : Nat} (clean : pmMark x pc = none) : pmFetch x pc = pmWord x pc := by
  simp [pmFetch, pmBad, clean]

/-- Issue of a word without an error mark changes its unit only. -/
theorem issueFrom_clean {s : State} {u t : Nat} (clean : pmMark (stn s u) (thr (stn s u) t).pc = none) :
    issueFrom s u t = modStn (modStn s u (fun x => chosenStn x t)) u (fun x => fetchedStn x t (thr (stn s u) t).pc) := by
  have chosen : pmMark (stn (modStn s u (fun x => chosenStn x t)) u) (thr (stn s u) t).pc = none := by
    rw [stn_modStn, if_pos rfl]; exact clean
  rw [issueFrom_eq, correctedFetch_of_none chosen]

/-- Issue of a word with a single-bit error drops the mark and counts the correction. -/
theorem issueFrom_single {s : State} {u t : Nat} (single : pmMark (stn s u) (thr (stn s u) t).pc = some .single) :
    issueFrom s u t = modStn (addReg (modStn (modStn s u (fun x => chosenStn x t)) u
      (fun x => { x with pmErr := tabDel x.pmErr (thr (stn s u) t).pc })) Reg.pmCe 1) u
      (fun x => fetchedStn x t (thr (stn s u) t).pc) := by
  have chosen : pmMark (stn (modStn s u (fun x => chosenStn x t)) u) (thr (stn s u) t).pc = some .single := by
    rw [stn_modStn, if_pos rfl]; exact single
  rw [issueFrom_eq, correctedFetch_of_single chosen]

/-- R159: only a thread in RUN is eligible. -/
theorem run_of_eligible {x : Station} {t : Nat} (h : eligible x t = true) : (thr x t).st = .run := by
  simp only [eligible, Bool.and_eq_true, beq_iff_eq] at h
  obtain ⟨⟨⟨⟨⟨⟨inRun, -⟩, -⟩, -⟩, -⟩, -⟩, -⟩ := h
  exact inRun

/-- A thread that trapped where it would retire is not the one that issues. -/
theorem thr_issueFirst_of_trapped {s : State} {u t : Nat} (trapped : (thr (stn s u) t).st = .trapped) :
    thr (stn (issueFirst s u) u) t = thr (stn s u) t := by
  unfold issueFirst; split
  next k found =>
    have other : t ≠ k := by
      rintro rfl
      simp [run_of_eligible (List.find?_some found)] at trapped
    rw [thr_issueFrom, if_neg other]
  next => rfl

/-- Settles O21: without an instruction to trap, the first eligible thread's word is fetched; with one, its thread traps and
another may issue. -/
theorem issueTakesTheFirstEligibleThread : Obligations.IssueTakesTheFirstEligibleThread := by
  intro s u runs
  refine ⟨fun t good first => ?_, fun t i bad oldest => ⟨_, exec_instrIssue runs, ?_⟩⟩
  · have issue : exec (.instrIssue u) s = .next (issueFrom s u t) := by
      rw [exec_instrIssue runs, trapBad_of_none good, issueFirst_of_some first]
    refine ⟨fun clean => ⟨_, issue, ?_⟩, fun single below => ⟨_, issue, ?_, ?_, (thr_issueFrom ..).trans (if_pos rfl)⟩⟩
    · refine ⟨issueFrom_clean clean ▸ (onlyUnit_modStn ..).modStn _, ?_, ?_, (thr_issueFrom ..).trans (if_pos rfl),
        fun k hk => (thr_issueFrom ..).trans (if_neg hk)⟩
      · rw [issueFrom_clean clean, stn_modStn, if_pos rfl, stn_modStn, if_pos rfl]; rfl
      · rw [issueFrom_clean clean, stn_modStn, if_pos rfl, stn_modStn, if_pos rfl, ← pmFetch_of_none clean]; rfl
    · rw [issueFrom_single single]
      exact reg_addReg_one (s := modStn (modStn s u _) u _) below
    · rw [issueFrom_single single, stn_modStn, if_pos rfl, stn_of_stns (addReg_stns ..), stn_modStn, if_pos rfl, stn_modStn,
        if_pos rfl]
      rfl
  · obtain ⟨trapped, cause, pc⟩ := finish_trap_trapsWith u t i s s (if pmBad (stn s u) i.pc then 7 else 3)
    rw [← show trapBad s u = finish u t i s (.trap (if pmBad (stn s u) i.pc then 7 else 3) s) from trapBad_of_some bad oldest]
      at trapped cause pc
    rw [TrapsWith, thr_issueFirst_of_trapped trapped]
    exact ⟨trapped, cause, pc⟩

-- held instructions (R162, R223)

/-- A held instruction whose body is done retires with what the body did. -/
theorem exec_heldRetire {s s' : State} {u t : Nat} {i : InFlight} {op : SOp} (oldest : front (stn s u) t = some i)
    (held : i.held = true) (runs : unitRuns s u = true) (inRun : (thr (stn s u) t).st = .run) (isOp : sop i.word = some op)
    (freed : heldBody op u s i = .done s') : exec (.heldRetire u t) s = .next (finish u t i s (.done s')) := by
  show execHeldRetire u t s = _
  simp [execHeldRetire, oldest, held, runs, inRun, isOp, freed]

/-- The next close to be handed off has not had its boundary. -/
theorem nextClose_ne (x : Station) (t k : Nat) : nextClose x t ≠ some (k, true) := by
  simp [nextClose]

/-- Settles O22: room in the queue, or a boundary made, lets the held instruction's body be done. -/
theorem heldInstructionsRetireWhenFreed : Obligations.HeldInstructionsRetireWhenFreed := by
  intro s u t i oldest held runs inRun
  refine ⟨fun isOp remote near host room => ?_, fun isOp closed => ?_⟩
  · have freed := rsigBody_room remote (rsigTarget_iff.2 (.inl ⟨near, host⟩)) room
    rw [Nat.mod_eq_of_lt near, decide_eq_false (Nat.not_le.2 near)] at freed
    exact ⟨_, exec_heldRetire oldest held runs inRun isOp freed, retires_done ..⟩
  · have freed : stepcloseBody u s i = .done (modStn s u (fun x => { x with closing := nextClose x t })) := by
      simp [stepcloseBody, closed, front_thread oldest]
    obtain ⟨only, station⟩ := retires_done u t i s (fun x => { x with closing := nextClose x t })
    refine ⟨_, exec_heldRetire oldest held runs inRun isOp freed, only, ?_, ?_⟩
    · rw [station]; rfl
    · rw [station]; exact nextClose_ne _ t t

end Sys2Proof.Machine

/-! PROOFS. The trap context (R172 to R176): what a write of whole words to the cistern leaves (R113, R115), the spill of a full call
stack, and the fill of an empty one. -/

namespace Sys2Proof.Machine

open Sys2Proof.Stated

-- writes of the cistern (R113, R115)

@[simp] theorem rbForget_stns (s : State) (k n : Nat) : (rbForget s k n).stns = s.stns := by unfold rbForget; split <;> rfl

theorem cistWritePiece_stns (s : State) (g : Nat) (bs : List Byte) : (cistWritePiece s g bs).1.stns = s.stns := by
  unfold cistWritePiece; simp only; split
  · rfl
  · split
    · rfl
    · split
      · rfl
      · rfl
      · exact cistUeReport_stns ..

theorem cistWritePieces_stns (s : State) (l : List (Nat × List Byte)) : (cistWritePieces s l).1.stns = s.stns := by
  induction l generalizing s with
  | nil => rfl
  | cons p l ih => rw [cistWritePieces, ih, cistWritePiece_stns]

/-- A write of the cistern changes no station. -/
theorem cistWrite_stns (s : State) (u a : Nat) (bs : List Byte) : (cistWrite s u a bs).1.stns = s.stns := by
  unfold cistWrite; simp only; split
  · exact rbForget_stns ..
  · rw [cistWritePieces_stns, rbForget_stns]

/-- A whole 64-bit word is written whatever mark it had. -/
theorem cistWritePiece_cist_of_whole {bs : List Byte} (whole : bs.length = 8) (s : State) (g : Nat) :
    (cistWritePiece s g bs).1.cist = memWrite s.cist g bs := by
  unfold cistWritePiece; simp only; split
  · rfl
  · rfl

/-- A run of whole words, written word by word, is read back, and every other byte is as it was. -/
theorem cistByte_cistWritePieces {n fuel : Nat} (enough : n ≤ fuel) (s : State) {g : Nat} (aligned : g % 8 = 0) {bs : List Byte}
    (whole : bs.length = 8 * n) (j : Nat) : cistByte (cistWritePieces s (pieces 8 fuel g bs)).1 j =
      if h : g ≤ j ∧ j - g < bs.length then bs[j - g]'h.2 else cistByte s j := by
  induction n generalizing fuel s g bs with
  | zero =>
    obtain rfl := List.eq_nil_of_length_eq_zero whole
    cases fuel <;> simp [pieces, cistWritePieces]
  | succ n ih =>
    obtain ⟨fuel, rfl⟩ : ∃ k, fuel = k + 1 := ⟨fuel - 1, by omega⟩
    obtain ⟨b, tl, rfl⟩ := List.exists_cons_of_length_eq_add_one (whole.trans (by omega : 8 * (n + 1) = 8 * n + 7 + 1))
    have cut : pieces 8 (fuel + 1) g (b :: tl) = (g, (b :: tl).take 8) :: pieces 8 fuel (g + 8) ((b :: tl).drop 8) := by
      simp only [pieces, aligned, Nat.sub_zero]
    have first : ((b :: tl).take 8).length = 8 := by rw [List.length_take, whole]; omega
    have rest : ((b :: tl).drop 8).length = 8 * n := by rw [List.length_drop, whole]; omega
    rw [cut, cistWritePieces, ih (by omega) _ (by omega) rest]
    have word : cistByte (cistWritePiece s g ((b :: tl).take 8)).1 j =
        if h : g ≤ j ∧ j - g < 8 then (b :: tl)[j - g]'(by omega) else cistByte s j := by
      rw [cistByte, cistWritePiece_cist_of_whole first, tabGet_memWrite]
      simp only [first, List.getElem_take]
      rfl
    rw [word]
    by_cases here : g ≤ j ∧ j - g < 8
    · rw [dif_neg (by omega), dif_pos here, dif_pos (by omega)]
    · by_cases later : g ≤ j ∧ j - g < (b :: tl).length
      · rw [dif_pos (by omega), dif_pos later, List.getElem_drop]
        congr 1; omega
      · rw [dif_neg (by omega), dif_neg here, dif_neg later]

/-- R113, R115: whole words written to a unit's slice are read back, and every other byte of the cistern is as it was. -/
theorem cistByte_cistWrite (s : State) {u a n : Nat} (aligned : gaddr u a % 8 = 0) {bs : List Byte} (whole : bs.length = 8 * n) (j : Nat) :
    cistByte (cistWrite s u a bs).1 j =
      if h : gaddr u a ≤ j ∧ j - gaddr u a < bs.length then bs[j - gaddr u a]'h.2 else cistByte s j := by
  have forgot (k m : Nat) : cistByte (rbForget s k m) j = cistByte s j := by rw [cistByte, rbForget_cist]; rfl
  unfold cistWrite; simp only; split
  · simp only [cistByte, tabGet_memWrite, rbForget_cist]
  · rw [cistByte_cistWritePieces (n := n) (by omega) _ aligned whole, forgot]

-- words and their bytes (R11)

@[simp] theorem length_leBytes (n x : Nat) : (leBytes n x).length = n := by
  induction n generalizing x with
  | zero => rfl
  | succ n ih => simp [leBytes, ih]

@[simp] theorem length_flatMap_leBytes (l : List Nat) : (l.flatMap (leBytes 4)).length = 4 * l.length := by
  simp [List.length_flatMap, Nat.mul_comm]

/-- The bytes of the word at position `k` of a run of words. -/
theorem take_drop_flatMap_leBytes {l : List Nat} {k : Nat} (h : k < l.length) :
    ((l.flatMap (leBytes 4)).drop (4 * k)).take 4 = leBytes 4 l[k] := by
  induction l generalizing k with
  | nil => simp at h
  | cons x l ih =>
    cases k with
    | zero => exact List.take_left' (length_leBytes 4 x)
    | succ k =>
      have next : 4 * (k + 1) = (leBytes 4 x).length + 4 * k := by rw [length_leBytes]; omega
      rw [List.flatMap_cons, next, List.drop_length_add_append, List.getElem_cons_succ]
      exact ih (by simpa using h)

/-- Reading part of a run of bytes gives that part of it. -/
theorem memRead_of_run {m : List Host.Cell} {g : Nat} {bs : List Byte}
    (run : ∀ j (h : j < bs.length), tabGet 0 m (g + j) = bs[j]) {o n : Nat} (inside : o + n ≤ bs.length) :
    memRead m (g + o) n = (bs.drop o).take n := by
  refine List.ext_getElem (by simp; omega) fun k hk _ => ?_
  rw [length_memRead] at hk
  rw [getElem_memRead, List.getElem_take, List.getElem_drop, Nat.add_assoc, run]

/-- A part of the bytes of a run read from memory is a shorter read. -/
theorem take_drop_map_cistByte (s : State) (g : Nat) {o n m : Nat} (inside : o + n ≤ m) :
    (((List.range m).map (fun k => cistByte s (g + k))).drop o).take n = memRead s.cist (g + o) n := by
  refine (memRead_of_run (fun j hj => ?_) (by simpa using inside)).symm
  simp [cistByte]

-- the spill (R174)

/-- The trap context has taken a trap off its queue, of which `rest` is left. -/
def dequeued (s : State) (u : Nat) (rest : List Nat) : State := modStn s u (fun x => { x with trapQ := rest })

theorem stn_dequeued (s : State) (u : Nat) (rest : List Nat) : stn (dequeued s u rest) u = { stn s u with trapQ := rest } := by
  rw [dequeued, stn_modStn, if_pos rfl]

@[simp] theorem thr_dequeued (s : State) (u : Nat) (rest : List Nat) (t : Nat) :
    thr (stn (dequeued s u rest) u) t = thr (stn s u) t := by rw [stn_dequeued]; rfl

/-- R176: the trap context takes the oldest transient trap off its queue, and serves it. -/
theorem exec_trapService {s : State} {u t : Nat} {i : InFlight} {rest : List Nat} (queue : (stn s u).trapQ = t :: rest)
    (oldest : front (stn s u) t = some i) (resident : isResident s u = true) (released : (stn s u).inReset = false)
    (trapped : (thr (stn s u) t).st = .trapped) : exec (.trapService u) s =
      .next (if (thr (stn s u) t).cause = 1 then serveSpill (dequeued s u rest) u t i
        else serveFill (dequeued s u rest) u t i) := by
  show execTrapService u s = _
  simp [execTrapService, dequeued, queue, oldest, resident, released, trapped]

theorem callTarget_of_stn {s s' : State} {u : Nat} {i : InFlight} (h : thr (stn s' u) i.thread = thr (stn s u) i.thread) :
    callTarget u s' i = callTarget u s i := by
  simp only [callTarget, opA, h]

/-- The target of a call that the trap context serves. -/
theorem callTarget_mod {s : State} {u target : Nat} {i : InFlight}
    (call : sop i.word = some .call ∧ target = i.word % 16384 ∨ sop i.word = some .callr ∧ target = (opA s u i).toNat % 16384) :
    callTarget u s i % 2 ^ 14 = target := by
  obtain ⟨isOp, rfl⟩ | ⟨isOp, rfl⟩ := call
  · simp [callTarget, isOp, bits]
  · simp [callTarget, isOp]

/-- The thread's record once its call has spilled 8 entries. -/
def spilledThread (h : Thread) (pc target : Nat) : Thread :=
  { h with stack := (pc + 1) % 2 ^ 14 :: h.stack.take 8, spill := h.spill + 1, pc := target, st := .run }

/-- The bytes of the 8 oldest entries of a full stack, oldest first. -/
def spillBytes (h : Thread) : List Byte := (h.stack.drop 8).reverse.flatMap (leBytes 4)

/-- The cistern once a full stack has spilled. -/
def spillWrite (s : State) (u t : Nat) : State :=
  (cistWrite s u (spillAddr t (thr (stn s u) t).spill) (spillBytes (thr (stn s u) t))).1

theorem serveSpill_eq (s : State) (u t : Nat) (i : InFlight) : serveSpill s u t i = modStn (spillWrite s u t) u (fun x =>
    popFront (modThr x t (fun h => spilledThread h i.pc (callTarget u (spillWrite s u t) i % 2 ^ 14))) t) := rfl

theorem stn_serveSpill (s : State) (u t : Nat) (i : InFlight) : stn (serveSpill s u t i) u =
    popFront (modThr (stn s u) t (fun h => spilledThread h i.pc (callTarget u s i % 2 ^ 14))) t := by
  have same : stn (spillWrite s u t) u = stn s u := stn_of_stns (cistWrite_stns ..) u
  rw [serveSpill_eq, stn_modStn, if_pos rfl, same, callTarget_of_stn (congrArg (thr · i.thread) same)]

theorem length_spillBytes {h : Thread} (full : h.stack.length = 16) : (spillBytes h).length = 8 * 4 := by
  simp [spillBytes, full]

/-- The word that a full stack spills at position `k`: its oldest entry first. -/
theorem spillBytes_word {h : Thread} (full : h.stack.length = 16) {k : Nat} (hk : k < 8) :
    ((spillBytes h).drop (4 * k)).take 4 = leBytes 4 (h.stack.getD (15 - k) 0) := by
  have inside : k < (h.stack.drop 8).reverse.length := by simp [full, hk]
  have entry : (h.stack.drop 8).reverse[k] = h.stack.getD (15 - k) 0 := by
    rw [List.getElem_reverse, List.getElem_drop, List.getD_eq_getElem _ _ (by omega)]
    congr 1; rw [List.length_drop, full]; omega
  rw [spillBytes, take_drop_flatMap_leBytes inside, entry]

/-- A served spill leaves its thread in RUN at the call's target, and the call out of the pipe. -/
theorem stn_serveSpill_dequeued {s : State} {u t target : Nat} {i : InFlight} (own : i.thread = t)
    (call : sop i.word = some .call ∧ target = i.word % 16384 ∨ sop i.word = some .callr ∧ target = (opA s u i).toNat % 16384)
    (rest : List Nat) : stn (serveSpill (dequeued s u rest) u t i) u =
      popFront (setThr { stn s u with trapQ := rest } t (spilledThread (thr (stn s u) t) i.pc target)) t := by
  subst own
  rw [stn_serveSpill, callTarget_of_stn (thr_dequeued s u rest i.thread), callTarget_mod call, modThr, thr_dequeued, stn_dequeued]

/-- A spill group starts at a multiple of 8 (R173). -/
theorem gaddr_spillAddr_aligned (u t g : Nat) : gaddr u (spillAddr t g) % 8 = 0 := by
  unfold gaddr spillAddr spillBase; omega

/-- A served spill writes the entries to the thread's next group, and nothing else to the cistern. -/
theorem cistByte_serveSpill {s : State} {u t : Nat} (full : (thr (stn s u) t).stack.length = 16) (i : InFlight)
    (rest : List Nat) (g : Nat) : cistByte (serveSpill (dequeued s u rest) u t i) g =
      if h : gaddr u (spillAddr t (thr (stn s u) t).spill) ≤ g ∧
          g - gaddr u (spillAddr t (thr (stn s u) t).spill) < (spillBytes (thr (stn s u) t)).length
      then (spillBytes (thr (stn s u) t))[g - gaddr u (spillAddr t (thr (stn s u) t).spill)]'h.2 else cistByte s g := by
  rw [serveSpill_eq]
  show cistByte (spillWrite (dequeued s u rest) u t) g = _
  rw [spillWrite, thr_dequeued]
  exact cistByte_cistWrite (dequeued s u rest) (gaddr_spillAddr_aligned ..) (length_spillBytes full) g

-- the fill (R174)

/-- The thread's record once the 8 entries of its last group are back and its return has continued at the newest. -/
def filledThread (h : Thread) (bs : List Byte) : Thread :=
  { h with stack := (groupWords bs).reverse.drop 1, spill := h.spill - 1, pc := (groupWords bs).reverse.headD 0, st := .run }

/-- A group without an error mark is read back, and nothing but the unit changes. -/
theorem serveFill_of_clean {s : State} {u t : Nat} {i : InFlight}
    (clean : cleanRange s u (spillAddr t ((thr (stn s u) t).spill - 1)) 32) : serveFill s u t i =
      modStn s u (fun x => popFront (modThr x t (fun h => filledThread h ((List.range 32).map (fun k =>
        cistByte s (gaddr u (spillAddr t ((thr (stn s u) t).spill - 1)) + k))))) t) := by
  rw [serveFill, cistRead_of_clean clean]; rfl

/-- The entries of a group read back: those that stand in the cistern, the newest first. -/
theorem filledThread_entries (s : State) (g : Nat) (h : Thread) :
    (filledThread h ((List.range 32).map (fun k => cistByte s (g + k)))).pc ::
      (filledThread h ((List.range 32).map (fun k => cistByte s (g + k)))).stack =
      (List.range 8).map (fun k => leNat (memRead s.cist (g + 4 * (7 - k)) 4) % 16384) := by
  have word (k : Nat) (hk : k < 8) :
      leNat ((((List.range 32).map (fun k => cistByte s (g + k))).drop (4 * k)).take 4) % 2 ^ 14 =
        leNat (memRead s.cist (g + 4 * k) 4) % 16384 := by rw [take_drop_map_cistByte s g (by omega)]; rfl
  have newest : ∀ l : List Nat, l ≠ [] → l.headD 0 :: l.drop 1 = l := by
    intro l hl
    cases l with
    | nil => contradiction
    | cons x l => rfl
  show (groupWords _).reverse.headD 0 :: (groupWords _).reverse.drop 1 = _
  rw [newest _ (by simp [groupWords])]
  refine List.ext_getElem (by simp [groupWords]) fun k hk _ => ?_
  have below : k < 8 := by simpa [groupWords] using hk
  simp only [groupWords, List.getElem_reverse, List.getElem_map, List.getElem_range, List.length_map, List.length_range]
  exact word (7 - k) (by omega)

/-- Settles O23: the spill writes whole words to the thread's next group, and the fill is a clean read of its last. -/
theorem trapContextSpillsAndFillsTheCallStack : Obligations.TrapContextSpillsAndFillsTheCallStack := by
  intro s u t i rest queue oldest resident released trapped
  have serve := exec_trapService queue oldest resident released trapped
  refine ⟨fun target spill full call _ => ?_, fun fill clean => ?_⟩
  · rw [if_pos spill] at serve
    have station := stn_serveSpill_dequeued (front_thread oldest) call rest
    have thread : thr (stn (serveSpill (dequeued s u rest) u t i) u) t = spilledThread (thr (stn s u) t) i.pc target := by
      rw [station, thr_popFront, thr_setThr_same]
    have size := length_spillBytes full
    refine ⟨_, serve, ?_, ?_, ?_, ?_, ?_, ?_, fun k hk => ?_, fun g outside => ?_⟩
    · rw [thread]; rfl
    · rw [thread]; rfl
    · rw [thread]; rfl
    · rw [thread]; rfl
    · rw [station]; rfl
    · rw [station]; rfl
    · rw [memRead_of_run (bs := spillBytes (thr (stn s u) t)) _ (by omega), spillBytes_word full hk]
      intro j hj
      refine (cistByte_serveSpill full i rest _).trans ?_
      rw [dif_pos (by omega)]
      simp only [Nat.add_sub_cancel_left]
    · rw [cistByte_serveSpill full, dif_neg (by omega)]
  · have back := serveFill_of_clean (i := i) (s := dequeued s u rest) (u := u) (t := t) (by rw [thr_dequeued]; exact clean)
    rw [if_neg (by omega), back] at serve
    refine ⟨_, serve, (onlyUnit_modStn ..).modStn _, ?_⟩
    rw [stn_modStn, if_pos rfl, thr_popFront, thr_modThr, if_pos rfl, thr_dequeued, stn_dequeued]
    exact ⟨rfl, rfl, rfl, filledThread_entries (dequeued s u rest) _ _⟩

end Sys2Proof.Machine

/-! PROOFS. Parking, program writes and resumes (R178 to R180, R503), and the freeze of a stuck station (R183, R184). -/

namespace Sys2Proof.Machine

-- park requests and park points (R178)

theorem exec_parkRequest {s : State} {u : Nat} (host : (hostOf s u).isSome) (running : s.tap.scan = false) :
    exec (.parkRequest u) s = .next (modStn s u (fun x => { x with parkReq := true })) := by
  show execParkRequest u s = _
  rw [execParkRequest, withOperand_of host, guard_of (by simp [running])]

/-- R503: what a HALT notes of a thread that parks is its own list, and nothing else of the station. -/
theorem haltKeeps_eq (s : State) (u t : Nat) (x : Station) : haltKeeps s u t x = { x with haltWas := (haltKeeps s u t x).haltWas } := by
  unfold haltKeeps; split
  · split <;> rfl
  · rfl

@[simp] theorem thr_haltKeeps (s : State) (u t : Nat) (x : Station) (k : Nat) : thr (haltKeeps s u t x) k = thr x k := by
  rw [haltKeeps_eq]; rfl

@[simp] theorem front_haltKeeps (s : State) (u t : Nat) (x : Station) (k : Nat) : front (haltKeeps s u t x) k = front x k := by
  rw [haltKeeps_eq]; rfl

/-- A thread that is not single-stepped parks where it can: only its unit changes, it stands PARKED at its park point, and its
instructions are gone. -/
theorem threadPark_parks {s : State} {u t pc : Nat} (resident : isResident s u = true) (released : (stn s u).inReset = false)
    (going : (stn s u).frozen = false) (noStep : (stn s u).stepThread = none) (ht : t < 4) (point : parkPc (stn s u) t = some pc) :
    ∃ s', exec (.threadPark u t) s = .next s' ∧ OnlyUnit u s s' ∧ (thr (stn s' u) t).st = .parked ∧
      (thr (stn s' u) t).pc = pc % 16384 ∧ front (stn s' u) t = none := by
  have parks : exec (.threadPark u t) s = .next (modStn (parkAt s u t pc) u (haltKeeps s u t)) := by
    show execThreadPark u t s = _
    simp [execThreadPark, point, resident, released, going, ht]
  rw [parkAt_eq_modStn (by simp [noStep])] at parks
  refine ⟨_, parks, (onlyUnit_modStn ..).modStn _, ?_⟩
  simp only [stn_modStn, if_true, thr_haltKeeps, front_haltKeeps, front_parkedStn, thr_parkedStn, true_and, and_true]
  rfl

/-- R178: a thread in RUN with nothing in flight can park before a park point. -/
theorem parkPc_of_run {x : Station} {t : Nat} {op : SOp} (noChain : chainOf x t = none) (inRun : (thr x t).st = .run)
    (idle : inFlight x t = []) (requested : x.parkReq = true) (isPoint : op ∈ [SOp.chain, .ewait, .stepclose, .park])
    (next : sop (pmWord x (thr x t).pc) = some op) (sound : pmBad x (thr x t).pc = false) :
    parkPc x t = some (thr x t).pc := by
  have point : parkPoint (pmWord x (thr x t).pc) = true := by
    simp only [List.mem_cons, List.not_mem_nil, or_false] at isPoint
    rcases isPoint with rfl | rfl | rfl | rfl <;> simp only [parkPoint, next]
  have wanted : parkWanted x t = true := by simp [parkWanted, pmFetch, sound, point, requested, noChain]
  simp [parkPc, inRun, wanted, idle]

/-- R178: a waiting thread can park at its EWAIT. -/
theorem parkPc_of_wait {x : Station} {t : Nat} {i : InFlight} (noChain : chainOf x t = none) (waits : (thr x t).st = .wait)
    (requested : x.parkReq = true) (oldest : front x t = some i) : parkPc x t = some i.pc := by
  simp [parkPc, waits, requested, noChain, oldest]

-- program writes (R179)

theorem exec_pmWrite {s : State} {u addr : Nat} (w : Word) (host : (hostOf s u).isSome) (running : s.tap.scan = false)
    (inside : addr < 16384) : exec (.pmWrite u addr [w]) s =
      .next (modStn s u (fun x => pmFlush { x with pmHeld := x.pmHeld ++ [(addr, w)] })) := by
  have operand : ((hostOf s u).isSome && decide (addr + [w].length ≤ 2 ^ 14)) = true := by
    simp only [host, Bool.true_and, decide_eq_true_eq, List.length_singleton]; omega
  show execPmWrite u addr [w] s = _
  rw [execPmWrite, withOperand_of operand, guard_of (by simp [running])]
  rfl

theorem pmWord_of_lt {a : Nat} (h : a < 16384) (x : Station) : pmWord x a = (tabGet 0 x.pm a).toNat := by
  rw [pmWord, Nat.mod_eq_of_lt (by omega : a < 2 ^ 14)]

/-- R179: while a thread is not stopped, held writes wait. -/
theorem pmFlush_of_running {x : Station} (running : allStopped x = false) : pmFlush x = x := by simp [pmFlush, running]

/-- R179: a lone held write of a station whose threads are all stopped is applied. -/
theorem pmFlush_singleton {x : Station} {addr : Nat} {w : Word} (stopped : allStopped x = true) (inside : addr < 16384)
    (lone : x.pmHeld = [(addr, w)]) :
    pmFlush x = { x with pmHeld := [], pm := tabSet 0 x.pm addr w, pmErr := tabDel x.pmErr addr } := by
  have here : addr % 2 ^ 14 = addr := Nat.mod_eq_of_lt inside
  rw [pmFlush, if_pos stopped, lone, pmApply, here]; rfl

-- resumes (R180)

/-- Updates of different threads each see the thread's own record. -/
theorem thr_foldl_modThr (f : Nat → Thread → Thread) {l : List Nat} (distinct : l.Nodup) (x : Station) (k : Nat) :
    thr (l.foldl (fun x t => modThr x t (f t)) x) k = if k ∈ l then f k (thr x k) else thr x k := by
  induction l generalizing x with
  | nil => rfl
  | cons t l ih =>
    obtain ⟨new, distinct⟩ := List.nodup_cons.1 distinct
    rw [List.foldl_cons, ih distinct, thr_modThr]
    by_cases here : k = t
    · subst here; simp [new]
    · simp [here]

/-- Table 05.4: each thread's record after a resume. -/
theorem thr_resumeAll {k : Nat} (hk : k ∈ threads) (x : Station) (acts : List Nat) :
    thr (resumeAll x acts) k = resumeAct (thr x k) (acts.getD k 0) :=
  (thr_foldl_modThr (fun t h => resumeAct h (acts.getD t 0)) (by decide) _ k).trans (if_pos hk)

theorem exec_resume {s : State} {u a0 a1 a2 a3 : Nat} (host : (hostOf s u).isSome) (running : s.tap.scan = false)
    (h0 : a0 < 16386) (h1 : a1 < 16386) (h2 : a2 < 16386) (h3 : a3 < 16386) (released : (stn s u).inReset = false) :
    exec (.resume u [a0, a1, a2, a3]) s = .next (modStn s u (fun x => notStuck (resumeAll x [a0, a1, a2, a3]))) := by
  show execResume u [a0, a1, a2, a3] s = _
  simp [execResume, host, running, released, h0, h1, h2, h3]

theorem resumeAct_keep {h : Thread} (parked : h.st = .parked) : resumeAct h 1 = { h with st := .run } := by
  simp [resumeAct, parked]

theorem resumeAct_entry {h : Thread} {a : Nat} (entry : 2 ≤ a) (stopped : h.st = .parked ∨ fatal h = true) :
    resumeAct h a = { h with st := .run, pc := a - 2, stack := [], spill := 0, cause := 0 } := by
  rw [resumeAct, if_neg (by omega), if_neg (by omega), if_pos stopped]

/-- Settles O24: a park request stands, a thread parks at its park point or its wait, a program write waits or is applied, and a
resume acts on each thread by its code. -/
theorem parksProgramWritesAndResumes : Obligations.ParksProgramWritesAndResumes := by
  refine ⟨fun s u => ⟨fun host running => ?_, fun resident released going requested noStep => ⟨?_, ?_⟩⟩,
    fun s u host running => ⟨?_, ?_, ?_⟩⟩
  · exact ⟨_, exec_parkRequest host running, onlyUnit_modStn .., by simp⟩
  · intro t op ht noChain inRun idle isPoint next sound
    obtain ⟨s', parks, only, parked, pc, -⟩ := threadPark_parks resident released going noStep ht
      (parkPc_of_run noChain inRun idle requested isPoint next sound)
    exact ⟨s', parks, only, parked, pc⟩
  · exact fun t i ht noChain waits oldest =>
      threadPark_parks resident released going noStep ht (parkPc_of_wait noChain waits requested oldest)
  · intro addr w inside busy
    refine ⟨_, exec_pmWrite w host running inside, onlyUnit_modStn .., ?_⟩
    rw [stn_modStn, if_pos rfl]
    exact pmFlush_of_running busy
  · intro addr w inside stopped noneHeld
    refine ⟨_, exec_pmWrite w host running inside, onlyUnit_modStn .., ?_⟩
    rw [stn_modStn, if_pos rfl, pmFlush_singleton (by exact stopped) inside (by rw [noneHeld]; rfl)]
    refine ⟨?_, rfl, fun a ha other => ?_, rfl⟩
    · rw [pmWord_of_lt inside, tabGet_tabSet_self]
    · rw [pmWord_of_lt ha, pmWord_of_lt ha, tabGet_tabSet_ne _ _ _ _ _ other]
  · intro a0 a1 a2 a3 h0 h1 h2 h3 released
    refine ⟨_, exec_resume host running h0 h1 h2 h3 released, onlyUnit_modStn .., ?_⟩
    rw [stn_modStn, if_pos rfl]
    refine ⟨rfl, fun t a mem => ?_⟩
    have act : thr (notStuck (resumeAll (stn s u) [a0, a1, a2, a3])) t = resumeAct (thr (stn s u) t) a := by
      simp only [List.mem_cons, Prod.mk.injEq, List.not_mem_nil, or_false] at mem
      rcases mem with ⟨rfl, rfl⟩ | ⟨rfl, rfl⟩ | ⟨rfl, rfl⟩ | ⟨rfl, rfl⟩ <;> exact thr_resumeAll (by decide) _ _
    rw [act]
    exact ⟨fun stay => if_pos stay, fun keep parked => keep ▸ resumeAct_keep parked, resumeAct_entry⟩

-- deadlock (R183, R184)

/-- Setting a bit of EVT_STATUS changes no other register. -/
theorem reg_setEvt_ne {a : Nat} (h : a ≠ Reg.evtStatus) (s : State) (b : Nat) : reg (setEvt s b) a = reg s a := by
  rw [setEvt, reg_of_regs (evtRise_regs ..), reg_setReg_ne h]

/-- A bit of EVT_STATUS that is set reads 1. -/
theorem regBit_setEvt {b : Nat} (h : b < 32) (s : State) : regBit (setEvt s b) Reg.evtStatus b = true := by
  rw [regBit, setEvt, reg_of_regs (evtRise_regs ..), reg_setReg, if_pos rfl, Nat.testBit_mod_two_pow]
  simp [h, Nat.testBit_or]

theorem exec_deadlockCountExpire {s : State} {u : Nat} (resident : isResident s u = true) (released : (stn s u).inReset = false)
    (going : (stn s u).frozen = false) (stands : stuck (stn s u) = true) (begun : 0 < (stn s u).deadCnt)
    (expired : (stn s u).deadLim ≤ (stn s u).deadCnt) : exec (.deadlockCountExpire u) s = .next
      (setEvt (pushRec (addReg (noteFault (modStn s u (fun x => { x with frozen := true }))) Reg.deadCnt 1)
        ⟨1, lstn s u, 0x21, deadContext (stn s u)⟩) 3) := by
  have due : (isResident s u && !(stn s u).inReset && !(stn s u).frozen && stuck (stn s u) && decide (0 < (stn s u).deadCnt) &&
      decide ((stn s u).deadLim ≤ (stn s u).deadCnt)) = true := by simp [resident, released, going, stands, begun, expired]
  exact guard_of due s _

/-- Settles O25: the freeze is the unit's, and the counter, the record and the event are the part's. -/
theorem deadlockFreezesTheStation : Obligations.DeadlockFreezesTheStation := by
  intro s u resident released going stands begun expired below
  refine ⟨_, exec_deadlockCountExpire resident released going stands begun expired, ?_, ?_, regBit_setEvt (by decide) _,
    rams_eq_iff.1 (by simp)⟩
  · rw [stn_of_stns (setEvt_stns ..), stn_of_stns (pushRec_stns ..), stn_of_stns (addReg_stns ..), stn_of_stns (noteFault_stns _),
      stn_modStn, if_pos rfl]
  · rw [reg_setEvt_ne (by decide), reg_pushRec (by decide)]
    exact reg_addReg_one (s := noteFault (modStn s u _)) below

end Sys2Proof.Machine

/-! PROOFS. Station resets and unit switches (R186 to R188, R558, R576, R577): a quiesce and a release act on the units of their
station one by one, and a switch moves the residency of one station. -/

namespace Sys2Proof.Machine

-- steps that act on units one by one

/-- What every step of a fold keeps, the fold keeps. -/
theorem proj_foldl {α β : Type} (g : State → β) {f : State → α → State} (h : ∀ s a, g (f s a) = g s) (l : List α) (s : State) :
    g (l.foldl f s) = g s := by
  induction l generalizing s with
  | nil => rfl
  | cons a l ih => rw [List.foldl_cons, ih, h]

section Units

variable {f : State → Nat → State} (others : ∀ s a v, v ≠ a → stn (f s a) v = stn s v)

include others

/-- A unit that a fold does not visit is as it was. -/
theorem stn_foldl_of_not_mem {l : List Nat} {u : Nat} (hu : u ∉ l) (s : State) : stn (l.foldl f s) u = stn s u := by
  induction l generalizing s with
  | nil => rfl
  | cons a l ih =>
    obtain ⟨here, later⟩ := not_or.1 (mt List.mem_cons.2 hu)
    rw [List.foldl_cons, ih later, others s a u here]

/-- A unit that a fold visits once is as its own step leaves it. -/
theorem stn_foldl_of_mem {R : Station → Station → Prop} (own : ∀ s a, R (stn s a) (stn (f s a) a)) {l : List Nat}
    (distinct : l.Nodup) {u : Nat} (hu : u ∈ l) (s : State) : R (stn s u) (stn (l.foldl f s) u) := by
  induction l generalizing s with
  | nil => cases hu
  | cons a l ih =>
    obtain ⟨new, distinct⟩ := List.nodup_cons.1 distinct
    rw [List.foldl_cons]
    by_cases here : u = a
    · subst here
      rw [stn_foldl_of_not_mem others new]
      exact own s u
    · rw [← others s a u here]
      exact ih distinct (List.mem_of_ne_of_mem here hu) _

end Units

theorem nodup_unitsOf (s : State) (ls : Nat) : (unitsOf s ls).Nodup := List.nodup_range.filter _

-- the quiesce (R186, R187)

theorem sipCredit_stns (s : State) (q : Sip) : (sipCredit s q).stns = s.stns := by
  unfold sipCredit; split
  · rfl
  · split
    · simp only; split <;> rfl
    · rfl

theorem sipOrphan_stns (s : State) (q : Sip) : (sipOrphan s q).stns = s.stns := by
  unfold sipOrphan; split
  · rfl
  · split <;> rfl

theorem creditBack_stns (s : State) (n : Nat) : (creditBack s n).stns = s.stns := rfl

theorem creditSpans_stns (s : State) (u ch : Nat) (a : Active) : (creditSpans s u ch a).stns = s.stns := by
  unfold creditSpans; exact creditBack_stns ..

/-- Leave and credits that are given back change no station. -/
theorem quiesceLeave_stns (s : State) (u : Nat) : (quiesceLeave s u).stns = s.stns := by
  unfold quiesceLeave
  simp only [creditBack_stns]
  refine (stns_foldl (fun s c => ?_) _ _).trans (stns_foldl (fun s p => ?_) _ _)
  · rw [sipOrphan_stns, sipCredit_stns, creditBack_stns]
  · split
    · rw [sipCredit_stns, creditSpans_stns]
    · rfl

theorem stn_havocWindow_ne {u v : Nat} (h : v ≠ u) (s : State) (c : ChainRec) : stn (havocWindow s u c) v = stn s v := by
  rw [havocWindow, stn_modStn, if_neg h]; rfl

/-- The part once the chains of a unit have ended and what it had not used is given back. -/
def chainsEnded (s : State) (u : Nat) : State :=
  (stn (quiesceLeave s u) u).chains.foldl (fun s c => havocWindow s u c) (quiesceLeave s u)

/-- R186: what is left of a unit's station once nothing of it that has not begun can go on. -/
def quiescedStn (kept : List Nat) (x : Station) : Station := { x with
  inReset := true, pipe := [], trapQ := [], chains := [], vq := [], closing := none,
  arrs := x.arrs.map (fun p => (p.1, quiesceArr p.2)),
  chans := x.chans.map (fun p => (p.1, { p.2 with queue := [], active := if kept.contains p.1 then p.2.active else none })) }

theorem quiesceUnit_stns (s : State) (u : Nat) :
    (quiesceUnit s u).stns = (modStn (chainsEnded s u) u (quiescedStn (keptChans s u))).stns := rfl

/-- A quiesce changes no other unit. -/
theorem stn_quiesceUnit_ne (s : State) (u v : Nat) (h : v ≠ u) : stn (quiesceUnit s u) v = stn s v := by
  rw [stn_of_stns (quiesceUnit_stns s u), stn_modStn, if_neg h, chainsEnded,
    proj_foldl (stn · v) (fun s c => stn_havocWindow_ne h s c), stn_of_stns (quiesceLeave_stns s u)]

/-- A quiesced unit is in reset. -/
theorem inReset_quiesceUnit (s : State) (u : Nat) : (stn (quiesceUnit s u) u).inReset = true := by
  rw [stn_of_stns (quiesceUnit_stns s u), stn_modStn, if_pos rfl]; rfl

/-- A station reset that begins puts every unit of its station in reset. -/
theorem inReset_beginReset {s : State} {ls u : Nat} (hu : u ∈ unitsOf s ls) : (stn (beginReset s ls) u).inReset = true := by
  unfold beginReset
  exact stn_foldl_of_mem stn_quiesceUnit_ne (R := fun _ y => y.inReset = true) inReset_quiesceUnit (nodup_unitsOf s ls) hu _

theorem exec_stationReset {s : State} {ls : Nat} (enabled : ls < stationsEnabled s) (running : s.tap.scan = false)
    (released : ∀ u, u ∈ unitsOf s ls → (stn s u).inReset = false) :
    exec (.stationReset ls) s = .next (beginReset s ls) := by
  have ready : (!(unitsOf s ls).any (fun u => (stn s u).inReset) && !s.tap.scan) = true := by
    simpa [running] using released
  show execStationReset ls s = _
  rw [execStationReset, withOperand_of (decide_eq_true enabled), guard_of ready]

-- the release (R186, R187; Table 05.6)

/-- Table 05.6: what a station holds once its reset is released, its tile registers kept. -/
structure Released (x y : Station) : Prop where
  out : y.inReset = false
  threads : ∀ t, (thr y t).st = .parked ∧ (thr y t).regs = []
  counters : ∀ e, evGet y e = 0
  chains : y.chains = []
  vector : y.vq = []
  tiles : y.trf = x.trf

/-- What the default and every entry of a table have, its values have. -/
theorem tabGet_of_forall {α : Type} {p : α → Prop} {d : α} (default : p d) {l : Tab α} (entries : ∀ e ∈ l, p e.2) (i : Nat) :
    p (tabGet d l i) := by
  induction l with
  | nil => exact default
  | cons e l ih =>
    obtain ⟨k, v⟩ := e
    obtain ⟨first, rest⟩ := List.forall_mem_cons.1 entries
    rw [tabGet]; split
    · exact first
    · split
      · exact default
      · exact ih rest

/-- The threads of a released station are parked with registers of 0: what is kept of each is a latch of CYCLE_LO. -/
theorem thr_releaseStn (x : Station) (t : Nat) : (thr (releaseStn x) t).st = .parked ∧ (thr (releaseStn x) t).regs = [] := by
  rw [releaseStn, thr_pmFlush]
  refine tabGet_of_forall (p := fun h : Thread => h.st = .parked ∧ h.regs = []) ⟨rfl, rfl⟩ (fun e he => ?_) t
  obtain ⟨p, -, rfl⟩ := List.mem_map.1 he
  exact ⟨rfl, rfl⟩

theorem released_releaseStn (x : Station) : Released x (releaseStn x) where
  out := by rw [releaseStn, pmFlush_eq]
  threads := thr_releaseStn x
  counters e := by rw [releaseStn, pmFlush_eq]; rfl
  chains := by rw [releaseStn, pmFlush_eq]
  vector := by rw [releaseStn, pmFlush_eq]
  tiles := by rw [releaseStn, pmFlush_eq]

theorem stn_stepEnd_ne (s : State) (u t v : Nat) (h : v ≠ u) : stn (stepEnd s u t) v = stn s v := by
  unfold stepEnd; split
  · rw [stn_modStn, if_neg h]; rfl
  · rfl

/-- R504: the end of a step changes the station's record of it, and nothing else of the station. -/
theorem stn_stepEnd (s : State) (u t : Nat) : stn (stepEnd s u t) u =
    { stn s u with stepThread := (stn (stepEnd s u t) u).stepThread, stepIssued := (stn (stepEnd s u t) u).stepIssued } := by
  unfold stepEnd; split
  · rw [stn_modStn, if_pos rfl]; rfl
  · rfl

/-- The part as the release of a unit finds it: its single step has ended, if one was under way. -/
def stepEnded (s : State) (u : Nat) : State :=
  match (stn s u).stepThread with
  | some t => stepEnd s u t
  | none => s

theorem releaseUnit_eq (s : State) (u : Nat) : releaseUnit s u = modStn (sumNcu (stepEnded s u) u) u releaseStn := rfl

theorem stn_stepEnded_ne (s : State) (u v : Nat) (h : v ≠ u) : stn (stepEnded s u) v = stn s v := by
  unfold stepEnded; split
  · exact stn_stepEnd_ne s u _ v h
  · rfl

theorem trf_stepEnded (s : State) (u : Nat) : (stn (stepEnded s u) u).trf = (stn s u).trf := by
  unfold stepEnded; split
  · rw [stn_stepEnd]
  · rfl

theorem stn_sumNcu (s : State) (u v : Nat) :
    stn (sumNcu s u) v = if v = u then { stn s u with nfDue := 0, satDue := 0 } else stn s v := by
  simp only [sumNcu, stn_modStn, stn_of_stns (addReg64_stns _ _ _)]

/-- A release changes no other unit. -/
theorem stn_releaseUnit_ne (s : State) (u v : Nat) (h : v ≠ u) : stn (releaseUnit s u) v = stn s v := by
  rw [releaseUnit_eq, stn_modStn, if_neg h, stn_sumNcu, if_neg h, stn_stepEnded_ne s u v h]

theorem released_releaseUnit (s : State) (u : Nat) : Released (stn s u) (stn (releaseUnit s u) u) := by
  have kept : (stn (sumNcu (stepEnded s u) u) u).trf = (stn s u).trf := by
    rw [stn_sumNcu, if_pos rfl]; exact trf_stepEnded s u
  have station := released_releaseStn (stn (sumNcu (stepEnded s u) u) u)
  rw [releaseUnit_eq, stn_modStn, if_pos rfl]
  exact { station with tiles := station.tiles.trans kept }

theorem stepEnd_boot (s : State) (u t : Nat) : (stepEnd s u t).boot = s.boot := by unfold stepEnd; split <;> rfl

theorem sumNcu_boot (s : State) (u : Nat) : (sumNcu s u).boot = s.boot := by
  simp only [sumNcu, addReg64, modStn_boot, setReg_boot]

theorem releaseUnit_boot (s : State) (u : Nat) : (releaseUnit s u).boot = s.boot := by
  rw [releaseUnit_eq, modStn_boot, sumNcu_boot]
  unfold stepEnded; split
  · exact stepEnd_boot ..
  · rfl

theorem mapDone_stns (s : State) (ls : Nat) : (mapDone s ls).stns = s.stns := by
  rw [mapDone, setField, setReg_stns]

/-- Every unit of a station whose reset ends is released. -/
theorem released_mapDone {s : State} {ls u : Nat} (hu : u ∈ unitsOf s ls) :
    Released (stn s u) (stn (mapDone (endReset s ls) ls) u) := by
  rw [stn_of_stns (mapDone_stns _ ls)]
  exact stn_foldl_of_mem stn_releaseUnit_ne released_releaseUnit (nodup_unitsOf s ls) hu s

/-- R558: MAP_STATUS names the station whose reset completed last. -/
theorem bits_mapDone {ls : Nat} (h : ls < 128) (s : State) : bits (reg (mapDone s ls) Reg.mapStatus) 14 8 = ls := by
  rw [mapDone, setField, reg_setReg, if_pos rfl]
  simp only [bits, Nat.shiftRight_eq_div_pow]
  omega

/-- A release of a drained station, outside a control reset, ends its reset and no more. -/
theorem exec_stationResetRelease {s : State} {ls : Nat} (enabled : ls < stationsEnabled s)
    (quiet : ∀ u, u ∈ unitsOf s ls → (stn s u).inReset = true ∧ drained (stn s u) = true ∧ delivered s u = true)
    (alone : s.boot.ctrlRun = false) : exec (.stationResetRelease ls) s = .next (mapDone (endReset s ls) ls) := by
  have ready : (unitsOf s ls).all (fun u => (stn s u).inReset && drained (stn s u) && delivered s u) = true := by
    simpa [and_assoc] using quiet
  have boot : (mapDone (endReset s ls) ls).boot = s.boot := by
    rw [mapDone, setField, setReg_boot, endReset]
    exact proj_foldl State.boot releaseUnit_boot _ s
  show execStationResetRelease ls s = _
  simp only [execStationResetRelease, decide_eq_true enabled, withOperand_true, ready, guard_true, boot, alone, Bool.false_and,
    Bool.false_eq_true, if_false]

-- the switch (R576, R577)

theorem stepEnd_resident (s : State) (u t : Nat) : (stepEnd s u t).resident = s.resident := by unfold stepEnd; split <;> rfl

theorem unitOff_resident (s : State) (u : Nat) : (unitOff s u).resident = s.resident := by
  unfold unitOff
  rw [proj_foldl State.resident]
  · rfl
  · intro s t; split
    · exact stepEnd_resident ..
    · rfl

theorem unitOn_resident (s : State) (u : Nat) : (unitOn s u).resident = s.resident :=
  (proj_foldl State.resident (f := fun s (q : Signal) => evBump s u q.ev) (fun _ _ => rfl) _ _).trans rfl

theorem switchSpend_resident (s : State) : (switchSpend s).resident = s.resident := rfl

/-- The part once unit `r` has left its host and unit `o` has come to it. -/
def swapped (s : State) (r o : Nat) : State := switchSpend (unitOn (unitOff s r) o)

theorem swapped_resident (s : State) (r o : Nat) : (swapped s r o).resident = s.resident :=
  (switchSpend_resident _).trans ((unitOn_resident ..).trans (unitOff_resident ..))

/-- A host whose resident unit may yield to the other, which is runnable, switches. -/
theorem exec_unitSwitch {s : State} {ls a b r o : Nat} (units : unitsOf s ls = [a, b]) (resident : residentUnit s ls = r)
    (other : (if r = a then b else a) = o) (yields : mayYield (stn s r) = true) (ready : runnable s o = true) :
    exec (.unitSwitch ls) s = .next { swapped s r o with resident := tabSet 0 s.resident ls (b2n (o == b)) } := by
  subst resident other
  rw [← swapped_resident s (residentUnit s ls) (if residentUnit s ls = a then b else a)]
  show execUnitSwitch ls s = _
  simp only [execUnitSwitch, units, yields, ready, Bool.and_true, guard_true]
  rfl

/-- Settles O26: the units of a station are quiesced and released one by one, and a switch sets one station's residency. -/
theorem stationResetsAndUnitSwitches : Obligations.StationResetsAndUnitSwitches := by
  refine ⟨fun s ls enabled running => ⟨fun released => ?_, fun small quiet alone => ?_⟩,
    fun s ls a b units differ => ⟨fun resident yields ready => ?_, fun resident yields ready => ?_⟩⟩
  · refine ⟨_, exec_stationReset enabled running released, fun u hu => ?_, rams_eq_iff.1 (by simp)⟩
    exact inReset_beginReset hu
  · refine ⟨_, exec_stationResetRelease enabled quiet alone, fun u hu => ?_, bits_mapDone small _, rams_eq_iff.1 (by simp)⟩
    obtain ⟨out, threads, counters, chains, vector, tiles⟩ := released_mapDone hu
    exact ⟨out, threads, counters, chains, vector, tiles⟩
  · refine ⟨_, exec_unitSwitch units resident (if_pos rfl) yields ready, ?_, fun l hl => tabGet_tabSet_ne _ _ _ _ _ hl,
      rams_eq_iff.1 (by simp [swapped])⟩
    simp [b2n]
  · refine ⟨_, exec_unitSwitch units resident (if_neg (Ne.symm differ)) yields ready, ?_, rams_eq_iff.1 (by simp [swapped])⟩
    simp [b2n, differ]

end Sys2Proof.Machine

/-! PROOFS. Remote signals (R170, R188, R322, R328, R340): the oldest signal of a unit's outbound queue leaves on its route, and an
arrived one takes effect at its unit. -/

namespace Sys2Proof.Machine

-- the sending side of a hop (R328)

theorem opp_ne (h : Nat) : opp h ≠ h := by unfold opp; split <;> omega

/-- A flit with the acknowledgement that its hop's other direction owes. -/
def acked (o : Hop) (f : Flit) : Flit :=
  match o.lastAcc with
  | some a => { f with ack := a, ackV := true }
  | none => { f with ack := 0, ackV := false }

theorem acked_type (o : Hop) (f : Flit) : (acked o f).type = f.type := by unfold acked; split <;> rfl
theorem acked_seq (o : Hop) (f : Flit) : (acked o f).seq = f.seq := by unfold acked; split <;> rfl

/-- The other direction of a hop owes no acknowledgement once a flit has taken it. -/
def ackTaken (s : State) (h : Nat) : State := setHop s (opp h) { hop s (opp h) with ackDue := false }

theorem onWire_eq (s : State) (h : Nat) (f : Flit) : onWire s h f =
    if 16 ≤ h then { ackTaken s h with out := s.out ++ [.flit ((h - 16) / 2) (flitBytes (acked (hop s (opp h)) f))] }
    else setHop (ackTaken s h) h { hop (ackTaken s h) h with
      wire := (hop (ackTaken s h) h).wire ++ [acked (hop s (opp h)) f] } := rfl

theorem onWire_stns (s : State) (h : Nat) (f : Flit) : (onWire s h f).stns = s.stns := by
  rw [onWire_eq]; split <;> rfl

/-- On a hop inside the package the flit stands on the wire, and nothing else of the direction changes. -/
theorem hop_onWire {h : Nat} (inside : h < 16) (s : State) (f : Flit) : hop (onWire s h f) h =
    { hop s h with wire := (hop s h).wire ++ [acked (hop s (opp h)) f] } := by
  have kept : hop (ackTaken s h) h = hop s h := by rw [ackTaken, hop_setHop, if_neg (opp_ne h).symm]
  rw [onWire_eq, if_neg (Nat.not_le.2 inside), hop_setHop, if_pos rfl, kept]

theorem hopFlush_stns (n : Nat) (s : State) (h : Nat) : (hopFlush n s h).stns = s.stns := by
  induction n generalizing s with
  | zero => rfl
  | succ n ih =>
    unfold hopFlush; simp only; split
    · rfl
    · split
      · rfl
      · rw [ih, onWire_stns]; rfl

theorem hopSend_stns (s : State) (h : Nat) (fs : List Flit) : (hopSend s h fs).stns = s.stns := by
  rw [hopSend]; exact hopFlush_stns ..

/-- A direction with nothing waiting has nothing to flush. -/
theorem hopFlush_of_empty {s : State} {h : Nat} (empty : (hop s h).sendq = []) (n : Nat) : hopFlush n s h = s := by
  cases n with
  | zero => rfl
  | succ n => simp only [hopFlush, empty]

/-- A flit under the next sequence number of its direction. -/
def numbered (x : Hop) (f : Flit) : Flit := { f with seq := x.nextSeq }

/-- A direction whose flit `f` has left, with `rest` still waiting. -/
def launched (x : Hop) (f : Flit) (rest : List Flit) : Hop :=
  { x with sendq := rest, nextSeq := (x.nextSeq + 1) % 4096, unacked := x.unacked ++ [(numbered x f, 0)] }

/-- While fewer than 64 flits are unacknowledged, the first that waits leaves. -/
theorem hopFlush_succ {s : State} {h : Nat} {f : Flit} {rest : List Flit} (waits : (hop s h).sendq = f :: rest)
    (room : (hop s h).unacked.length < 64) (n : Nat) : hopFlush (n + 1) s h =
      hopFlush n (onWire (setHop s h (launched (hop s h) f rest)) h (numbered (hop s h) f)) h := by
  rw [hopFlush]
  simp only [waits, Nat.not_le.2 room, if_false]
  rfl

/-- A lone waiting flit of a hop inside the package leaves, and the flush ends. -/
theorem hopFlush_lone {s : State} {h : Nat} {f : Flit} (inside : h < 16) (lone : (hop s h).sendq = [f])
    (room : (hop s h).unacked.length < 64) (n : Nat) : hopFlush (n + 1) s h =
      onWire (setHop s h (launched (hop s h) f [])) h (numbered (hop s h) f) := by
  rw [hopFlush_succ lone room, hopFlush_of_empty]
  rw [hop_onWire inside, hop_setHop, if_pos rfl]
  rfl

/-- A direction with flits queued behind those that wait. -/
def queued (x : Hop) (fs : List Flit) : Hop := { x with sendq := x.sendq ++ fs }

theorem hopSend_eq (s : State) (h : Nat) (fs : List Flit) :
    hopSend s h fs = hopFlush (fs.length + 64) (setHop s h (queued (hop s h) fs)) h := rfl

/-- One flit on an idle direction with room leaves at once under the next sequence number. -/
theorem hop_hopSend_single {s : State} {h : Nat} (inside : h < 16) (idle : (hop s h).sendq = [])
    (room : (hop s h).unacked.length < 64) (f : Flit) : ∃ g : Flit,
      (hop (hopSend s h [f]) h).wire = (hop s h).wire ++ [g] ∧ g.type = f.type ∧ g.seq = (hop s h).nextSeq ∧
      (hop (hopSend s h [f]) h).nextSeq = ((hop s h).nextSeq + 1) % 4096 := by
  have here : hop (setHop s h (queued (hop s h) [f])) h = queued (hop s h) [f] := by rw [hop_setHop, if_pos rfl]
  have lone : (queued (hop s h) [f]).sendq = [f] := by simp [queued, idle]
  have flush := hopFlush_lone (n := 64) inside (by rw [here]; exact lone) (by rw [here]; exact room)
  rw [hopSend_eq, List.length_singleton, Nat.add_comm, flush, hop_onWire inside, hop_setHop, if_pos rfl, here]
  exact ⟨_, rfl, acked_type .., acked_seq .., rfl⟩

-- signals that leave (R170, R322, R340)

/-- The part once the oldest signal of a unit has left its outbound queue. -/
def signalTaken (s : State) (u : Nat) (rest : List Signal) : State := modStn s u (fun x => { x with outq := rest })

theorem stn_signalTaken (s : State) (u : Nat) (rest : List Signal) : stn (signalTaken s u rest) u = { stn s u with outq := rest } := by
  rw [signalTaken, stn_modStn, if_pos rfl]

/-- Where no increment of a chain waits, a place in the queue is taken by none. -/
theorem fillNotes_of_none {s : State} {u : Nat} (none_wait : ∀ c, c ∈ (stn s u).chains → c.notes = 0) : fillNotes s u = s := by
  have found : (stn s u).chains.find? (fun c => c.notes != 0) = none :=
    List.find?_eq_none.2 fun c hc => by simp [none_wait c hc]
  simp only [fillNotes, found]

/-- A signal on its own die's mesh, and a signal as a flit. -/
def meshArrival (s : State) (u : Nat) (q : Signal) : Arrival :=
  { hop := 100 + u / 32, src := gOf s (u / 32) false, die := u / 32, what := .signal q.toUnit q.ev }
def signalFlit (s : State) (u : Nat) (q : Signal) : Flit :=
  { way := b2n q.xpkg, type := 3, srcDie := gOf s (u / 32) false, dstDie := gOf s (q.toUnit / 32) q.xpkg,
    payload := signalPayload q.toUnit q.ev q.xpkg }

section Send

variable {s : State} {u : Nat} {q : Signal} {rest : List Signal} (queue : (stn s u).outq = q :: rest)
  (none_wait : ∀ c, c ∈ (stn s u).chains → c.notes = 0)

include queue none_wait

theorem exec_signalSend_near (near : route s (u / 32) (q.toUnit / 32) q.xpkg = []) : exec (.signalSend u) s =
    .next { signalTaken s u rest with arrivals := s.arrivals ++ [meshArrival s u q] } := by
  have filled : fillNotes (signalTaken s u rest) u = signalTaken s u rest :=
    fillNotes_of_none (by rw [stn_signalTaken]; exact none_wait)
  show execSignalSend u s = _
  rw [signalTaken] at filled
  simp only [execSignalSend, queue, filled, near]
  rfl

theorem exec_signalSend_far {h : Nat} {t : List Nat} (far : route s (u / 32) (q.toUnit / 32) q.xpkg = h :: t) :
    exec (.signalSend u) s = .next (if routeUp s (h :: t) then hopSend (signalTaken s u rest) h [signalFlit s u q]
      else signalTaken s u rest) := by
  have filled : fillNotes (signalTaken s u rest) u = signalTaken s u rest :=
    fillNotes_of_none (by rw [stn_signalTaken]; exact none_wait)
  show execSignalSend u s = _
  rw [signalTaken] at filled
  simp only [execSignalSend, queue, filled, far]
  rfl

end Send

/-- A unit of the same die is reached without a hop. -/
theorem route_self (s : State) (d : Nat) : route s d d false = [] := by simp [route, ringHop]

-- signals that arrive (R188, R322)

/-- An arrival that is gone changes no station and no residency. -/
theorem stn_dropArrival (s : State) (n v : Nat) : stn (dropArrival s n) v = stn s v := rfl

theorem dieFirst_dropArrival (s : State) (n d : Nat) : dieFirst (dropArrival s n) d = dieFirst s d := by
  induction d with
  | zero => rfl
  | succ d ih => rw [dieFirst, ih]; rfl

theorem hostOf_dropArrival (s : State) (n v : Nat) : hostOf (dropArrival s n) v = hostOf s v := by
  unfold hostOf; simp only [dieFirst_dropArrival]; rfl

theorem isResident_dropArrival (s : State) (n v : Nat) : isResident (dropArrival s n) v = isResident s v := by
  unfold isResident residentUnit dieOf; simp only [hostOf_dropArrival, dieFirst_dropArrival]; rfl

/-- A signal behind no tile of its way takes effect. -/
theorem exec_signalApply {s : State} {n v ev : Nat} {a : Arrival} (arrived : s.arrivals[n]? = some a)
    (what : a.what = .signal v ev) (free : behindTile s n a = false) :
    exec (.signalApply n) s = .next (applySignal (dropArrival s n) v ev) := by
  show execSignalApply n s = _
  simp [execSignalApply, arrived, what, free]

/-- R186, R188: what a signal does at a unit that has a host. -/
theorem applySignal_of_host {s : State} {v : Nat} (host : (hostOf s v).isSome) (ev : Nat) : applySignal s v ev =
    if (stn s v).inReset then s else if isResident s v then evBump s v ev
    else { s with heldSig := s.heldSig ++ [⟨v, v, false, ev⟩] } := by
  have hosted : (hostOf s v).isNone = false := by rw [← Option.not_isSome, host]; rfl
  simp only [applySignal, hosted, Bool.false_eq_true, false_or]

/-- An increment of a unit that is not in reset changes that counter of that unit. -/
theorem stn_evBump {s : State} {u : Nat} (released : (stn s u).inReset = false) (e w : Nat) :
    stn (evBump s u e) w = if w = u then evAdd (stn s u) e 1 else stn s w := by
  simp [evBump, released]

/-- Settles O28: a signal leaves by its route, and takes effect by the state of its unit. -/
theorem signalsLeaveAndAreApplied : Obligations.SignalsLeaveAndAreApplied := by
  constructor
  · intro s u q rest queue none_wait
    refine ⟨fun die near => ?_, fun h t far down => ?_, fun h t far up inside idle room => ?_⟩
    · have own : route s (u / 32) (q.toUnit / 32) q.xpkg = [] := by rw [die, near, route_self]
      exact ⟨_, meshArrival s u q, exec_signalSend_near queue none_wait own, stn_signalTaken s u rest, rfl, rfl, rfl⟩
    · have drop := exec_signalSend_far queue none_wait far
      rw [if_neg (by simp [down])] at drop
      exact ⟨_, drop, onlyUnit_modStn .., stn_signalTaken s u rest⟩
    · have send := exec_signalSend_far queue none_wait far
      rw [if_pos up] at send
      obtain ⟨g, wire, type, seq, next⟩ := hop_hopSend_single (s := signalTaken s u rest) inside idle room (signalFlit s u q)
      exact ⟨_, g, send, (stn_of_stns (hopSend_stns ..) u).trans (stn_signalTaken s u rest), wire, type, seq, next⟩
  · intro s n a v ev arrived what free host
    have applied := exec_signalApply arrived what free
    rw [applySignal_of_host (s := dropArrival s n) (by rw [hostOf_dropArrival]; exact host)] at applied
    refine ⟨fun released resident => ⟨_, applied, ?_⟩, fun released away => ⟨_, applied, ?_⟩, fun inReset => ?_⟩
    · rw [if_neg (by rw [stn_dropArrival, released]; decide), if_pos (by rw [isResident_dropArrival, resident])]
      have counted (w : Nat) := stn_evBump (s := dropArrival s n) released ev w
      refine ⟨rfl, ?_, fun e he => ?_, fun w hw => (counted w).trans (if_neg hw)⟩
      · rw [counted, if_pos rfl, evAdd, evGet_evSet, if_pos rfl]; rfl
      · rw [counted, if_pos rfl, evAdd, evGet_evSet, if_neg he]; rfl
    · rw [if_neg (by rw [stn_dropArrival, released]; decide), if_neg (by rw [isResident_dropArrival, away]; decide)]
      exact ⟨rfl, rfl, rfl⟩
    · rw [applied, if_pos (by exact inReset)]; rfl

end Sys2Proof.Machine

/-! PROOFS. The states of the links (R334, R336, R341): which die links are UP, the Extium Links' states, the pairing and the role in
force, and the operations of the model that leave them as they are. -/

namespace Sys2Proof.Machine

/-- The states of the links: the die links that are UP, the Extium Links, PAIRED, whether the pairing is held, and the role. -/
def State.links (s : State) : Nat × Tab ExtLink × Bool × Bool × Bool := (s.dieUp, s.ext, s.paired, s.held, s.roleNow)

theorem links_eq_iff {s t : State} : t.links = s.links ↔
    t.dieUp = s.dieUp ∧ t.ext = s.ext ∧ t.paired = s.paired ∧ t.held = s.held ∧ t.roleNow = s.roleNow := by simp [State.links]

/-- Links in the same states are read the same. -/
theorem getExt_of_links {s t : State} (h : t.links = s.links) (l : Nat) : getExt t l = getExt s l := by
  rw [getExt, (links_eq_iff.1 h).2.1]; rfl

@[simp] theorem links_ite (c : Prop) [Decidable c] (s t : State) :
    (if c then s else t).links = if c then s.links else t.links := apply_ite State.links c s t

/-- A state given field by field holds the links' states among them; every record update of the model takes this form. -/
@[simp] theorem links_mk
    (part : Part) (cyc free : Nat) (regs latch : Tab Word) (stns : Tab Station) (resident : Tab Nat) (heldSig : List Signal)
    (cist : List Host.Cell) (cistErr : Tab Mark) (cistWb cistBad : List Nat) (well : List Host.Cell) (wellErr : Tab BeatMark)
    (reread : Option (Nat × Nat × Nat)) (wellBad : List Nat) (rbLen : Tab Nat) (scrubCist scrubWell : Nat) (hops : Tab Hop)
    (arrivals : List Arrival) (dieUp : Nat) (ext : Tab ExtLink) (credits credTurn : Tab Nat) (gov : Gov) (time : TimeB)
    (floats floatLatch : Tab Float8) (sump : Sump) (msix : Msix) (paired held roleNow : Bool) (trainLinks : Nat)
    (orphans : List (Nat × Nat × Nat)) (peerEn : Tab Nat) (qps : Tab QPair) (sess : Tab Sess) (disp : Disp) (text : TextE)
    (ldr : Loader) (fuses : Fuses) (sec : Sec) (dbg : Dbg) (tap : Tap) (wins : Tab Win) (boot : Boot) (pins : Pins) (telem : Telem)
    (out : List OutMsg) (pending : List Instr) :
    (State.mk part cyc free regs latch stns resident heldSig cist cistErr cistWb cistBad well wellErr reread wellBad rbLen
    scrubCist scrubWell hops arrivals dieUp ext credits credTurn gov time floats floatLatch sump msix paired held roleNow
    trainLinks orphans peerEn qps sess disp text ldr fuses sec dbg tap wins boot pins telem out pending).links =
    (dieUp, ext, paired, held, roleNow) := by
  simp only [State.links]

@[simp] theorem links_eta (s : State) : (s.dieUp, s.ext, s.paired, s.held, s.roleNow) = s.links := by simp only [State.links]

section Operations

variable (s : State)

-- Machine/Flags.lean

@[simp] theorem setReg_links (a v : Nat) : (setReg s a v).links = s.links := by simp [setReg]
@[simp] theorem addReg_links (a n : Nat) : (addReg s a n).links = s.links := by simp [addReg]
@[simp] theorem setEvt_links (b : Nat) : (setEvt s b).links = s.links := by simp [setEvt, evtRise, sendMsix]
@[simp] theorem pushRec_links (r : RecIn) : (pushRec s r).links = s.links := by simp [pushRec]
@[simp] theorem noteFault_links : (noteFault s).links = s.links := by simp [noteFault]
@[simp] theorem putFloat_links (n : Nat) (f : Float8) : (putFloat s n f).links = s.links := by simp [putFloat]
@[simp] theorem floatEnd_links (n : Nat) (ok : Bool) (res : Nat) : (floatEnd s n ok res).links = s.links := by simp [floatEnd]
@[simp] theorem floatStart_links (n op fin : Nat) : (floatStart s n op fin).links = s.links := by simp [floatStart]
@[simp] theorem floatPos_links (n pos : Nat) : (floatPos s n pos).links = s.links := by simp [floatPos]

-- Machine/HostOps.lean

@[simp] theorem setQp_links (n : Nat) (q : QPair) : (setQp s n q).links = s.links := by simp [setQp]
@[simp] theorem modQp_links (n : Nat) (f : QPair → QPair) : (modQp s n f).links = s.links := by simp [modQp]
@[simp] theorem modSess_links (i : Nat) (f : Sess → Sess) : (modSess s i f).links = s.links := by simp [modSess, setSess]
@[simp] theorem qpError_links (n cause addr : Nat) : (qpError s n cause addr).links = s.links := by simp [qpError]
@[simp] theorem qpMessage_links (n : Nat) : (qpMessage s n).links = s.links := by simp [qpMessage, sendMsix]
@[simp] theorem cqWrite_links (i : CqItem) : (cqWrite s i).links = s.links := by simp [cqWrite]

@[simp] theorem writeItems_links (l : List CqItem) : (writeItems s l).1.links = s.links := by
  induction l generalizing s with
  | nil => rfl
  | cons i t ih => unfold writeItems; split <;> simp [ih]

@[simp] theorem pushOut_links (sid : Nat) (i : CqItem) : (pushOut s sid i).links = s.links := by simp [pushOut, flushSess, setSess]
@[simp] theorem done_links (f : Frame) (reason : Nat) (data : List Byte) : (done s f reason data).links = s.links := by
  simp [done, flushQp]

@[simp] theorem doneList_links (reason : Nat) (l : List Frame) : (doneList s reason l).links = s.links := by
  induction l generalizing s with
  | nil => rfl
  | cons p t ih => simp [doneList, ih]

@[simp] theorem endGen_links (sid reason stop : Nat) : (endGen s sid reason stop).links = s.links := by
  unfold endGen doneHead textOut; split
  · rfl
  · simp only; split <;> simp [proj_foldl State.links]

@[simp] theorem faultSess_links (sid : Nat) : (faultSess s sid).links = s.links := by simp [faultSess, dropJob]

@[simp] theorem faultAll_links : (faultAll s).links = s.links := proj_foldl State.links (fun s sid => faultSess_links s sid) _ s

-- Machine/LinkOps.lean

@[simp] theorem setHop_links (h : Nat) (x : Hop) : (setHop s h x).links = s.links := by simp [setHop]
@[simp] theorem onWire_links (h : Nat) (f : Flit) : (onWire s h f).links = s.links := by simp [onWire]

@[simp] theorem hopFlush_links (n : Nat) (s : State) (h : Nat) : (hopFlush n s h).links = s.links := by
  induction n generalizing s with
  | zero => rfl
  | succ n ih =>
    unfold hopFlush; simp only; split
    · rfl
    · split <;> simp [ih]

@[simp] theorem sendCtrl_links (l code : Nat) (body : List Nat) : (sendCtrl s l code body).links = s.links := by
  simp [sendCtrl, hopSend]

@[simp] theorem ctrlDown_links (l reason : Nat) : (ctrlDown s l reason).links = s.links := by simp [ctrlDown]
@[simp] theorem linkRecord_links (l h reason : Nat) : (linkRecord s l h reason).links = s.links := by simp [linkRecord, takeFree]
@[simp] theorem clearLink_links (l : Nat) : (clearLink s l).links = s.links := by simp [clearLink]
@[simp] theorem clearCredits_links (l : Nat) : (clearCredits s l).links = s.links := by simp [clearCredits]
@[simp] theorem endSips_links (u st : Nat) (f : Sip → Bool) : (endSips u st f s).links = s.links := by simp [endSips, setStn]
@[simp] theorem trainFail_links (l res : Nat) : (trainFail s l res).links = s.links := by simp [trainFail]

end Operations

end Sys2Proof.Machine

/-! PROOFS. Flits at the end of a hop inside the package (R329, Table 10.3): the next one in sequence is accepted, a repeat is
dropped, and a spoilt one is counted and answered with a NAK. -/

namespace Sys2Proof.Machine

-- the two directions of a hop

theorem opp_opp (h : Nat) : opp (opp h) = h := by unfold opp; split <;> split <;> omega
theorem opp_lt {h : Nat} (inside : h < 16) : opp h < 16 := by unfold opp; split <;> omega
theorem linkOf_opp (h : Nat) : linkOf (opp h) = linkOf h := by unfold linkOf opp; split <;> omega

-- what a flit's departure leaves (R328)

/-- Only what a flit's departure changes differs: the hops, and what leaves the package. -/
def HopFrame (s t : State) : Prop := { t with hops := s.hops, out := s.out } = s

theorem HopFrame.trans {s t v : State} (first : HopFrame s t) (second : HopFrame t v) : HopFrame s v := by
  unfold HopFrame at *
  exact (congrArg (fun w : State => { w with hops := s.hops, out := s.out }) second).trans first

theorem hopFrame_setHop (s : State) (h : Nat) (x : Hop) : HopFrame s (setHop s h x) := rfl

theorem hopFrame_onWire (s : State) (h : Nat) (f : Flit) : HopFrame s (onWire s h f) := by
  rw [onWire_eq]; split <;> rfl

theorem hopFrame_hopFlush (n : Nat) (s : State) (h : Nat) : HopFrame s (hopFlush n s h) := by
  induction n generalizing s with
  | zero => rfl
  | succ n ih =>
    unfold hopFlush; simp only; split
    · rfl
    · split
      · rfl
      · exact ((hopFrame_setHop ..).trans (hopFrame_onWire ..)).trans (ih _)

theorem hopFrame_hopSend (s : State) (h : Nat) (fs : List Flit) : HopFrame s (hopSend s h fs) := by
  rw [hopSend_eq]; exact (hopFrame_setHop ..).trans (hopFrame_hopFlush ..)

theorem HopFrame.kept {s t : State} (frame : HopFrame s t) :
    t.regs = s.regs ∧ t.cist = s.cist ∧ t.stns = s.stns ∧ t.arrivals = s.arrivals := by
  have regs := congrArg State.regs frame
  have cist := congrArg State.cist frame
  have stns := congrArg State.stns frame
  have arrivals := congrArg State.arrivals frame
  exact ⟨regs, cist, stns, arrivals⟩

/-- A flit on the wire settles what the other direction owed, and changes nothing else of that direction. -/
theorem hop_onWire_opp (s : State) (h : Nat) (f : Flit) :
    hop (onWire s h f) (opp h) = { hop s (opp h) with ackDue := false } := by
  have taken : hop (ackTaken s h) (opp h) = { hop s (opp h) with ackDue := false } := by rw [ackTaken, hop_setHop, if_pos rfl]
  rw [onWire_eq]; split
  · exact taken
  · rw [hop_setHop, if_neg (opp_ne h), taken]

-- the receiving side (R329)

/-- A direction with other flits on its wire, and the part once the first flit of a wire has been taken off it. -/
def withWire (x : Hop) (rest : List Flit) : Hop := { x with wire := rest }
def wireTaken (s : State) (h : Nat) (rest : List Flit) : State := setHop s h (withWire (hop s h) rest)

theorem hop_wireTaken (s : State) (h : Nat) (rest : List Flit) : hop (wireTaken s h rest) h = withWire (hop s h) rest := by
  rw [wireTaken, hop_setHop, if_pos rfl]

theorem headFlit_inside {s : State} {h : Nat} {f : Flit} {rest : List Flit} (inside : h < 16) (wire : (hop s h).wire = f :: rest)
    (bytes : List Byte) : headFlit s h bytes = some (f, true) := by
  simp only [headFlit, Nat.not_le.2 inside, if_false, wire]

theorem popWire_inside {s : State} {h : Nat} {f : Flit} {rest : List Flit} (inside : h < 16) (wire : (hop s h).wire = f :: rest) :
    popWire s h = wireTaken s h rest := by
  simp only [popWire, Nat.not_le.2 inside, if_false, wire]; rfl

theorem carries_of_up {s : State} {h : Nat} (up : linkUp s (linkOf h) = true) : carries s h = true := by
  rw [carries, up, Bool.true_or]

theorem canReceive_inside {s : State} {h : Nat} (inside : h < 16) (up : linkUp s (linkOf h) = true) : canReceive s h = true := by
  have known : h < 20 := by omega
  simp [canReceive, carries_of_up up, inside, known]

/-- A flit other than a NAK that comes off the wire of a hop inside the package is received, spoilt or not. -/
theorem exec_flitReceive_inside {s : State} {h : Nat} {f : Flit} {rest : List Flit} (inside : h < 16)
    (up : linkUp s (linkOf h) = true) (wire : (hop s h).wire = f :: rest) (sort : f.type ≠ 5) (noise : Noise) :
    exec (.flitReceive h noise []) s = .next (receive (wireTaken s h rest) h f (!noise.bad)) := by
  show execFlitReceive h noise [] s = _
  simp [execFlitReceive, headFlit_inside inside wire, popWire_inside inside wire, canReceive_inside inside up,
    fecCount, inside, guard_of, beq_false_of_ne sort]

/-- A direction that has accepted the flit it expected. -/
def accepting (x : Hop) (f : Flit) : Hop :=
  { x with expect := (x.expect + 1) % 4096, lastAcc := some f.seq, nak := none, ackDue := true }

section Receive

variable {s : State} {h : Nat} {f : Flit}

/-- R329: the number that the receiver expects is accepted. -/
theorem receive_next (plain : f.ackV = false) (seqd : sequenced f.type = true) (known : f.type ≤ 6)
    (next : f.seq = (hop s h).expect) : receive s h f true = deliver (setHop s h (accepting (hop s h) f)) h f := by
  have ahead : (f.seq + 4096 - (hop s h).expect) % 4096 = 0 := by omega
  simp only [receive, plain, seqd, Nat.not_lt.2 known, ahead, Bool.not_true, Bool.false_or, decide_false, Bool.false_eq_true, if_false,
    if_true]
  rfl

/-- R329: a number that has been accepted before is dropped. -/
theorem receive_repeat (plain : f.ackV = false) (known : f.type ≤ 6)
    (old : 2048 ≤ (f.seq + 4096 - (hop s h).expect) % 4096) : receive s h f true = s := by
  have ahead : (f.seq + 4096 - (hop s h).expect) % 4096 ≠ 0 := by omega
  simp only [receive, plain, Nat.not_lt.2 known, ahead, old, Bool.not_true, Bool.false_or, decide_false, Bool.false_eq_true, if_false,
    if_true, ite_self]

/-- R329: a spoilt flit is counted and asked for again. -/
theorem receive_spoilt : receive s h f false = sendNak (addReg s Reg.linkCrc 1) h := rfl

/-- Table 10.3: a SIGNAL flit as an arrival at die `d` over hop `h`. -/
def signalArrival (h d : Nat) (f : Flit) : Arrival :=
  { xp := f.way == 2, hop := h, src := f.srcDie, die := d,
    what := .signal ((f.payload.getD 0 0).toNat % 128) ((f.payload.getD 1 0).toNat % 32) }

/-- The part once hop `h` stands at `x` and has brought an arrival. -/
def brought (s : State) (h : Nat) (x : Hop) (a : Arrival) : State := { setHop s h x with arrivals := s.arrivals ++ [a] }

theorem hop_brought (s : State) (h : Nat) (x : Hop) (a : Arrival) : hop (brought s h x a) h = x :=
  (hop_setHop s h h x).trans (if_pos rfl)

/-- An arrival off the wire of a hop changes the hops and the arrivals alone. -/
theorem brought_frame (s : State) (h : Nat) (rest : List Flit) (x : Hop) (a : Arrival) :
    { brought (wireTaken s h rest) h x a with hops := s.hops, arrivals := s.arrivals } = s := by
  simp only [brought, wireTaken, setHop]

/-- A SIGNAL that reaches its die and names one of the counters 16 to 31 arrives there. -/
theorem deliver_signal {d : Nat} (signal : f.type = 3) (ends : hopEnd s h = some d) (remote : 16 ≤ (f.payload.getD 1 0).toNat % 32)
    (x : Hop) : deliver (setHop s h x) h f = brought s h x (signalArrival h d f) := by
  have same : hopEnd (setHop s h x) h = some d := ends
  simp only [deliver, signal, same, remote, if_true]; rfl

/-- The NAK that a direction sends for the number it expects. -/
def nakFlit (x : Hop) : Flit := { type := 5, payload := leBytes 2 x.expect }

/-- The first NAK since the last acceptance goes on the wire back, and its time is kept. -/
theorem sendNak_first (inside : h < 16) (first : (hop s h).nak = none) : HopFrame s (sendNak s h) ∧
    hop (sendNak s h) h = { hop s h with nak := some s.time.time, ackDue := false } ∧
    ∃ k : Flit, (hop (sendNak s h) (opp h)).wire = (hop s (opp h)).wire ++ [k] ∧ k.type = 5 := by
  have sent : sendNak s h = onWire (setHop s h { hop s h with nak := some s.time.time }) (opp h) (nakFlit (hop s h)) := by
    simp only [sendNak, first, Bool.false_eq_true, if_false]; rfl
  have back := hop_onWire_opp (setHop s h { hop s h with nak := some s.time.time }) (opp h) (nakFlit (hop s h))
  rw [opp_opp, hop_setHop, if_pos rfl] at back
  rw [sent]
  refine ⟨(hopFrame_setHop ..).trans (hopFrame_onWire ..), back, ?_⟩
  rw [hop_onWire (opp_lt inside), hop_setHop, if_neg (opp_ne h)]
  exact ⟨_, rfl, acked_type ..⟩

end Receive

/-- Settles O30: the three cases are those of the acceptance rule. -/
theorem flitsAreAcceptedInSequence : Obligations.FlitsAreAcceptedInSequence := by
  intro s h d f rest inside up wire ends plain signal
  have received := exec_flitReceive_inside inside up wire (by omega)
  have taken := hop_wireTaken s h rest
  have expects : (hop (wireTaken s h rest) h).expect = (hop s h).expect := by rw [taken]; rfl
  refine ⟨fun next remote => ?_, fun small below old => ?_, fun room first => ?_⟩
  · have accept := receive_next (s := wireTaken s h rest) plain (by rw [signal]; rfl) (by omega) (next.trans expects.symm)
    have arrives := accept.trans (deliver_signal (s := wireTaken s h rest) signal ends remote _)
    rw [taken] at arrives
    refine ⟨_, signalArrival h d f, (received {}).trans (congrArg _ arrives), ?_⟩
    rw [hop_brought]
    exact ⟨rfl, rfl, rfl, rfl, rfl, rfl, rfl, rfl, rfl, brought_frame ..⟩
  · have drop := receive_repeat (s := wireTaken s h rest) plain (by omega) (expects.symm ▸ old)
    exact ⟨_, (received {}).trans (congrArg _ drop), rfl, taken⟩
  · have counted : hop (addReg (wireTaken s h rest) Reg.linkCrc 1) h = withWire (hop s h) rest := taken
    have before : hop (addReg (wireTaken s h rest) Reg.linkCrc 1) (opp h) = hop s (opp h) :=
      (hop_setHop ..).trans (if_neg (opp_ne h))
    obtain ⟨frame, own, k, sent, nak⟩ := sendNak_first inside (by rw [counted]; exact first)
    obtain ⟨regs, -, -, arrivals⟩ := frame.kept
    rw [counted] at own
    rw [before] at sent
    refine ⟨_, k, (received { bad := true }).trans (congrArg _ receive_spoilt), ?_, ?_, ?_, sent, nak, arrivals⟩
    · rw [own]; rfl
    · rw [reg_of_regs regs]; exact reg_addReg_one room
    · rw [own]; rfl

end Sys2Proof.Machine

/-! PROOFS. Replay and the link events of the die links (R330, R334, R338 to R340): what is unacknowledged goes on the wire again,
a link event takes both hops of its link down, and a die link trains again by itself. -/

namespace Sys2Proof.Machine

open Sys2Proof.Stated

-- replay (R330)

/-- Flits that go on the wire of hop `h` again, oldest first. -/
def resend (s : State) (h : Nat) (l : List (Flit × Nat)) : State := l.foldl (fun s p => onWire s h p.1) s

theorem hopFrame_resend (s : State) (h : Nat) (l : List (Flit × Nat)) : HopFrame s (resend s h l) := by
  induction l generalizing s with
  | nil => rfl
  | cons p l ih => exact (hopFrame_onWire s h p.1).trans (ih _)

/-- Flits that are sent again keep their numbers and their order, and stay unacknowledged. -/
theorem hop_resend {h : Nat} (inside : h < 16) (s : State) (l : List (Flit × Nat)) :
    (hop (resend s h l) h).unacked = (hop s h).unacked ∧
    (hop (resend s h l) h).wire.map (·.seq) = (hop s h).wire.map (·.seq) ++ l.map (·.1.seq) := by
  induction l generalizing s with
  | nil => exact ⟨rfl, by simp [resend]⟩
  | cons p l ih =>
    obtain ⟨unacked, wire⟩ := ih (onWire s h p.1)
    rw [hop_onWire inside] at unacked wire
    exact ⟨unacked, wire.trans (by simp [acked_seq])⟩

/-- A direction whose unacknowledged flits from position `k` on have one replay more, and the part once it is counted. -/
def replayedFrom (x : Hop) (k : Nat) : Hop := { x with
  unacked := x.unacked.take k ++ (x.unacked.drop k).map (fun p => (p.1, p.2 + 1)), replays := stick32 x.replays 1 }
def replayCounted (s : State) (h k : Nat) : State := addReg (setHop s h (replayedFrom (hop s h) k)) Reg.linkReplay 1

theorem hop_replayCounted (s : State) (h k : Nat) : hop (replayCounted s h k) h = replayedFrom (hop s h) k :=
  (hop_setHop s h h _).trans (if_pos rfl)

/-- A replay none of whose flits has been replayed three times before is counted and sent. -/
theorem replay_of_few {s : State} {h k : Nat} (few : ∀ p ∈ (hop s h).unacked, p.2 < 3) :
    replay s h k = resend (replayCounted s h k) h ((hop s h).unacked.drop k) := by
  have again : ((hop s h).unacked.drop k).any (fun p => decide (3 ≤ p.2)) = false := by
    simp only [List.any_eq_false, decide_eq_true_eq, Nat.not_le]
    exact fun p hp => few p (List.mem_of_mem_drop hp)
  simp only [replay, again, Bool.false_eq_true, if_false]; rfl

/-- What a replay leaves: the count, the flits' own counts, and what is on the wire. -/
theorem replay_replays {s : State} {h : Nat} (inside : h < 16) (k : Nat) (few : ∀ p ∈ (hop s h).unacked, p.2 < 3)
    (room : reg s Reg.linkReplay < 2 ^ 32 - 1) : reg (replay s h k) Reg.linkReplay = reg s Reg.linkReplay + 1 ∧
    (hop (replay s h k) h).unacked = (hop s h).unacked.take k ++ ((hop s h).unacked.drop k).map (fun p => (p.1, p.2 + 1)) ∧
    (hop (replay s h k) h).wire.map (·.seq) = (hop s h).wire.map (·.seq) ++ ((hop s h).unacked.drop k).map (·.1.seq) := by
  obtain ⟨unacked, wire⟩ := hop_resend inside (replayCounted s h k) ((hop s h).unacked.drop k)
  rw [hop_replayCounted] at unacked wire
  obtain ⟨regs, -⟩ := (hopFrame_resend (replayCounted s h k) h ((hop s h).unacked.drop k)).kept
  rw [replay_of_few few, reg_of_regs regs]
  exact ⟨reg_addReg_one room, unacked, wire⟩

-- link events of die links (R338 to R340)

theorem takeFree_regs_ite (s : State) (c : Prop) [Decidable c] : (if c then (takeFree s).2 else s).regs = s.regs := by
  split <;> rfl

/-- A link event is counted, and LINK_DOWN stands in EVT_STATUS. -/
theorem reg_linkRecord {s : State} (room : reg s Reg.linkDown < 2 ^ 32 - 1) (l h reason : Nat) :
    reg (linkRecord s l h reason) Reg.linkDown = reg s Reg.linkDown + 1 ∧
    regBit (linkRecord s l h reason) Reg.evtStatus 7 = true := by
  have before (r : RecIn) (c : Prop) [Decidable c] :
      reg (pushRec (if c then (takeFree s).2 else s) r) Reg.linkDown = reg s Reg.linkDown := by
    rw [reg_pushRec (by decide), reg_of_regs (takeFree_regs_ite s c)]
  refine ⟨?_, regBit_setEvt (by decide) ..⟩
  unfold linkRecord; simp only
  rw [reg_setEvt_ne (by decide), reg_addReg_one (by rw [before]; exact room), before]

/-- The part once a link event of link `l` has been recorded and the requesters on the link have ended. -/
def linkFailed (s : State) (l h reason : Nat) : State :=
  ((linkRecord s l h reason).stns.map (·.1)).foldl (fun s u => failUnit s l u) (linkRecord s l h reason)

/-- The part once the link's hops and credits are clear as well. -/
def linkCut (s : State) (l h reason : Nat) : State := clearLink (clearCredits (linkFailed s l h reason) l) l

theorem linkCut_regs (s : State) (l h reason : Nat) : (linkCut s l h reason).regs = (linkRecord s l h reason).regs := by
  simp only [linkCut, clearLink, clearCredits, setHop_regs, linkFailed]
  exact proj_foldl State.regs (f := fun s u => failUnit s l u) (fun _ _ => rfl) _ _

theorem linkCut_links (s : State) (l h reason : Nat) : (linkCut s l h reason).links = s.links := by
  simp [linkCut, linkFailed, proj_foldl State.links, failUnit]

theorem hop_clearLink (s : State) (l : Nat) : hop (clearLink s l) (2 * l) = {} ∧ hop (clearLink s l) (2 * l + 1) = {} := by
  simp [clearLink]

/-- The part once die link `l` is down. -/
def dieCut (s : State) (l h reason : Nat) : State := { noteFault (linkCut s l h reason) with dieUp := s.dieUp - 2 ^ l }

theorem dieCut_regs (s : State) (l h reason : Nat) : (dieCut s l h reason).regs = (linkRecord s l h reason).regs := by
  simp only [dieCut, noteFault_regs, linkCut_regs]

theorem hop_dieCut (s : State) (l h reason : Nat) :
    hop (dieCut s l h reason) (2 * l) = {} ∧ hop (dieCut s l h reason) (2 * l + 1) = {} := by
  have cleared := hop_clearLink (clearCredits (linkFailed s l h reason) l) l
  simp only [hop, dieCut, noteFault_hops] at cleared ⊢
  exact cleared

/-- R338, R340: a die link that is UP goes down. -/
theorem linkDownAt_die {s : State} {h : Nat} (die : linkOf h < 8) (up : linkUp s (linkOf h) = true) (reason : Nat) :
    linkDownAt s h reason = dieCut s (linkOf h) h reason := by
  have links := (links_eq_iff.1 (linkCut_links s (linkOf h) h reason)).1
  rw [dieCut, ← links]
  simp only [linkDownAt, up, die, Bool.not_true, Bool.false_eq_true, if_false, decide_true, Bool.true_or, if_true]
  rfl

/-- A bit that is set is gone once its power of two is subtracted. -/
theorem testBit_sub_two_pow {x l : Nat} (set : x.testBit l = true) : (x - 2 ^ l).testBit l = false := by
  have bit : x &&& 2 ^ l = 2 ^ l := by rw [Nat.and_two_pow, set]; simp
  have := testBit_sub_and x (2 ^ l) l
  rwa [bit, Nat.testBit_two_pow_self, Bool.not_true, Bool.and_false] at this

theorem linkUp_die {l : Nat} (die : l < 8) (s : State) : linkUp s l = s.dieUp.testBit l := if_pos die

theorem dieLinkDown_dieCut {s : State} {l : Nat} (die : l < 8) (up : linkUp s l = true)
    (room : reg s Reg.linkDown < 2 ^ 32 - 1) (h reason : Nat) : DieLinkDown s (dieCut s l h reason) l := by
  obtain ⟨count, event⟩ := reg_linkRecord room l h reason
  obtain ⟨out, back⟩ := hop_dieCut s l h reason
  have regs := reg_of_regs (dieCut_regs s l h reason)
  rw [linkUp_die die] at up
  refine ⟨?_, (regs _).trans count, ?_, out, back⟩
  · rw [linkUp_die die]
    exact testBit_sub_two_pow up
  · rw [regBit, regs]
    exact event

-- what takes a die link down (R330, R338)

theorem hopDown_inside {h : Nat} (inside : h < 16) (s : State) (reason : Nat) : hopDown s h reason = linkDownAt s h reason :=
  if_pos inside

section Rows

variable {s : State} {h : Nat} (inside : h < 16) (up : linkUp s (linkOf h) = true)

include inside up

theorem carries_inside : (decide (h < 20) && carries s h) = true := by
  have known : h < 20 := by omega
  simp [carries_of_up up, known]

theorem exec_replayTimeout (waits : (hop s h).unacked ≠ []) : exec (.replayTimeout h) s = .next (replay s h 0) :=
  guard_of (by rw [carries_inside inside up]; simpa using waits) s _

theorem exec_linkAckTimeout (waits : (hop s h).unacked ≠ []) : exec (.linkAckTimeout h) s = .next (hopDown s h 1) :=
  guard_of (by rw [carries_inside inside up]; simpa using waits) s _

theorem exec_idleAckFlit (due : (hop s (opp h)).ackDue = true) : exec (.idleAckFlit h) s = .next (onWire s h {}) :=
  guard_of (by rw [carries_inside inside up, due]; simp [inside]) s _

theorem exec_lossOfLock : exec (.lossOfLock h) s = .next (linkDownAt s (opp h) 2) := by
  show execLossOfLock h s = _
  simp only [execLossOfLock, inside, up, if_true, guard_true]

/-- A NAK that names an unacknowledged flit of the other direction comes off the wire and has it replay from there. -/
theorem exec_nakReceive {f : Flit} {rest : List Flit} {k : Nat} (wire : (hop s (opp h)).wire = f :: rest) (nak : f.type = 5)
    (plain : f.ackV = false) (named : (hop s h).unacked.findIdx? (fun p => p.1.seq == leNat (f.payload.take 2) % 4096) = some k) :
    exec (.nakReceive (opp h) []) s = .next (replay (wireTaken s (opp h) rest) h k) := by
  have kept : hop (wireTaken s (opp h) rest) h = hop s h := (hop_setHop ..).trans (if_neg (opp_ne h).symm)
  have receives : canReceive s (opp h) = true := canReceive_inside (opp_lt inside) ((linkOf_opp h).symm ▸ up)
  show execNakReceive (opp h) [] s = _
  simp [execNakReceive, headFlit_inside (opp_lt inside) wire, popWire_inside (opp_lt inside) wire, opp_opp, plain, receives, nak,
    kept, named]

/-- R330, R338 to R340: each fault of a die link is one link event of it. -/
theorem dieLinkDown_linkDownAt (room : reg s Reg.linkDown < 2 ^ 32 - 1) (reason : Nat) :
    DieLinkDown s (linkDownAt s h reason) (linkOf h) := by
  have die : linkOf h < 8 := by unfold linkOf; omega
  rw [linkDownAt_die die up]
  exact dieLinkDown_dieCut die up room h reason

end Rows

/-- R330: a fourth replay takes the link down. -/
theorem replay_of_fourth {s : State} {h : Nat} (fourth : ∃ p ∈ (hop s h).unacked, 3 ≤ p.2) : replay s h 0 = hopDown s h 1 := by
  have again : ((hop s h).unacked.drop 0).any (fun p => decide (3 ≤ p.2)) = true := by simpa using fourth
  simp only [replay, again, if_true]

-- what brings a die link up (R334)

/-- A bit that is clear is set once its power of two is added, and no other bit changes. -/
theorem testBit_add_two_pow {x l : Nat} (clear : x.testBit l = false) (k : Nat) :
    (x + 2 ^ l).testBit k = (x.testBit k || decide (k = l)) := by
  have set : (x + 2 ^ l).testBit l = true := by rw [Nat.add_comm, Nat.testBit_two_pow_add_eq, clear]; rfl
  by_cases same : k = l
  · rw [same, set]; simp
  · have bit : (x + 2 ^ l) &&& 2 ^ l = 2 ^ l := by rw [Nat.and_two_pow, set]; simp
    have := testBit_sub_and (x + 2 ^ l) (2 ^ l) k
    rw [bit, Nat.add_sub_cancel, Nat.testBit_two_pow_of_ne (Ne.symm same), Bool.not_false, Bool.and_true] at this
    rw [← this]; simp [same]

theorem exec_dieLinkRetrain {s : State} {l : Nat} (has : l ∈ dieLinks s) (down : s.dieUp.testBit l = false) (awake : s.gov.ps ≠ .p3)
    (powered : s.gov.ps ≠ .p4) (service : reg s Reg.bootStatus % 16 = 7) :
    exec (.dieLinkRetrain l) s = .next (clearLink { s with dieUp := s.dieUp + 2 ^ l } l) := by
  have ready : (!s.dieUp.testBit l && s.gov.ps != .p3 && s.gov.ps != .p4 && reg s Reg.bootStatus % 16 == 7) = true := by
    simp [down, awake, powered, service]
  exact (withOperand_of (List.contains_iff_mem.2 has) _).trans (guard_of ready s _)

theorem mem_dieLinks {s : State} {l : Nat} (known : l < 8) (small : s.part.variant = 2 → l ∈ [0, 1, 4]) : l ∈ dieLinks s := by
  unfold dieLinks isT2; split
  · next t2 => exact small (by simpa using t2)
  · interval_cases l <;> decide

/-- Settles O31: a replay is counted and sent, a fault is one link event, and training numbers both directions anew. -/
theorem linksReplayGoDownAndRetrain : Obligations.LinksReplayGoDownAndRetrain := by
  constructor
  · intro s h inside up
    refine ⟨fun waits few room => ?_, fun waits fourth room => ?_, fun waits room => ?_, fun f rest k wire nak plain few named room => ?_,
      fun a due last => ?_⟩
    · obtain ⟨count, unacked, seqs⟩ := replay_replays inside 0 few room
      exact ⟨_, exec_replayTimeout inside up waits, count, by simpa using unacked, by simpa using seqs⟩
    · refine ⟨_, exec_replayTimeout inside up waits, ?_⟩
      rw [replay_of_fourth fourth, hopDown_inside inside]
      exact dieLinkDown_linkDownAt inside up room 1
    · refine ⟨_, exec_linkAckTimeout inside up waits, ?_⟩
      rw [hopDown_inside inside]
      exact dieLinkDown_linkDownAt inside up room 1
    · have kept : hop (wireTaken s (opp h) rest) h = hop s h := (hop_setHop ..).trans (if_neg (opp_ne h).symm)
      obtain ⟨count, unacked, -⟩ := replay_replays (s := wireTaken s (opp h) rest) inside k (by rwa [kept]) room
      rw [kept] at unacked
      exact ⟨_, exec_nakReceive inside up wire nak plain named, count, unacked⟩
    · refine ⟨_, acked (hop s (opp h)) {}, exec_idleAckFlit inside up due, ?_, acked_type .., ?_, ?_, ?_⟩
      · rw [hop_onWire inside]
      · simp [acked, last]
      · simp [acked, last]
      · rw [hop_onWire_opp]
  · refine fun s => ⟨fun h inside up room => ?_, fun l known small down awake powered service => ?_⟩
    · refine ⟨_, exec_lossOfLock inside up, ?_⟩
      have event := dieLinkDown_linkDownAt (opp_lt inside) ((linkOf_opp h).symm ▸ up) room 2
      rwa [linkOf_opp] at event
    · rw [linkUp_die known] at down
      have bits := testBit_add_two_pow down
      obtain ⟨out, back⟩ := hop_clearLink { s with dieUp := s.dieUp + 2 ^ l } l
      refine ⟨_, exec_dieLinkRetrain (mem_dieLinks known small) down awake powered service, ⟨?_, out, back⟩, fun k hk other => ?_⟩
      · rw [linkUp_die known]; exact (bits l).trans (by simp)
      · rw [linkUp_die hk, linkUp_die hk]; exact (bits k).trans (by simp [other])

end Sys2Proof.Machine

/-! PROOFS. The Extium Links (R334 to R341, R475, Table 10.5): their training and pairing, what takes one down, and the ends of
a LINK_TRAIN operation and of a held pairing. -/

namespace Sys2Proof.Machine

-- floats (R473)

theorem setEvt_floats (s : State) (b : Nat) : (setEvt s b).floats = s.floats := by
  unfold setEvt evtRise sendMsix; simp only; (repeat' split) <;> rfl

theorem reg_floatEnd_ne {a : Nat} (h : a ≠ Reg.evtStatus) (s : State) (n : Nat) (ok : Bool) (res : Nat) :
    reg (floatEnd s n ok res) a = reg s a := by
  unfold floatEnd; simp only; split
  · rfl
  · exact reg_setEvt_ne h _ _

/-- R473 step 1: a float that starts is RUNNING, and of the registers only EVT_STATUS can change. -/
theorem getFloat_floatStart (s : State) (n op fin : Nat) :
    (getFloat (floatStart s n op fin) n).op = op ∧ (getFloat (floatStart s n op fin) n).st = 1 := by
  simp [floatStart]

theorem reg_floatStart_ne {a : Nat} (h : a ≠ Reg.evtStatus) (s : State) (n op fin : Nat) : reg (floatStart s n op fin) a = reg s a := by
  unfold floatStart; simp only; split
  · exact reg_floatEnd_ne h s n false 0xFE
  · rfl

/-- R473 step 3: a float that is RUNNING and fails stands at FAILED with its result. -/
theorem getFloat_floatEnd_failed {s : State} {n : Nat} (running : (getFloat s n).st = 1) (res : Nat) :
    getFloat (floatEnd s n false res) n = { getFloat s n with st := 3, result := res } := by
  simp only [floatEnd, running, ne_eq, not_true_eq_false, if_false, Bool.false_eq_true]
  rw [getFloat, setEvt_floats]
  exact (getFloat_putFloat s n n _).trans (if_pos rfl)

-- training (R334, R342, R475)

theorem getExt_trainStart (s : State) (l k : Nat) : getExt (trainStart s l) k =
    if k = l then { getExt s l with st := .detect, peer := none } else getExt s k := by
  rw [trainStart, getExt_putExt, getExt_of_links (clearLink_links ..)]

theorem trainStart_regs (s : State) (l : Nat) : (trainStart s l).regs = s.regs := by
  simp only [trainStart, putExt_regs, clearLink, setHop_regs]

/-- The part once the links of a mask have begun to train, before float 5 starts. -/
def trainBegun (s : State) (mask : Nat) : State :=
  let s := { s with roleNow := regBit s Reg.pairCtl 1, trainLinks := mask }
  let s := if mask.testBit 0 then trainStart s 0 else s
  if mask.testBit 1 then trainStart s 1 else s

theorem trainLinks_eq (s : State) (mask : Nat) : trainLinks s mask = floatStart (trainBegun s mask) 5 7 (4 * popc 2 mask) := rfl

theorem trainBegun_regs (s : State) (mask : Nat) : (trainBegun s mask).regs = s.regs := by
  simp only [trainBegun, apply_ite State.regs, trainStart_regs, ite_self]

/-- Each link of the mask is in DETECT once a training begins. -/
theorem getExt_trainLinks (s : State) {mask l : Nat} (known : l < 2) (named : mask.testBit l = true) :
    (getExt (trainLinks s mask) l).st = .detect := by
  rw [trainLinks_eq, getExt_of_links (floatStart_links ..), trainBegun]
  interval_cases l
  · simp only [named, if_true]; split <;> simp [getExt_trainStart]
  · simp only [named, if_true]; simp [getExt_trainStart]

/-- A training that begins starts float 5, and changes no register but EVT_STATUS. -/
theorem trainLinks_starts {a : Nat} (h : a ≠ Reg.evtStatus) (s : State) (mask : Nat) : reg (trainLinks s mask) a = reg s a ∧
    (getFloat (trainLinks s mask) 5).op = 7 ∧ (getFloat (trainLinks s mask) 5).st = 1 := by
  rw [trainLinks_eq, reg_floatStart_ne h, reg_of_regs (trainBegun_regs s mask)]
  exact ⟨rfl, getFloat_floatStart ..⟩

theorem exec_linkPairCtlWrite {s : State} {v : Nat} (ext : s.part.variant = 0) (on : v % 2 = 1)
    (off : regBit s Reg.pairCtl 0 = false) : exec (.linkPairCtlWrite v) s = .next (trainLinks (setReg s Reg.pairCtl (v % 8)) 3) := by
  show execLinkPairCtlWrite v s = _
  simp [execLinkPairCtlWrite, hasExt, ext, on, off]

/-- LINK_RETRAIN of both links starts the training of both, whatever it first takes down. -/
theorem exec_linkRetrain {s : State} (ext : s.part.variant = 0) (on : regBit s Reg.pairCtl 0 = true) :
    ∃ t, exec (.linkRetrain 3) s = .next (trainLinks t 3) := by
  have allowed : ¬((!hasExt s) = true ∨ (!regBit s Reg.pairCtl 0) = true ∨ 3 % 4 = 0) := by simp [hasExt, ext, on]
  exact ⟨_, if_neg allowed⟩

/-- AUTO_RETRAIN of a link that is DOWN in P0 puts it in DETECT. -/
theorem exec_extAutoRetrain {s : State} {l : Nat} (known : l < 2) (down : (getExt s l).st = .down) (on : regBit s Reg.pairCtl 0 = true)
    (auto : regBit s Reg.pairCtl 2 = true) (run : s.gov.ps = .p0) :
    ∃ s', exec (.extAutoRetrain l) s = .next s' ∧ (getExt s' l).st = .detect := by
  have ready : ((getExt s l).st == .down && regBit s Reg.pairCtl 0 && (regBit s Reg.pairCtl 2 || s.held) &&
      s.gov.ps != .p3 && s.gov.ps != .p4) = true := by simp [down, on, auto, run]
  refine ⟨_, (withOperand_of (decide_eq_true known) _).trans (guard_of ready s _), ?_⟩
  split
  · rw [getExt_of_links (putFloat_links ..), getExt_trainStart, if_pos rfl]
  · exact getExt_trainLinks s known (by interval_cases l <;> rfl)

/-- The part once link `l` has moved on to the next state of its training. -/
def trainStep (s : State) (l : Nat) (st : ExtSt) : State :=
  if s.trainLinks.testBit l then floatPos (putExt s l { getExt s l with st := st }) 5 ((getFloat s 5).pos + 1)
  else putExt s l { getExt s l with st := st }

theorem getExt_trainStep (s : State) (l : Nat) (st : ExtSt) : getExt (trainStep s l st) l = { getExt s l with st := st } := by
  unfold trainStep; split
  · rw [getExt_of_links (floatPos_links ..), getExt_putExt, if_pos rfl]
  · rw [getExt_putExt, if_pos rfl]

/-- R334: DETECT, EQUALIZE and ALIGN are left for the next state, and PAIR is entered with PAIR_INFO. -/
theorem exec_extLinkTrainState_detect {s : State} {l : Nat} (st : (getExt s l).st = .detect) :
    exec (.extLinkTrainState l) s = .next (trainStep s l .equalize) := by
  show execExtLinkTrainState l s = _
  simp only [execExtLinkTrainState, st]; rfl

theorem exec_extLinkTrainState_equalize {s : State} {l : Nat} (st : (getExt s l).st = .equalize) :
    exec (.extLinkTrainState l) s = .next (trainStep s l .align) := by
  show execExtLinkTrainState l s = _
  simp only [execExtLinkTrainState, st]; rfl

theorem exec_extLinkTrainState_align {s : State} {l : Nat} (st : (getExt s l).st = .align) :
    ∃ body, exec (.extLinkTrainState l) s = .next (sendCtrl (trainStep s l .pair) l 0 body) := by
  show ∃ body, execExtLinkTrainState l s = _
  simp only [execExtLinkTrainState, st]
  exact ⟨_, rfl⟩

-- pairing (R335, R336)

theorem acceptNext_links (s : State) (l : Nat) : (acceptNext s l).links = s.links := by simp [acceptNext]

theorem role_of_links {s t : State} (h : t.links = s.links) : role t = role s := by
  obtain ⟨-, -, -, -, now⟩ := links_eq_iff.1 h
  rw [role, now]; rfl

/-- The part once link `l` is UP, before the pair is judged. -/
def linkRaised (s : State) (l : Nat) (maps : List Nat) : State :=
  putExt (clearLink (clearCredits s (8 + l)) (8 + l)) l { getExt s l with st := .up, event := false, peer := some maps }

theorem getExt_linkRaised (s : State) (l : Nat) (maps : List Nat) (k : Nat) : getExt (linkRaised s l maps) k =
    if k = l then { getExt s l with st := .up, event := false, peer := some maps } else getExt s k := by
  rw [linkRaised, getExt_putExt, getExt_of_links ((clearLink_links ..).trans (clearCredits_links ..))]

theorem tellPeer_links (s : State) : (tellPeer s).links = s.links := by simp [tellPeer]
theorem trainDone_links (s : State) : (trainDone s).links = s.links := by simp [trainDone]

/-- Whether both Extium Links are UP, and the part once the pair has been judged by it. -/
def bothUp (s : State) : Bool := (getExt s 0).st == .up && (getExt s 1).st == .up
def pairJudged (s : State) (maps : List Nat) : State := if bothUp s then
  tellPeer { s with paired := true, held := false, peerEn := (List.range 4).map (fun d => (d, maps.getD d 0)) } else s

theorem pairJudged_ext (s : State) (maps : List Nat) : (pairJudged s maps).ext = s.ext := by
  unfold pairJudged; split
  · exact (links_eq_iff.1 (tellPeer_links _)).2.1
  · rfl

theorem pairJudged_paired {s : State} (both : bothUp s = true) (maps : List Nat) : (pairJudged s maps).paired = true := by
  rw [pairJudged, if_pos both, (links_eq_iff.1 (tellPeer_links _)).2.2.1]

/-- R335, R336: a link that comes UP is UP, and the pair stands once both are. -/
theorem extUp_raises (s : State) (l : Nat) (maps : List Nat) : (extUp s l maps).ext = (linkRaised s l maps).ext ∧
    (bothUp (linkRaised s l maps) = true → (extUp s l maps).paired = true) := by
  obtain ⟨t, links, up⟩ : ∃ t, t.links = (linkRaised s l maps).links ∧ extUp s l maps = trainDone (pairJudged t maps) := by
    refine ⟨_, ?_, rfl⟩
    split
    · exact floatPos_links ..
    · rfl
  have same : bothUp t = bothUp (linkRaised s l maps) := by simp only [bothUp, getExt_of_links links]
  obtain ⟨-, ext, paired, -⟩ := links_eq_iff.1 (trainDone_links (pairJudged t maps))
  rw [up, ext, paired, pairJudged_ext, ← same]
  exact ⟨(links_eq_iff.1 links).2.1, fun both => pairJudged_paired both maps⟩

theorem getExt_of_ext {s t : State} (h : t.ext = s.ext) (l : Nat) : getExt t l = getExt s l := by rw [getExt, h]; rfl

/-- A link that comes UP beside one that is UP completes the pair. -/
theorem extUp_up {s : State} {l : Nat} (known : l < 2) (maps : List Nat) : (getExt (extUp s l maps) l).st = .up ∧
    ((getExt s (1 - l)).st = .up → (extUp s l maps).paired = true) := by
  obtain ⟨ext, pair⟩ := extUp_raises s l maps
  refine ⟨by rw [getExt_of_ext ext, getExt_linkRaised, if_pos rfl], fun other => pair ?_⟩
  interval_cases l <;> simpa [bothUp, getExt_linkRaised] using other

-- links that go down (R338 to R341)

/-- An Extium Link that is DOWN for a reason, its link event in progress. -/
def fallen (e : ExtLink) (reason : Nat) : ExtLink := { e with st := .down, reason := reason, event := true }

/-- R338, R339: a link in training goes down with the reason. -/
theorem getExt_extDown_training {s : State} {l : Nat} (st : (getExt s l).st = .pair) (reason : Nat) (tell : Bool) :
    getExt (extDown s l reason tell) l = fallen (getExt s l) reason := by
  have notUp : (getExt s l).st ≠ .up := by rw [st]; decide
  have trains : training (getExt s l) = true := by simp [training, st]
  simp only [extDown, notUp, trains, if_false, if_true]
  rw [getExt_of_links (trainFail_links ..), getExt_putExt, if_pos rfl]; rfl

/-- R335: what the peer says is judged by its role, its variant, and the maps the other link heard. -/
theorem exec_pairInfo {s : State} {l : Nat} (known : l < 2) (st : (getExt s l).st = .pair) (pr v : Nat) {maps : List Nat}
    (four : maps.length = 4) (words : ∀ m ∈ maps, m < 2 ^ 32) :
    exec (.pairInfo l pr v maps) s = .next (pairCheck (acceptNext s l) l pr v maps) := by
  have legal : (decide (l < 2) && maps.length == 4 && maps.all (fun m => decide (m < 2 ^ 32))) = true := by
    simpa [known, four] using words
  exact (withOperand_of legal _).trans (guard_of (by rw [st]; rfl) s _)

/-- What the peer says of itself brings link `l` up or takes it down. -/
theorem pairInfo_judges {s : State} {l : Nat} (known : l < 2) (st : (getExt s l).st = .pair) :
    (∀ pr m0 m1 m2 m3, pr ≠ role s → m0 < 2 ^ 32 → m1 < 2 ^ 32 → m2 < 2 ^ 32 → m3 < 2 ^ 32 →
      ((getExt s (1 - l)).peer = none ∨ (getExt s (1 - l)).peer = some [m0, m1, m2, m3]) →
      ∃ s', exec (.pairInfo l pr 0 [m0, m1, m2, m3]) s = .next s' ∧ (getExt s' l).st = .up ∧
        ((getExt s (1 - l)).st = .up → s'.paired = true)) ∧
    (∀ v, ∃ s', exec (.pairInfo l (role s) v [0, 0, 0, 0]) s = .next s' ∧ getExt s' l = fallen (getExt s l) 5) ∧
    (∀ pr v, pr ≠ role s → v ≠ 0 → ∃ s', exec (.pairInfo l pr v [0, 0, 0, 0]) s = .next s' ∧
      getExt s' l = fallen (getExt s l) 6) := by
  have links := acceptNext_links s l
  have own : role (acceptNext s l) = role s := role_of_links links
  have st' : (getExt (acceptNext s l) l).st = .pair := by rw [getExt_of_links links, st]
  have falls (reason : Nat) := getExt_extDown_training st' reason true
  rw [getExt_of_links links] at falls
  refine ⟨fun pr m0 m1 m2 m3 other h0 h1 h2 h3 heard => ?_, fun v => ?_, fun pr v other foreign => ?_⟩
  · have judged := exec_pairInfo known st pr 0 (maps := [m0, m1, m2, m3]) rfl (by simpa using ⟨h0, h1, h2, h3⟩)
    have raised : pairCheck (acceptNext s l) l pr 0 [m0, m1, m2, m3] = extUp (acceptNext s l) l [m0, m1, m2, m3] := by
      rw [pairCheck, own, if_neg other, if_neg (by simp), getExt_of_links links]
      rcases heard with none | same
      · rw [none]
      · rw [same]; exact if_pos rfl
    obtain ⟨up, pair⟩ := extUp_up (s := acceptNext s l) known [m0, m1, m2, m3]
    rw [getExt_of_links links] at pair
    exact ⟨_, judged.trans (congrArg _ raised), up, pair⟩
  · have judged := exec_pairInfo known st (role s) v (maps := [0, 0, 0, 0]) rfl (by simp)
    exact ⟨_, judged.trans (congrArg _ (if_pos own.symm)), falls 5⟩
  · have judged := exec_pairInfo known st pr v (maps := [0, 0, 0, 0]) rfl (by simp)
    exact ⟨_, judged.trans (congrArg _ ((if_neg (own.symm ▸ other)).trans (if_pos foreign))), falls 6⟩

/-- R341: the peer's CTRL DOWN is taken as the next flit in sequence. -/
theorem exec_ctrlDownReceive {s : State} {l r : Nat} (known : l < 2) (reason : r < 16) (st : (getExt s l).st = .up) :
    exec (.ctrlDownReceive ⟨l, r⟩) s = .next (peerDown (acceptNext s l) l r) := by
  have legal : (decide (l < 2) && decide (r < 16)) = true := by simp [known, reason]
  exact (withOperand_of legal _).trans (guard_of (by rw [st]; rfl) s _)

/-- The part once Extium Link `l`, which was UP, is DOWN on the peer's word, before the pairing falls. -/
def peerCut (s : State) (l reason : Nat) : State :=
  trainFail (putExt (linkCut s (8 + l) (16 + 2 * l) reason) l (fallen (getExt s l) reason)) l reason

theorem linkOf_ext (l : Nat) : linkOf (16 + 2 * l) = 8 + l := by unfold linkOf; omega

/-- R338, R341: a link that is UP goes down on the peer's word; only STANDBY leaves the pairing. -/
theorem extDown_up {s : State} {l : Nat} (st : (getExt s l).st = .up) (reason : Nat) :
    extDown s l reason false = if reason = 8 then peerCut s l reason else unpair (peerCut s l reason) := by
  have far : ¬ 8 + l < 8 := by omega
  have up : linkUp s (8 + l) = true := by
    simp only [linkUp, far, if_false, Nat.add_sub_cancel_left]
    simpa [getExt] using st
  rw [peerCut, ← getExt_of_links (linkCut_links s (8 + l) (16 + 2 * l) reason) l]
  simp only [extDown, st, if_true, linkDownAt, linkOf_ext, up, Bool.not_true, Bool.false_eq_true, if_false, far, decide_false,
    Bool.not_false, Bool.or_true, Nat.add_sub_cancel_left]
  rfl

/-- A link that has gone down so is DOWN with the reason, and the pairing is as it was. -/
theorem peerCut_falls (s : State) (l reason : Nat) : getExt (peerCut s l reason) l = fallen (getExt s l) reason ∧
    (peerCut s l reason).paired = s.paired ∧ (peerCut s l reason).held = s.held := by
  obtain ⟨-, -, paired, held, -⟩ := links_eq_iff.1 (linkCut_links s (8 + l) (16 + 2 * l) reason)
  obtain ⟨-, ext, wasPaired, wasHeld, -⟩ := links_eq_iff.1
    (trainFail_links (putExt (linkCut s (8 + l) (16 + 2 * l) reason) l (fallen (getExt s l) reason)) l reason)
  exact ⟨(getExt_of_ext ext l).trans ((getExt_putExt ..).trans (if_pos rfl)), wasPaired.trans paired, wasHeld.trans held⟩

/-- R336: the end of a pairing changes the state of no link. -/
theorem unpair_ext (s : State) : (unpair s).ext = s.ext := by
  have faulted : (if s.paired then faultAll (noteFault s) else s).links = s.links := by simp
  have ended (t : State) : ((t.stns.map (·.1)).foldl
      (fun s u => endSips u 5 (fun q => (q.tiles.head?.map (·.xpkg)).getD false) s) t).links = t.links :=
    proj_foldl State.links (fun _ _ => endSips_links ..) _ _
  exact (links_eq_iff.1 ((ended _).trans faulted)).2.1

/-- R338, R341: CTRL DOWN takes an UP link down with PEER_DOWN, and ends the pairing. -/
theorem ctrlDown_unpairs {s : State} {l r : Nat} (known : l < 2) (reason : r < 16) (st : (getExt s l).st = .up) (other : r ≠ 8) :
    ∃ s', exec (.ctrlDownReceive ⟨l, r⟩) s = .next s' ∧ getExt s' l = fallen (getExt s l) 4 ∧ s'.paired = false := by
  have links := acceptNext_links s l
  have up : (getExt (acceptNext s l) l).st = .up := by rw [getExt_of_links links, st]
  refine ⟨unpair (peerCut (acceptNext s l) l 4), ?_, ?_, rfl⟩
  · rw [exec_ctrlDownReceive known reason st, peerDown, if_neg (fun h => other h.1), extDown_up up, if_neg (by decide)]
  · rw [getExt_of_ext (unpair_ext _), (peerCut_falls ..).1, getExt_of_links links]

/-- R341: CTRL DOWN with STANDBY takes an UP link down, and has the pairing held. -/
theorem ctrlDown_standby_holds {s : State} {l : Nat} (known : l < 2) (st : (getExt s l).st = .up) (pair : s.paired = true) :
    ∃ s', exec (.ctrlDownReceive ⟨l, 8⟩) s = .next s' ∧ getExt s' l = fallen (getExt s l) 8 ∧
      s'.paired = true ∧ s'.held = true := by
  have links := acceptNext_links s l
  have up : (getExt { acceptNext s l with held := true } l).st = .up := (congrArg ExtLink.st (getExt_of_links links l)).trans st
  have paired : (acceptNext s l).paired = true := (links_eq_iff.1 links).2.2.1.trans pair
  obtain ⟨down, isPaired, isHeld⟩ := peerCut_falls { acceptNext s l with held := true } l 8
  refine ⟨peerCut { acceptNext s l with held := true } l 8, ?_, ?_, isPaired.trans paired, isHeld⟩
  · rw [exec_ctrlDownReceive known (by decide) st, peerDown, if_pos ⟨rfl, paired⟩, extDown_up up, if_pos rfl]
  · exact down.trans (congrArg (fallen · 8) (getExt_of_links links l))

/-- A key that is not listed has the default. -/
theorem tabGet_of_not_listed {α : Type} {d : α} {t : Tab α} {i : Nat} (absent : ∀ p ∈ t, p.1 ≠ i) : tabGet d t i = d := by
  induction t with
  | nil => rfl
  | cons p t ih =>
    obtain ⟨k, v⟩ := p
    obtain ⟨first, rest⟩ := List.forall_mem_cons.1 absent
    rw [tabGet, if_neg (Ne.symm first), ih rest, ite_self]

/-- R336: once the pairing has ended, no credit of a die of the other package is in use. -/
theorem creditsUsed_unpair (s : State) (d : Nat) {e : Nat} (far : 4 ≤ e) (known : e < 8) : creditsUsed (unpair s) d e = 0 := by
  refine tabGet_of_not_listed fun p hp => ?_
  have near : p.1 % 8 < 4 := of_decide_eq_true (List.mem_filter.1 hp).2
  unfold creditKey; omega

-- ends of an operation and of a pairing (R341, R475)

theorem exec_linkTrainTimeout {s : State} (running : (getFloat s 5).st = 1) (trains : s.trainLinks ≠ 0) :
    exec .linkTrainTimeout s = .next (floatEnd { s with trainLinks := 0 } 5 false 0x10) :=
  guard_of (by simp [running, trains]) s _

theorem exec_pairHoldExpire {s : State} (held : s.held = true) (awake : s.gov.ps ≠ .p3) (down : (getExt s 0).st ≠ .up) :
    exec .pairHoldExpire s = .next (unpair s) := guard_of (by simp [held, awake, down]) s _

/-- Settles O32: each row moves one link's state, or the pairing, by the reason it gives. -/
theorem extiumLinksTrainPairAndTimeOut : Obligations.ExtiumLinksTrainPairAndTimeOut := by
  constructor
  · intro s
    refine ⟨fun v ext on off => ?_, fun l st => ?_, fun l st => ?_, fun l st => ?_, fun l pr m0 m1 m2 m3 known st => ?_,
      fun l known st => ?_, fun l pr v known st other foreign => ?_, fun l r known reason st =>
      ⟨fun other => ?_, fun standby pair => ?_⟩,
      fun ext on _ _ => ?_, fun l known st on auto run => exec_extAutoRetrain known st on auto run⟩
    · obtain ⟨kept, op, running⟩ := trainLinks_starts (a := Reg.pairCtl) (by decide) (setReg s Reg.pairCtl (v % 8)) 3
      exact ⟨_, exec_linkPairCtlWrite ext on off, getExt_trainLinks _ (by decide) rfl, getExt_trainLinks _ (by decide) rfl,
        kept.trans (reg_setReg_self (by omega) ..), op, running⟩
    · exact ⟨_, exec_extLinkTrainState_detect st, by rw [getExt_trainStep]⟩
    · exact ⟨_, exec_extLinkTrainState_equalize st, by rw [getExt_trainStep]⟩
    · obtain ⟨body, enters⟩ := exec_extLinkTrainState_align st
      exact ⟨_, enters, by rw [getExt_of_links (sendCtrl_links ..), getExt_trainStep]⟩
    · exact (pairInfo_judges known st).1 pr m0 m1 m2 m3
    · obtain ⟨s', judged, down⟩ := (pairInfo_judges known st).2.1 0
      exact ⟨s', judged, by rw [down]; rfl, by rw [down]; rfl⟩
    · obtain ⟨s', judged, down⟩ := (pairInfo_judges known st).2.2 pr v other foreign
      exact ⟨s', judged, by rw [down]; rfl, by rw [down]; rfl⟩
    · obtain ⟨s', judged, down, pairing⟩ := ctrlDown_unpairs known reason st other
      exact ⟨s', judged, by rw [down]; rfl, by rw [down]; rfl, pairing⟩
    · subst standby
      obtain ⟨s', judged, down, pairing⟩ := ctrlDown_standby_holds known st pair
      exact ⟨s', judged, by rw [down]; rfl, by rw [down]; rfl, pairing⟩
    · obtain ⟨t, begins⟩ := exec_linkRetrain ext on
      exact ⟨_, begins, getExt_trainLinks t (by decide) rfl, getExt_trainLinks t (by decide) rfl⟩
  · refine fun s => ⟨fun running trains => ?_, fun held awake down => ?_⟩
    · have failed := getFloat_floatEnd_failed (s := { s with trainLinks := 0 }) running 0x10
      have links := floatEnd_links { s with trainLinks := 0 } 5 false 0x10
      have frame := floatFrame_floatEnd { s with trainLinks := 0 } 5 false 0x10
      have mask := congrArg State.trainLinks frame
      exact ⟨_, exec_linkTrainTimeout running trains, by rw [failed], by rw [failed], mask, (links_eq_iff.1 links).2.1⟩
    · exact ⟨_, exec_pairHoldExpire held awake down, rfl, rfl, fun d e => creditsUsed_unpair s d⟩

end Sys2Proof.Machine

/-! PROOFS. Siphon tiles (R312, R316 to R319). O29 fails for a tile whose destination is no unit: `Tile.dst` has no bound, and from die 1
a tile for the units from 128 on, not marked for the paired package, takes hop 17, which is inward on Extium Link 0; its flits then
leave the package and stand on no wire. Every other part of O29 holds, and is proved here for the units there are. -/

namespace Sys2Proof.Machine

-- where O29 fails

/-- A tile of unit 32 for a unit 128, which no part has, and a part on which it has its credit, its leave and its turn. -/
def strayTile : Tile := { dst := 128, src := 32 }
def strayState : State := { State.reset with
  ext := [(0, { st := .up })],
  stns := [(32, { chans := [(0, { active := some { sip := { tiles := [strayTile], phase := 2 } } })] })] }

/-- Refutes O29: the stray tile's one flit leaves hop 17 by no wire, so that its hop holds no flit of it afterwards. -/
theorem not_siphonTilesAreSentLandedAndAcknowledged : ¬ Obligations.SiphonTilesAreSentLandedAndAcknowledged := by
  rintro ⟨send, -, -⟩
  obtain ⟨s', sent, -, -, flits, -⟩ := send strayState 32 0 { tiles := [strayTile], phase := 2 } strayTile [] 17 rfl rfl
    (by decide +kernel) (by decide +kernel) rfl (by decide +kernel)
  have none_there : (hop (nextOr strayState (exec (.siphonTileSend 32 0) strayState)) 17).wire.length +
      (hop (nextOr strayState (exec (.siphonTileSend 32 0) strayState)) 17).sendq.length = 0 := by decide +kernel
  rw [sent, nextOr_next, flits] at none_there
  exact absurd none_there (by decide)

-- tiles of the units there are: sending (R312, R316)

/-- A hop's turn, and how many flits its wire and its queue hold between them. -/
def turnAndLoad (x : Hop) : Nat × Nat := (x.turn, x.wire.length + x.sendq.length)

/-- On a hop inside the package a flush moves flits from the queue to the wire, and loses none. -/
theorem turnAndLoad_hopFlush {h : Nat} (inside : h < 16) (n : Nat) (s : State) :
    turnAndLoad (hop (hopFlush n s h) h) = turnAndLoad (hop s h) := by
  induction n generalizing s with
  | zero => rfl
  | succ n ih =>
    cases waits : (hop s h).sendq with
    | nil => rw [hopFlush_of_empty waits]
    | cons f rest =>
      by_cases room : (hop s h).unacked.length < 64
      · rw [hopFlush_succ waits room, ih, hop_onWire inside, hop_setHop, if_pos rfl]
        simp [turnAndLoad, launched, waits]; omega
      · simp only [hopFlush, waits, Nat.not_lt.1 room, if_true]

/-- R312: flits queued on a hop inside the package stand on its wire or in its queue. -/
theorem turnAndLoad_hopSend {h : Nat} (inside : h < 16) (s : State) (fs : List Flit) :
    turnAndLoad (hop (hopSend s h fs) h) = ((hop s h).turn, (hop s h).wire.length + (hop s h).sendq.length + fs.length) := by
  rw [hopSend_eq, turnAndLoad_hopFlush inside, hop_setHop, if_pos rfl]
  simp [turnAndLoad, queued, Nat.add_assoc]

/-- A change of the siphon work of the chains of a window half is what is found of it then. -/
theorem find?_map_sip (req : Nat) (f : Sip → Sip) (l : List ChainRec) :
    ((l.map (fun c => if c.started && chainHalf c == req then { c with sip := f c.sip } else c)).find?
      (fun c => c.started && chainHalf c == req)).map (·.sip) =
    ((l.find? (fun c => c.started && chainHalf c == req)).map (·.sip)).map f := by
  induction l with
  | nil => rfl
  | cons c l ih =>
    by_cases own : (c.started && chainHalf c == req) = true
    · have still : (({ c with sip := f c.sip } : ChainRec).started && chainHalf { c with sip := f c.sip } == req) = true := own
      simp only [List.map_cons, own, if_true, List.find?_cons, still, Option.map_some]
    · rw [Bool.not_eq_true] at own
      simp only [List.map_cons, own, Bool.false_eq_true, if_false, List.find?_cons, ih]

/-- A change of a requester's siphon work is what is found of it then. -/
theorem sipOf_modSip (s : State) (u req : Nat) (f : Sip → Sip) :
    sipOf (stn (modSip s u req f) u) req = (sipOf (stn s u) req).map f := by
  by_cases chan : req < 4
  · simp [sipOf, modSip, modActive, chan, Function.comp_def]
  · simp only [sipOf, modSip, chan, if_false, stn_modStn, if_true]
    exact find?_map_sip ..

theorem modSip_hops (s : State) (u req : Nat) (f : Sip → Sip) : (modSip s u req f).hops = s.hops := by
  unfold modSip; split <;> rfl
theorem modSip_cist (s : State) (u req : Nat) (f : Sip → Sip) : (modSip s u req f).cist = s.cist := by
  unfold modSip; split <;> rfl
theorem modSip_arrivals (s : State) (u req : Nat) (f : Sip → Sip) : (modSip s u req f).arrivals = s.arrivals := by
  unfold modSip; split <;> rfl

theorem length_tileToFlits (t : Tile) (g h : Nat) : (tileToFlits t g h).length = tileFlits (t.data.length + t.scale.length) := by
  simp [tileToFlits, tilePayloads]

/-- R310: between two of the four dies, and to the hub, the first hop of a route is inside the package. -/
theorem route_first_inside {s : State} {a b h : Nat} {x : Bool} (source : a < 4) (dest : b < 4)
    (first : (route s a b x).head? = some h) : h < 16 := by
  have ring {k : Nat} (next : ringHop s a b = some k) : k < 16 := by
    unfold ringHop at next
    split_ifs at next <;> simp only [Option.some.injEq] at next <;> omega
  unfold route at first
  split at first
  · have hub : 2 * a = h := by simpa using first
    omega
  · split at first
    · next k next =>
      have same : k = h := by simpa using first
      exact same ▸ ring next
    · split at first
      · cases first
      · have hub : 2 * a = h := by simpa using first
        omega

theorem die_of_isResident {s : State} {u : Nat} (resident : isResident s u = true) : u / 32 < 4 := by
  have four : dies s ≤ 4 := by unfold dies; split <;> decide
  by_contra far
  have none_hosts : hostOf s u = none := if_neg (fun h => far (h.1.trans_le four))
  simp [isResident, none_hosts] at resident

/-- What a requester that is ready to send on a hop has: its route begins there. -/
theorem route_of_sendReady {s : State} {u req h : Nat} {q : Sip} {t : Tile} {ts : List Tile} (work : sipOf (stn s u) req = some q)
    (tiles : q.tiles = t :: ts) (ready : sendReady s u req h = true) : (route s (u / 32) (t.dst / 32) t.xpkg).head? = some h := by
  simp only [sendReady, work, tiles, Bool.and_eq_true, beq_iff_eq] at ready
  exact ready.1.1.2

/-- The part once a requester's tile is outstanding and its station has had its turn on the hop. -/
def tileTurned (s : State) (u req h : Nat) : State :=
  setHop (modSip s u req (fun q => { q with phase := 3 })) h
    { hop (modSip s u req (fun q => { q with phase := 3 })) h with turn := lstn s u }

theorem exec_siphonTileSend {s : State} {u req h : Nat} {q : Sip} {t : Tile} {ts : List Tile} (work : sipOf (stn s u) req = some q)
    (tiles : q.tiles = t :: ts) (ready : sendReady s u req h = true) (resident : isResident s u = true) (idle : (hop s h).sendq = [])
    (turn : linkTurn s h = some (lstn s u)) : exec (.siphonTileSend u req) s = .next (hopSend (tileTurned s u req h) h
      (tileToFlits t (gOf s (u / 32) false) (gOf s (t.dst / 32) t.xpkg))) := by
  obtain ⟨rs, way⟩ := List.head?_eq_some_iff.1 (route_of_sendReady work tiles ready)
  have goes : (isResident s u && sendReady s u req h && (hop s h).sendq.isEmpty && linkTurn s h == some (lstn s u)) = true := by
    simp [resident, ready, idle, turn]
  show execSiphonTileSend u req s = _
  simp only [execSiphonTileSend, work, tiles, way]
  exact guard_of goes s _

/-- R312, R316: O29's first part, for a destination there is: the tile's flits stand on its first hop, and it is outstanding. -/
theorem siphonTileSend_sends {s : State} {u req h : Nat} {q : Sip} {t : Tile} {ts : List Tile} (dest : t.dst < 128)
    (work : sipOf (stn s u) req = some q) (tiles : q.tiles = t :: ts) (ready : sendReady s u req h = true)
    (resident : isResident s u = true) (idle : (hop s h).sendq = []) (turn : linkTurn s h = some (lstn s u)) :
    ∃ s', exec (.siphonTileSend u req) s = .next s' ∧ sipOf (stn s' u) req = some { q with phase := 3 } ∧
      (hop s' h).turn = lstn s u ∧
      (hop s' h).wire.length + (hop s' h).sendq.length = (hop s h).wire.length + tileFlits (t.data.length + t.scale.length) ∧
      s'.cist = s.cist ∧ s'.arrivals = s.arrivals := by
  have inside := route_first_inside (die_of_isResident resident) (by omega) (route_of_sendReady work tiles ready)
  have before : hop (tileTurned s u req h) h = { hop s h with turn := lstn s u } := by
    rw [tileTurned, hop_setHop, if_pos rfl, hop, modSip_hops]; rfl
  obtain ⟨-, cist, stns, arrivals⟩ := (hopFrame_hopSend (tileTurned s u req h) h
    (tileToFlits t (gOf s (u / 32) false) (gOf s (t.dst / 32) t.xpkg))).kept
  have load := turnAndLoad_hopSend inside (tileTurned s u req h) (tileToFlits t (gOf s (u / 32) false) (gOf s (t.dst / 32) t.xpkg))
  rw [before, length_tileToFlits] at load
  obtain ⟨last, flits⟩ := Prod.ext_iff.1 load
  refine ⟨_, exec_siphonTileSend work tiles ready resident idle turn, ?_, last, flits.trans (by simp [idle]),
    cist.trans (modSip_cist ..), arrivals.trans (modSip_arrivals ..)⟩
  have own := sipOf_modSip s u req (fun q => { q with phase := 3 })
  rw [work] at own
  rw [stn_of_stns stns]
  exact own

-- tiles that have arrived (R282, R317, R318)

/-- The part once bytes are written to a cistern slice none of whose words is in error. -/
def cistWritten (s : State) (u a : Nat) (bs : List Byte) : State :=
  let s := rbForget s (entryKey false (gaddr u a)) bs.length
  { s with cist := memWrite s.cist (gaddr u a) bs }

theorem cistWrite_clean {s : State} (clean : s.cistErr = []) (u a : Nat) (bs : List Byte) :
    cistWrite s u a bs = (cistWritten s u a bs, true) := by
  have still : (rbForget s (entryKey false (gaddr u a)) bs.length).cistErr.isEmpty = true := by
    unfold rbForget; split <;> rw [clean] <;> rfl
  exact if_pos still

theorem cistWritten_cist (s : State) (u a : Nat) (bs : List Byte) : (cistWritten s u a bs).cist = memWrite s.cist (gaddr u a) bs := by
  rw [cistWritten, rbForget_cist]

theorem cistWritten_stns (s : State) (u a : Nat) (bs : List Byte) : (cistWritten s u a bs).stns = s.stns := rbForget_stns ..

theorem cistWritten_arrivals (s : State) (u a : Nat) (bs : List Byte) : (cistWritten s u a bs).arrivals = s.arrivals := by
  unfold cistWritten rbForget; split <;> rfl

/-- R317: a tile of one row without scale bytes is one write. -/
theorem landTile_oneRow {s : State} {t : Tile} (clean : s.cistErr = []) (rows : t.rows = 1) (whole : t.data.length = t.rowBytes)
    (plain : t.scale = []) (noRuns : t.runs = []) (inside : t.addr < 2 ^ 23) :
    landTile s t = (cistWritten s t.dst t.addr t.data, true) := by
  have place : unsigned 23 (t.addr : Int) = t.addr := by unfold unsigned; omega
  simp [landTile, rows, ← whole, plain, noRuns, landRows, landScales, place, cistWrite_clean clean]

theorem floatFrame_primeBytes (s : State) (n : Nat) : FloatFrame s (primeBytes s n) := by
  unfold primeBytes; split
  · exact floatFrame_floatPos ..
  · rfl

/-- R282: a write touches nothing of a program that has no chain to hold to the rule. -/
theorem chainTouch_unwatched {s : State} {u : Nat} (unwatched : watched (stn s u) = []) (v a n : Nat) : chainTouch s u v a n = s := by
  simp [chainTouch, unwatched]

theorem tileTouch_unwatched {s : State} {t : Tile} (rows : t.rows = 1) (unwatched : watched (stn s t.src) = []) : tileTouch s t = s := by
  simp [tileTouch, rows, chainTouch_unwatched unwatched]

/-- The same cistern, stations and arrivals: what the parts of a landing after its write keep. -/
def LandFrame (s t : State) : Prop := t.cist = s.cist ∧ t.stns = s.stns ∧ t.arrivals = s.arrivals

theorem LandFrame.refl (s : State) : LandFrame s s := ⟨rfl, rfl, rfl⟩

theorem LandFrame.trans {s t v : State} (first : LandFrame s t) (second : LandFrame t v) : LandFrame s v :=
  ⟨second.1.trans first.1, second.2.1.trans first.2.1, second.2.2.trans first.2.2⟩

theorem landFrame_primeBytes (s : State) (n : Nat) : LandFrame s (primeBytes s n) := by
  have frame := floatFrame_primeBytes s n
  have cist := congrArg State.cist frame
  have stns := congrArg State.stns frame
  have arrivals := congrArg State.arrivals frame
  exact ⟨cist, stns, arrivals⟩

theorem landFrame_hopSend (s : State) (h : Nat) (fs : List Flit) : LandFrame s (hopSend s h fs) :=
  (hopFrame_hopSend s h fs).kept.2

theorem landFrame_ite {s t v : State} {c : Prop} [Decidable c] (ht : LandFrame s t) (hv : LandFrame s v) :
    LandFrame s (if c then t else v) := by split <;> assumption

/-- R282, R317, R318: a tile of one row that has arrived is written, and the rest of its landing changes no byte. -/
theorem exec_tileLand_oneRow {s : State} {n : Nat} {a : Arrival} {t : Tile} {h : Nat} {rs : List Nat} (arrived : s.arrivals[n]? = some a)
    (what : a.what = .tile t) (rows : t.rows = 1) (whole : t.data.length = t.rowBytes) (plain : t.scale = []) (noRuns : t.runs = [])
    (inside : t.addr < 2 ^ 23) (clean : s.cistErr = []) (way : backRoute s a.die a.src a.xp = h :: rs)
    (unwatched : a.xp = true ∨ 4 ≤ t.req ∨ watched (stn s t.src) = []) :
    ∃ s', exec (.tileLand n) s = .next s' ∧ LandFrame (cistWritten (dropArrival s n) t.dst t.addr t.data) s' := by
  have landed := landTile_oneRow (s := dropArrival s n) clean rows whole plain noRuns inside
  have touched {m : State} (frame : LandFrame (cistWritten (dropArrival s n) t.dst t.addr t.data) m) :
      LandFrame (cistWritten (dropArrival s n) t.dst t.addr t.data) (if a.xp || decide (4 ≤ t.req) then m else tileTouch m t) := by
    split
    · exact frame
    · next own =>
      have same : stn m t.src = stn s t.src := stn_of_stns (frame.2.1.trans (cistWritten_stns ..)) t.src
      have none_left : watched (stn m t.src) = [] := by
        rw [same]
        rcases unwatched with far | chain | empty
        · simp [far] at own
        · simp [chain] at own
        · exact empty
      rwa [tileTouch_unwatched rows none_left]
  show ∃ s', execTileLand n s = .next s' ∧ _
  simp only [execTileLand, arrived, what, landed, way]
  exact ⟨_, rfl, landFrame_ite ((touched (landFrame_ite (landFrame_primeBytes ..) (.refl _))).trans (landFrame_hopSend ..))
    (touched (landFrame_ite (landFrame_primeBytes ..) (.refl _)))⟩

/-- R317, R318: O29's second part: the tile stands at its address, and no other byte of the cistern has changed. -/
theorem tileLand_lands {s : State} {n : Nat} {a : Arrival} {t : Tile} {h : Nat} {rs : List Nat} (arrived : s.arrivals[n]? = some a)
    (what : a.what = .tile t) (rows : t.rows = 1) (whole : t.data.length = t.rowBytes) (plain : t.scale = []) (noRuns : t.runs = [])
    (inside : t.addr < 2 ^ 23) (clean : s.cistErr = []) (way : backRoute s a.die a.src a.xp = h :: rs)
    (unwatched : a.xp = true ∨ 4 ≤ t.req ∨ watched (stn s t.src) = []) :
    ∃ s', exec (.tileLand n) s = .next s' ∧ s'.arrivals = s.arrivals.eraseIdx n ∧
      memRead s'.cist (gaddr t.dst t.addr) t.rowBytes = t.data ∧
      (∀ g, (g < gaddr t.dst t.addr ∨ gaddr t.dst t.addr + t.rowBytes ≤ g) → cistByte s' g = cistByte s g) ∧
      s'.stns = s.stns := by
  obtain ⟨s', ran, cist, stns, arrivals⟩ :=
    exec_tileLand_oneRow arrived what rows whole plain noRuns inside clean way unwatched
  have bytes := tabGet_memWrite s.cist (gaddr t.dst t.addr) t.data
  rw [cistWritten_cist] at cist
  refine ⟨s', ran, arrivals.trans (cistWritten_arrivals ..), ?_, fun g out => ?_, stns.trans (cistWritten_stns ..)⟩
  · have run : ∀ j (hj : j < t.data.length), tabGet 0 s'.cist (gaddr t.dst t.addr + j) = t.data[j] := fun j hj => by
      rw [cist]; exact (bytes _).trans (by simp [hj])
    simpa [← whole] using memRead_of_run run (o := 0) (n := t.rowBytes) (by omega)
  · rw [cistByte, cist]
    exact (bytes g).trans (dif_neg (by omega))

-- tiles that have landed (R138, R318, R319)

/-- A descriptor whose tile in hand has landed goes on to the next one. -/
def tileLanded (a : Active) : Active :=
  { a with sip := { tiles := a.sip.tiles.drop 1, phase := 0 }, pos := a.marks.headD a.pos, marks := a.marks.drop 1 }

theorem landedAt_channel {s : State} {u ch : Nat} {c : Active} (known : ch < 4) (active : (getChan (stn s u) ch).active = some c)
    (released : (stn s u).inReset = false) :
    (getChan (stn (landedAt s u ch 0) u) ch).active = some (tileLanded c) ∧ (landedAt s u ch 0).credits = s.credits ∧
      (landedAt s u ch 0).arrivals = s.arrivals := by
  have work : sipOf (stn s u) ch = some c.sip := by simp [sipOf, known, active]
  have goes : landedAt s u ch 0 = modActive s u ch (fun a =>
      { a with sip := { tiles := c.sip.tiles.drop 1, phase := 0 }, pos := a.marks.headD a.pos, marks := a.marks.drop 1 }) := by
    simp only [landedAt, work, known, released, Bool.false_eq_true, if_false, if_true, ne_eq, not_true_eq_false]
  rw [goes]
  exact ⟨by simp [modActive, active, tileLanded], rfl, rfl⟩

/-- R318, R319: a LANDED flit of the tile a channel has outstanding takes effect, and its credit comes back. -/
theorem exec_landedReceive {s : State} {n : Nat} {a : Arrival} {u ch : Nat} {c : Active} {t : Tile} {ts : List Tile}
    (arrived : s.arrivals[n]? = some a) (what : a.what = .landed u ch 0) (known : ch < 4)
    (active : (getChan (stn s u) ch).active = some c) (tiles : c.sip.tiles = t :: ts) (out : c.sip.phase = 3)
    (dest : tileDie t = farDie (a.src % 4) a.xp) (own : (u, ch, farDie (a.src % 4) a.xp) ∉ s.orphans) :
    exec (.landedReceive n) s =
      .next (landedAt (returnCredit (dropArrival s n) a.die (farDie (a.src % 4) a.xp)) u ch 0) := by
  have work : sipOf (stn s u) ch = some c.sip := by simp [sipOf, known, active]
  have live : s.orphans.contains (u, ch, farDie (a.src % 4) a.xp) = false := by simpa using own
  show execLandedReceive n s = _
  simp only [execLandedReceive, arrived, what, live, work, tiles, out, List.head?_cons, Option.map_some, dest, beq_self_eq_true,
    Bool.and_self, guard_true, Bool.false_eq_true, if_false]

/-- R138, R318, R319: O29's third part: LANDED moves a channel's position on and gives one credit of the pair back. -/
theorem landedReceive_completes {s : State} {n : Nat} {a : Arrival} {u ch e : Nat} {c : Active} {t : Tile} {ts : List Tile}
    (arrived : s.arrivals[n]? = some a) (what : a.what = .landed u ch 0) (known : ch < 4)
    (active : (getChan (stn s u) ch).active = some c) (tiles : c.sip.tiles = t :: ts) (out : c.sip.phase = 3)
    (die : e = farDie (a.src % 4) a.xp) (dest : tileDie t = e) (released : (stn s u).inReset = false) (own : (u, ch, e) ∉ s.orphans) :
    ∃ s', exec (.landedReceive n) s = .next s' ∧ s'.arrivals = s.arrivals.eraseIdx n ∧
      (getChan (stn s' u) ch).active =
        some { c with sip := { tiles := ts, phase := 0 }, pos := c.marks.headD c.pos, marks := c.marks.drop 1 } ∧
      creditsUsed s' a.die e = creditsUsed s a.die e - 1 := by
  subst die
  obtain ⟨moved, credits, arrivals⟩ := landedAt_channel
    (s := returnCredit (dropArrival s n) a.die (farDie (a.src % 4) a.xp)) known active released
  refine ⟨_, exec_landedReceive arrived what known active tiles out dest own, arrivals, ?_, ?_⟩
  · rw [moved, tileLanded, tiles]; rfl
  · rw [creditsUsed, credits]; exact tabGet_tabSet_self ..

end Sys2Proof.Machine

/-! PROOFS. Windows of leave (R343 to R345, R349, R358, R363): what the close of a window leaves as it was, and what the next one
starts with. -/

namespace Sys2Proof.Machine

-- the close of a window

/-- A debit within what is left of the MAINT allowance makes no debt (R358). -/
theorem maintDebit_gov {s : State} {n : Nat} (allowed : n ≤ maintCost - s.gov.maint) :
    (maintDebit s n).gov = { s.gov with maint := s.gov.maint + n } := by
  have within : s.gov.maint + n - 5 * 65536 - (s.gov.maint - 5 * 65536) = 0 := by unfold maintCost at allowed; omega
  simp only [maintDebit, within, Nat.add_zero]

/-- What the close of a window may change: the free values, LEAVE_WAIT_CNT, the MAINT allowance used, and the record of energies. -/
structure ClosesWindow (s t : State) : Prop where
  frame : { t with regs := s.regs, free := s.free, gov := s.gov } = s
  gov : { t.gov with maint := s.gov.maint, history := s.gov.history, energy := s.gov.energy } = s.gov
  reg : ∀ a, a ≠ Reg.leaveWaitCnt → reg t a = reg s a

theorem calibrate_closesWindow (s : State) : ClosesWindow s (calibrate s) := by
  unfold calibrate; split
  · exact ⟨rfl, rfl, fun _ _ => rfl⟩
  · have allowed (x c : Nat) : x % ((maintCost - s.gov.maint) / c + 1) * c ≤ maintCost - s.gov.maint :=
      (Nat.mul_le_mul_right c (Nat.lt_succ_iff.1 (Nat.mod_lt x (Nat.succ_pos _)))).trans (Nat.div_mul_le_self ..)
    refine ⟨rfl, ?_, fun _ _ => rfl⟩
    simp only []
    rw [maintDebit_gov (s := (takeFree s).2) (allowed ..)]
    rfl

theorem windowClose_closesWindow (s : State) : ClosesWindow s (windowClose s) := by
  obtain ⟨frame, gov, reg⟩ := calibrate_closesWindow s
  unfold windowClose; simp only []; split
  · exact ⟨frame, gov, fun a other => (reg_addReg_ne other (calibrate s) 1).trans (reg a other)⟩
  · exact ⟨frame, gov, reg⟩

-- the start of a window

/-- R349: the band that the next window starts with. -/
def nextBand (s : State) : Nat := bandOf (reg s Reg.thermThrottle) s.gov.band (reg s Reg.thermMax)

/-- R344: the budget of the next window before any debt, where grants are made. -/
def fullBudget (s : State) : Nat :=
  ((fThermOf (reg s Reg.thermThrottle) (reg s Reg.thermMax) : Int) *
    ((reg s Reg.pkgLimit * 65536 : Nat) - (baseCost s (isEco s.gov.ps) (nextBand s) : Int) - (maintCost : Int)) / 65536).toNat

/-- What a window starts with, after the one before it has been closed. -/
structure OpensWindow (s t : State) : Prop where
  window : t.gov.window = s.gov.window + 1
  debits : t.gov.spent = 0 ∧ t.gov.maint = 0 ∧ t.gov.granted = false
  band : t.gov.band = nextBand s
  on : granting s.gov.ps = true →
    t.gov.budget = fullBudget s - s.gov.debt ∧ t.gov.debt = s.gov.debt - fullBudget s ∧ t.gov.budgetNoDebt = fullBudget s
  off : granting s.gov.ps = false → t.gov.budget = 0 ∧ t.gov.debt = s.gov.debt
  memory : t.stns = s.stns ∧ t.cist = s.cist ∧ t.well = s.well

theorem windowOpen_opensWindow (s : State) : OpensWindow s (windowOpen s) where
  window := rfl
  debits := ⟨rfl, rfl, rfl⟩
  band := rfl
  on on := ⟨if_pos on, if_pos on, if_pos on⟩
  off off := ⟨if_neg (Bool.eq_false_iff.1 off), if_neg (Bool.eq_false_iff.1 off)⟩
  memory := by unfold windowOpen; simp only []; split <;> exact ⟨rfl, rfl, rfl⟩

/-- R349: from band 0 a band is entered at its threshold. -/
theorem bandOf_zero (throttle t : Nat) :
    bandOf throttle 0 t = if 4 * throttle ≤ t then 3 else if 340 ≤ t then 2 else if 280 ≤ t then 1 else 0 := by
  simp [bandOf]

theorem granting_iff {p : PState} : granting p = true ↔ p ∈ [PState.p0, .p1] := by cases p <;> simp [granting]

/-- The window that starts has the values of the state before the old one was closed. -/
theorem OpensWindow.of_closed {s c t : State} (closed : ClosesWindow s c) (opened : OpensWindow c t) : OpensWindow s t := by
  obtain ⟨frame, gov, reg⟩ := closed
  obtain ⟨window, debits, band, on, off, stns, cist, well⟩ := opened
  have field {α : Type} (f : State → α) : f { c with regs := s.regs, free := s.free, gov := s.gov } = f s := congrArg f frame
  have small : isT2 c = isT2 s := field isT2
  have govField {α : Type} (f : Gov → α) : f { c.gov with maint := s.gov.maint, history := s.gov.history, energy := s.gov.energy } = f s.gov :=
    congrArg f gov
  have was : c.gov.window = s.gov.window := govField Gov.window
  have ps : c.gov.ps = s.gov.ps := govField Gov.ps
  have debt : c.gov.debt = s.gov.debt := govField Gov.debt
  have nextBand : nextBand c = nextBand s := by
    rw [Machine.nextBand, reg _ (by decide), reg _ (by decide), govField Gov.band]; rfl
  have full : fullBudget c = fullBudget s := by
    simp only [fullBudget, nextBand, ps, reg _ (show Reg.thermThrottle ≠ _ by decide), reg _ (show Reg.thermMax ≠ _ by decide),
      reg _ (show Reg.pkgLimit ≠ _ by decide), baseCost, small]
  rw [ps, full, debt] at on
  rw [ps, debt] at off
  exact ⟨window.trans (by rw [was]), debits, band.trans nextBand, on, off,
    stns.trans (field State.stns), cist.trans (field State.cist), well.trans (field State.well)⟩

/-- Settles O33: the close of a window changes nothing that the start of the next one reads. -/
theorem windowsMeterLeave : Obligations.WindowsMeterLeave := fun s => by
  obtain ⟨window, ⟨spent, maint, granted⟩, band, on, off, stns, cist, well⟩ :=
    (windowOpen_opensWindow (windowClose s)).of_closed (windowClose_closesWindow s)
  refine ⟨_, rfl, window, spent, maint, granted, stns, cist, well, fun cold => ?_, fun idle => ?_, fun full run same => ?_⟩
  · rw [band, nextBand, cold, bandOf_zero]
  · exact off (Bool.eq_false_iff.2 (mt granting_iff.1 idle))
  · subst same
    rw [band]
    exact on (granting_iff.2 run)

end Sys2Proof.Machine

/-! PROOFS. Leave requests and grants (R350 to R356): a request enters its class queue, and the Governor's choice among the heads. -/

namespace Sys2Proof.Machine

-- requests

theorem mem_enqueue (s : State) (q : LReq) (l : List LReq) : q ∈ enqueue s q l := by
  induction l with
  | nil => exact List.mem_singleton_self q
  | cons p t ih => unfold enqueue; split <;> simp [ih]

theorem length_enqueue (s : State) (q : LReq) (l : List LReq) : (enqueue s q l).length = l.length + 1 := by
  induction l with
  | nil => rfl
  | cons p t ih => unfold enqueue; split <;> simp [ih]

/-- R353: only a request of the same cycle is overtaken. -/
theorem enqueue_of_earlier {s : State} {q : LReq} {l : List LReq} (earlier : ∀ p ∈ l, p.placed ≠ q.placed) :
    enqueue s q l = l ++ [q] := by
  induction l with
  | nil => rfl
  | cons p t ih =>
    obtain ⟨first, rest⟩ := List.forall_mem_cons.1 earlier
    rw [enqueue, if_neg (fun h => first h.2.1), ih rest, List.cons_append]

/-- The request that `placeReq` places. -/
def newReq (s : State) (cls requester unit : Nat) (what : Purpose) (units : Tab Nat) : LReq :=
  { id := s.gov.nextId, cls := cls, requester := requester, unit := unit, what := what, units := units, placed := s.cyc }

/-- A queue with one request more, behind those of earlier cycles. -/
structure Queues (s : State) (q : LReq) (reqs : List LReq) : Prop where
  mem : q ∈ reqs
  length : reqs.length = s.gov.reqs.length + 1
  last : (∀ p ∈ s.gov.reqs, p.placed ≠ s.cyc) → reqs = s.gov.reqs ++ [q]

theorem placeReq_queues (s : State) (cls requester unit : Nat) (what : Purpose) (units : Tab Nat) :
    Queues s (newReq s cls requester unit what units) (placeReq s cls requester unit what units).1.gov.reqs :=
  ⟨mem_enqueue .., length_enqueue .., fun earlier => enqueue_of_earlier earlier⟩

theorem exec_leaveRequest_hub {s : State} {a n : Nat} (some_ : 0 < n) (most : n ≤ 65536) (die : wellDie a < dies s)
    (inside : wellOff a + n ≤ wellEnd) (room : outstanding s 128 < 2) : exec (.leaveRequest 4 0 a n) s =
      .next (placeReq s 2 128 0 (.hub (stackMask a n) n) [(5, (n + 1023) / 1024)]).1 :=
  (withOperand_of (by simp [some_, most, die, inside]) _).trans (guard_of (decide_eq_true room) ..)

/-- The state of a channel's request for its next span, before the span is counted as asked for. -/
def spanPlaced (s : State) (u ch n : Nat) : State := (placeReq s 2 (lstn s u) u (.span ch n) [(5, (n + 1023) / 1024)]).1

theorem exec_leaveRequest_span {s : State} {u ch : Nat} {a : Active} (known : ch < 4) (on : engineOn s u = true)
    (active : (getChan (stn s u) ch).active = some a) (live : a.ended = none) (kept : a.cancel = false) (well : needsWell a.raw = true)
    (more : spanNext u (stn s u) a ≠ 0) (half : a.leaveBytes ≤ 32768) (first : s.gov.reqs.any (reqOfSpan u ch) = false)
    (room : outstanding s (lstn s u) < 2) : exec (.leaveRequest 0 u ch 0) s =
      .next (modActive (spanPlaced s u ch (spanNext u (stn s u) a)) u ch
        (fun b => { b with leaveAsked := b.leaveAsked + spanNext u (stn s u) a })) := by
  have asks : reqSpan s u ch = some (modActive (spanPlaced s u ch (spanNext u (stn s u) a)) u ch
      (fun b => { b with leaveAsked := b.leaveAsked + spanNext u (stn s u) a })) := by
    simp only [reqSpan, active, live, kept, well, first, Option.isSome_none, Bool.not_true, Bool.or_false,
      beq_false_of_ne more, decide_eq_false (Nat.not_lt.2 half), decide_eq_false (Nat.not_le.2 room), Bool.false_eq_true, if_false]
    rfl
  show execLeaveRequest 0 u ch 0 s = _
  simp only [execLeaveRequest, on, known, and_self, if_true, asks, enabled]

-- heads (R353, R354)

/-- The classes in the order in which the Governor looks at them. -/
def classOrder (last : Nat) : List Nat := [1, 2, 3, 4, 5].map (fun k => (last + k) % 5)

theorem headOf_of_running {s : State} (running : s.gov.stackStop = []) (c : Nat) :
    headOf s c = s.gov.reqs.find? (fun q => q.cls == c) := by
  have free (q : LReq) : stackHeld s q = false := by unfold stackHeld; rw [running]; split <;> simp
  simp [headOf, free]

theorem cls_of_headOf {s : State} {c : Nat} {q : LReq} (h : headOf s c = some q) : q.cls = c := by
  have found := List.find?_some h
  simp only [Bool.and_eq_true, beq_iff_eq] at found
  exact found.1

theorem mem_reqs_of_mem_heads {s : State} {q : LReq} (h : q ∈ heads s) : q ∈ s.gov.reqs := by
  obtain ⟨c, -, head⟩ := List.mem_filterMap.1 h
  exact List.mem_of_find?_eq_some head

/-- The head of class `c` among the heads is that of its queue. -/
theorem find_heads (s : State) {c : Nat} (known : c < 5) : (heads s).find? (fun q => q.cls == c) = headOf s c := by
  have own (k : Nat) : (headOf s k).any (fun q => q.cls == c) = (k == c && (headOf s k).isSome) := by
    cases h : headOf s k with
    | none => simp
    | some q => simp [cls_of_headOf h]
  have only : ((List.range 5).find? (fun k => k == c && (headOf s k).isSome)).bind (headOf s) = headOf s c := by
    cases h : headOf s c with
    | none =>
      rw [List.find?_eq_none.2 (fun k _ both => by
        simp only [Bool.and_eq_true, beq_iff_eq] at both
        rw [both.1, h] at both; simp at both)]; rfl
    | some q =>
      have pred : (fun k => k == c && (headOf s k).isSome) = fun k => k == c := funext fun k => by
        by_cases e : k = c
        · simp [e, h]
        · simp [e]
      rw [pred]; interval_cases c <;> exact h
  rw [heads, List.find?_filterMap, funext own, only]

/-- Nothing becomes starved where no head has waited LEAVE_STARVE boundaries. -/
theorem markStarved_of_fresh {s : State} (fresh : ∀ q ∈ heads s, q.waited < reg s Reg.leaveStarve) : markStarved s = s := by
  have none_due : (heads s).filter (fun q => q.starved.isNone && decide (reg s Reg.leaveStarve ≤ q.waited)) = [] :=
    List.filter_eq_nil_iff.2 fun q hq => by simp [fresh q hq]
  simp [markStarved, none_due]

/-- A lone request is still the only one once starved heads are marked, as it was but for the mark. -/
theorem markStarved_lone {s : State} {q : LReq} (lone : s.gov.reqs = [q]) :
    ∃ st, (markStarved s).gov.reqs = [{ q with starved := st }] := by
  simp only [markStarved, lone, List.map_cons, List.map_nil]; split
  · exact ⟨some s.gov.window, rfl⟩
  · exact ⟨q.starved, rfl⟩

theorem markStarved_ids (s : State) : (markStarved s).gov.reqs.map (·.id) = s.gov.reqs.map (·.id) := by
  simp only [markStarved, List.map_map]
  exact List.map_congr_left fun q _ => by simp only [Function.comp]; split <;> rfl

-- the choice (R353 to R355)

/-- A request that fits in what is left of the window, and in a window with no debt. -/
def Fits (s : State) (q : LReq) : Prop :=
  costOf q.units (isEco s.gov.ps) ≤ remaining s ∧ costOf q.units (isEco s.gov.ps) ≤ s.gov.budgetNoDebt

theorem isLarge_of_fits {s : State} {q : LReq} (fits : Fits s q) : isLarge s q = false := decide_eq_false (Nat.not_lt.2 fits.2)

/-- R353: where every head fits and none is starved, the first in class order after the class last granted is chosen. -/
theorem grantPick_of_fits {s : State} (patient : ∀ q ∈ heads s, q.starved = none) (fits : ∀ q ∈ heads s, Fits s q) :
    grantPick s = (classOrder s.gov.lastClass).findSome? (headOf s) := by
  have no_starved : firstStarved (heads s) = none := by
    rw [firstStarved, List.filter_eq_nil_iff.2 fun q hq => by simp [patient q hq]]; rfl
  have class_lt {c : Nat} (h : c ∈ classOrder s.gov.lastClass) : c < 5 := by
    obtain ⟨k, -, rfl⟩ := List.mem_map.1 h
    exact Nat.mod_lt _ (by decide)
  have ordered : (classOrder s.gov.lastClass).filterMap (fun c => (heads s).find? (fun q => q.cls == c)) =
      (classOrder s.gov.lastClass).filterMap (headOf s) := List.filterMap_congr fun c hc => find_heads s (class_lt hc)
  have head_fits {q : LReq} (h : q ∈ (classOrder s.gov.lastClass).filterMap (headOf s)) : Fits s q := by
    obtain ⟨c, hc, head⟩ := List.mem_filterMap.1 h
    exact fits q (List.mem_filterMap.2 ⟨c, List.mem_range.2 (class_lt hc), head⟩)
  show (match firstStarved (heads s) with | some _ => _ | none => _) = _
  rw [no_starved]
  simp only []
  rw [show [1, 2, 3, 4, 5].map (fun k => (s.gov.lastClass + k) % 5) = classOrder s.gov.lastClass from rfl, ordered,
    List.find?_eq_none.2 fun q hq => by simp [isLarge_of_fits (head_fits hq)]]
  simp only []
  rw [← List.head?_filterMap]
  cases inOrder : (classOrder s.gov.lastClass).filterMap (headOf s) with
  | nil => rfl
  | cons q t =>
    have fit := head_fits (inOrder ▸ List.mem_cons_self)
    simp [fit.1, isLarge_of_fits fit]

/-- A search whose first hit is known answers what it holds. -/
theorem findSome?_of_find? {α β : Type} {f : α → Option β} {l : List α} {a : α}
    (h : l.find? (fun a => (f a).isSome) = some a) : l.findSome? f = f a := by
  induction l with
  | nil => cases h
  | cons b t ih =>
    rw [List.find?_cons] at h
    cases hb : f b with
    | none => rw [hb] at h; rw [List.findSome?_cons, hb]; exact ih h
    | some c => rw [hb] at h; cases h; rw [List.findSome?_cons, hb]

theorem classOrder_mod (last : Nat) : classOrder last = classOrder (last % 5) := by simp [classOrder]

theorem find_classOrder (last : Nat) {a : Nat} (known : a < 5) : (classOrder last).find? (fun c => a == c) = some a := by
  have each : ∀ last < 5, ∀ a < 5, (classOrder last).find? (fun c => a == c) = some a := by decide
  rw [classOrder_mod]
  exact each _ (Nat.mod_lt _ (by decide)) a known

/-- R353: of two classes, the one that is next after the class last granted comes first. -/
theorem find_classOrder_pair : ∀ last < 5, ∀ a < 5, ∀ b < 5, a ≠ b →
    (classOrder last).find? (fun c => a == c || b == c) = some (if (a + 4 - last) % 5 < (b + 4 - last) % 5 then a else b) := by
  decide

theorem heads_lone {s : State} {q : LReq} (lone : s.gov.reqs = [q]) (known : q.cls < 5) (running : s.gov.stackStop = []) :
    heads s = [q] ∧ (classOrder s.gov.lastClass).findSome? (headOf s) = some q := by
  have head : headOf s = fun c => if q.cls = c then some q else none := funext fun c => by
    rw [headOf_of_running running, lone, List.find?_cons]
    by_cases own : q.cls = c <;> simp [own, beq_false_of_ne]
  constructor
  · rw [heads, head]
    generalize q.cls = k at known ⊢
    interval_cases k <;> rfl
  · have found := find_classOrder s.gov.lastClass known
    rw [findSome?_of_find? (a := q.cls)]
    · rw [head]; exact if_pos rfl
    · rw [← found, head]; congr 1; funext c; by_cases own : q.cls = c <;> simp [own]

/-- R354: a lone request that fits is chosen, starved or not. -/
theorem grantPick_lone {s : State} {q : LReq} (lone : s.gov.reqs = [q]) (known : q.cls < 5) (running : s.gov.stackStop = [])
    (fits : Fits s q) : grantPick s = some q := by
  obtain ⟨only, first⟩ := heads_lone lone known running
  cases starved : q.starved with
  | none =>
    rw [grantPick_of_fits (by simp [only, starved]) (by simp [only, fits]), first]
  | some w =>
    have chosen : firstStarved (heads s) = some q := by simp [only, firstStarved, starved]
    simp only [grantPick, chosen, decide_eq_true fits.1, Bool.true_or, if_true]

theorem headOf_pair {s : State} {p q : LReq} (pair : s.gov.reqs = [p, q]) (running : s.gov.stackStop = []) :
    headOf s = fun c => if p.cls = c then some p else if q.cls = c then some q else none := funext fun c => by
  rw [headOf_of_running running, pair, List.find?_cons, List.find?_cons]
  by_cases first : p.cls = c
  · simp [first]
  · by_cases second : q.cls = c <;> simp [first, second, beq_false_of_ne]

/-- R353: of two requests of different classes that fit, that of the class next in order is chosen. -/
theorem grantPick_pair {s : State} {p q : LReq} (pair : s.gov.reqs = [p, q]) (other : p.cls ≠ q.cls) (hp : p.cls < 5) (hq : q.cls < 5)
    (last : s.gov.lastClass < 5) (running : s.gov.stackStop = []) (patient : ∀ r ∈ s.gov.reqs, r.starved = none)
    (fits : ∀ r ∈ s.gov.reqs, Fits s r) : grantPick s =
      some (if (p.cls + 4 - s.gov.lastClass) % 5 < (q.cls + 4 - s.gov.lastClass) % 5 then p else q) := by
  rw [grantPick_of_fits (fun r h => patient r (mem_reqs_of_mem_heads h)) (fun r h => fits r (mem_reqs_of_mem_heads h)),
    findSome?_of_find? (a := if (p.cls + 4 - s.gov.lastClass) % 5 < (q.cls + 4 - s.gov.lastClass) % 5 then p.cls else q.cls)]
  · rw [headOf_pair pair running]
    split <;> simp [other]
  · rw [← find_classOrder_pair _ last _ hp _ hq other, headOf_pair pair running]
    congr 1; funext c
    by_cases first : p.cls = c
    · simp [first]
    · by_cases second : q.cls = c <;> simp [first, second]

-- grants (R355)

/-- What a grant gives stands in the requester's station, or is the hub's leave. -/
theorem grantTo_frame (s : State) (q : LReq) (cost : Nat) (eco : Bool) :
    { grantTo s q cost eco with gov := s.gov, stns := s.stns } = s ∧
      { (grantTo s q cost eco).gov with hubLeave := s.gov.hubLeave } = s.gov := by
  unfold grantTo modSip; split
  case h_4 => split <;> exact ⟨rfl, rfl⟩
  case h_6 =>
    split
    · split <;> exact ⟨rfl, rfl⟩
    · exact ⟨rfl, rfl⟩
  all_goals exact ⟨rfl, rfl⟩

/-- What the grant of a request that fits changes. -/
structure Grants (s : State) (q : LReq) (t : State) : Prop where
  ids : t.gov.reqs.map (·.id) = (s.gov.reqs.map (·.id)).filter (· != q.id)
  spent : t.gov.spent = s.gov.spent + costOf q.units (isEco s.gov.ps)
  debt : t.gov.debt = s.gov.debt
  lastClass : t.gov.lastClass = q.cls
  frame : { t with gov := s.gov, stns := s.stns } = s

/-- The part with a grant debited, before the requester has it. -/
def debited (s : State) (q : LReq) : State := { s with gov := { s.gov with
  reqs := s.gov.reqs.filter (fun p => p.id != q.id), spent := s.gov.spent + costOf q.units (isEco s.gov.ps), lastClass := q.cls,
  lastReq := tabPut s.gov.lastReq q.cls q.requester, granted := true } }

theorem grant_of_fits {s : State} {q : LReq} (fits : Fits s q) :
    grant s q = markStarved (grantTo (debited s q) q (costOf q.units (isEco s.gov.ps)) (isEco s.gov.ps)) := by
  simp only [grant, isLarge_of_fits fits, Bool.false_eq_true, if_false, Nat.add_zero]; rfl

theorem grant_grants {s : State} {q : LReq} (fits : Fits s q) : Grants s q (grant s q) := by
  obtain ⟨frame, gov⟩ := grantTo_frame (debited s q) q (costOf q.units (isEco s.gov.ps)) (isEco s.gov.ps)
  rw [grant_of_fits fits]
  have field {α : Type} (f : Gov → α) := congrArg f gov
  refine ⟨?_, field Gov.spent, field Gov.debt, field Gov.lastClass,
    (congrArg (fun t : State => { t with gov := s.gov, stns := s.stns }) frame)⟩
  rw [markStarved_ids, show (grantTo (debited s q) q _ _).gov.reqs = s.gov.reqs.filter (fun p => p.id != q.id) from field Gov.reqs,
    List.filter_map]
  rfl

/-- The Governor grants the head it chooses. -/
theorem exec_leaveGrant {s : State} {q : LReq} (may : mayGrant s = true) (pick : grantPick (markStarved s) = some q) :
    exec .leaveGrant s = .next (grant (markStarved s) q) := by
  show execLeaveGrant s = _
  simp only [execLeaveGrant, pick, may, guard_true]

/-- R352, R353: the hub's well access places one WELL request. -/
theorem hub_requests_leave (s : State) (a n : Nat) (some_ : 0 < n) (most : n ≤ 65536) (die : wellDie a < dies s)
    (inside : wellOff a + n ≤ wellEnd) (room : outstanding s 128 < 2) :
    ∃ s' q, exec (.leaveRequest 4 0 a n) s = .next s' ∧ { s' with gov := s.gov } = s ∧ q ∈ s'.gov.reqs ∧
      s'.gov.reqs.length = s.gov.reqs.length + 1 ∧ ((∀ p ∈ s.gov.reqs, p.placed ≠ s.cyc) → s'.gov.reqs = s.gov.reqs ++ [q]) ∧
      q.cls = 2 ∧ q.requester = 128 ∧ q.units = [(5, (n + 1023) / 1024)] ∧ s'.gov.spent = s.gov.spent := by
  obtain ⟨mem, length, last⟩ := placeReq_queues s 2 128 0 (.hub (stackMask a n) n) [(5, (n + 1023) / 1024)]
  exact ⟨_, _, exec_leaveRequest_hub some_ most die inside room, rfl, mem, length, last, rfl, rfl, rfl, rfl⟩

/-- R148, R352: a channel whose span in hand is half done places one WELL request for the next. -/
theorem span_requests_leave (s : State) (u ch : Nat) (a : Active) (known : ch < 4) (on : engineOn s u = true)
    (active : (getChan (stn s u) ch).active = some a) (live : a.ended = none) (kept : a.cancel = false) (well : needsWell a.raw = true)
    (more : spanNext u (stn s u) a ≠ 0) (half : a.leaveBytes ≤ 32768) (first : s.gov.reqs.any (reqOfSpan u ch) = false)
    (room : outstanding s (lstn s u) < 2) :
    ∃ s' q, exec (.leaveRequest 0 u ch 0) s = .next s' ∧ q ∈ s'.gov.reqs ∧ s'.gov.reqs.length = s.gov.reqs.length + 1 ∧
      ((∀ p ∈ s.gov.reqs, p.placed ≠ s.cyc) → s'.gov.reqs = s.gov.reqs ++ [q]) ∧ q.cls = 2 ∧ q.requester = lstn s u ∧
      q.units = [(5, (spanNext u (stn s u) a + 1023) / 1024)] ∧
      (getChan (stn s' u) ch).active = some { a with leaveAsked := a.leaveAsked + spanNext u (stn s u) a } := by
  obtain ⟨mem, length, last⟩ := placeReq_queues s 2 (lstn s u) u (.span ch (spanNext u (stn s u) a))
    [(5, (spanNext u (stn s u) a + 1023) / 1024)]
  have placed : stn (spanPlaced s u ch (spanNext u (stn s u) a)) u = stn s u := rfl
  refine ⟨_, _, exec_leaveRequest_span known on active live kept well more half first room, mem, length, last, rfl, rfl, rfl, ?_⟩
  simp [modActive, placed, active]

/-- R353 to R355: the only request that waits is granted where it fits. -/
theorem lone_request_granted (s : State) (q : LReq) (lone : s.gov.reqs = [q]) (known : q.cls < 5) (running : s.gov.stackStop = [])
    (may : mayGrant s = true) (fits : Fits s q) :
    ∃ s', exec .leaveGrant s = .next s' ∧ s'.gov.reqs = [] ∧ s'.gov.spent = s.gov.spent + costOf q.units (isEco s.gov.ps) ∧
      s'.gov.debt = s.gov.debt ∧ s'.gov.lastClass = q.cls ∧ { s' with gov := s.gov, stns := s.stns } = s := by
  obtain ⟨st, marked⟩ := markStarved_lone lone
  obtain ⟨ids, spent, debt, lastClass, frame⟩ := grant_grants (s := markStarved s) (q := { q with starved := st }) fits
  refine ⟨_, exec_leaveGrant may (grantPick_lone (q := { q with starved := st }) marked known running fits), ?_, spent, debt, lastClass,
    congrArg (fun t : State => { t with gov := s.gov, stns := s.stns }) frame⟩
  rw [marked] at ids
  exact List.map_eq_nil_iff.1 (ids.trans (by simp))

/-- R353: of two requests that fit, neither starved, the one next in class order is granted, and the other waits on. -/
theorem pair_granted_in_class_order (s : State) (p q : LReq) (pair : s.gov.reqs = [p, q]) (ids : p.id ≠ q.id) (other : p.cls ≠ q.cls)
    (hp : p.cls < 5) (hq : q.cls < 5) (last : s.gov.lastClass < 5) (running : s.gov.stackStop = []) (may : mayGrant s = true)
    (patient : ∀ r ∈ s.gov.reqs, r.starved = none) (fits : ∀ r ∈ s.gov.reqs, Fits s r)
    (fresh : ∀ r ∈ s.gov.reqs, r.waited < reg s Reg.leaveStarve) :
    ∃ s', exec .leaveGrant s = .next s' ∧ s'.gov.reqs.map (·.id) =
      [if (p.cls + 4 - s.gov.lastClass) % 5 < (q.cls + 4 - s.gov.lastClass) % 5 then q.id else p.id] := by
  have unmarked : markStarved s = s := markStarved_of_fresh fun r h => fresh r (mem_reqs_of_mem_heads h)
  have pick := grantPick_pair pair other hp hq last running patient fits
  refine ⟨_, exec_leaveGrant may (by rw [unmarked]; exact pick), ?_⟩
  rw [unmarked]
  split
  · rw [(grant_grants (fits p (by simp [pair]))).ids, pair]; simp [ids.symm]
  · rw [(grant_grants (fits q (by simp [pair]))).ids, pair]; simp [ids]

/-- Settles O34: two ways to ask for leave, and the grants of a lone request and of the first of two classes. -/
theorem leaveIsRequestedAndGranted : Obligations.LeaveIsRequestedAndGranted := by
  intro s
  refine ⟨hub_requests_leave s, span_requests_leave s, fun q lone known running may window large =>
    lone_request_granted s q lone known running may ⟨window, large⟩, ?_⟩
  intro p q pair ids other hp hq last running may pStarved qStarved each
  exact pair_granted_in_class_order s p q pair ids other hp hq last running may (by simp [pair, pStarved, qStarved])
    (fun r h => by obtain ⟨window, large, -⟩ := each r (pair ▸ h); exact ⟨window, large⟩)
    (fun r h => (each r (pair ▸ h)).2.2)

end Sys2Proof.Machine

/-! PROOFS. Heat and droop (R356, R360 to R366, R372): what records and events leave as it was, the leave that is credited back, the
entry into P4 Off, and the samplings of the temperatures. -/

namespace Sys2Proof.Machine

-- records and events

/-- Only what reports differs: registers, messages, floats, the sump and the free values taken. -/
def ReportFrame (s t : State) : Prop :=
  { t with regs := s.regs, msix := s.msix, out := s.out, floats := s.floats, sump := s.sump, free := s.free } = s

theorem ReportFrame.trans {s t v : State} (first : ReportFrame s t) (second : ReportFrame t v) : ReportFrame s v := by
  unfold ReportFrame at *
  exact (congrArg (fun w : State =>
    { w with regs := s.regs, msix := s.msix, out := s.out, floats := s.floats, sump := s.sump, free := s.free }) second).trans first

theorem ReportFrame.foldl {α : Type} {f : State → α → State} (h : ∀ s a, ReportFrame s (f s a)) (l : List α) (s : State) :
    ReportFrame s (l.foldl f s) := by
  induction l generalizing s with
  | nil => rfl
  | cons a l ih => exact (h s a).trans (ih (f s a))

theorem ReportFrame.of_float {s t : State} (h : FloatFrame s t) : ReportFrame s t := by
  unfold ReportFrame FloatFrame at *
  exact congrArg (fun w : State => { w with sump := s.sump, free := s.free }) h

theorem ReportFrame.kept {s t : State} (h : ReportFrame s t) : t.gov = s.gov ∧ t.stns = s.stns ∧ t.cist = s.cist ∧ t.well = s.well := by
  have field {α : Type} (f : State → α) := congrArg f (show
    { t with regs := s.regs, msix := s.msix, out := s.out, floats := s.floats, sump := s.sump, free := s.free } = s from h)
  exact ⟨field State.gov, field State.stns, field State.cist, field State.well⟩

theorem reportFrame_setReg (s : State) (a v : Nat) : ReportFrame s (setReg s a v) := rfl
theorem reportFrame_setEvt (s : State) (b : Nat) : ReportFrame s (setEvt s b) := .of_float (floatFrame_setEvt s b)

theorem reportFrame_pushRec (s : State) (r : RecIn) : ReportFrame s (pushRec s r) := by
  unfold pushRec; split <;> rfl

theorem reportFrame_sumpEnter (s : State) (r : RecIn) : ReportFrame s (sumpEnter s r) := by
  have stored (slots : Tab Rec) (v : Nat) :
      ReportFrame s (setEvt (setReg { s with sump := { s.sump with slots := slots } } Reg.sumpWr v) 0) :=
    .trans (t := setReg { s with sump := { s.sump with slots := slots } } Reg.sumpWr v) rfl (reportFrame_setEvt _ 0)
  unfold sumpEnter; simp only []; split
  · exact (stored _ _).trans (reportFrame_setEvt _ 13)
  · exact stored _ _

theorem reportFrame_sumpDrain (s : State) : ReportFrame s (sumpDrain s) :=
  .trans (t := { s with sump := { s.sump with intake := [] } }) rfl (.foldl reportFrame_sumpEnter ..)

theorem reportFrame_floatsOff (s : State) : ReportFrame s (floatsOff s) := by
  refine .foldl (fun t n => ?_) _ s
  split
  · rfl
  · split
    · exact .of_float (floatFrame_floatEnd ..)
    · exact .trans (t := (takeFree t).2) rfl (.of_float (floatFrame_floatEnd ..))

-- leave credited back (R356)

/-- Of the Governor, only the window's debits and the hub's leave in hand differ. -/
def LeaveOnly (g h : Gov) : Prop := { h with spent := g.spent, hubLeave := g.hubLeave } = g

theorem LeaveOnly.trans {g h k : Gov} (first : LeaveOnly g h) (second : LeaveOnly h k) : LeaveOnly g k := by
  unfold LeaveOnly at *
  exact (congrArg (fun x : Gov => { x with spent := g.spent, hubLeave := g.hubLeave }) second).trans first

theorem LeaveOnly.kept {g h : Gov} (only : LeaveOnly g h) : h.ps = g.ps ∧ h.busy = g.busy ∧ h.again = g.again ∧
    h.thermTrip = g.thermTrip := by
  have field {α : Type} (f : Gov → α) := congrArg f (show { h with spent := g.spent, hubLeave := g.hubLeave } = g from only)
  exact ⟨field Gov.ps, field Gov.busy, field Gov.again, field Gov.thermTrip⟩

/-- Only leave and the stations that hold it differ. -/
structure CreditsLeave (s t : State) : Prop where
  frame : { t with gov := s.gov, stns := s.stns } = s
  gov : LeaveOnly s.gov t.gov

theorem CreditsLeave.refl (s : State) : CreditsLeave s s := ⟨rfl, rfl⟩

theorem CreditsLeave.trans {s t v : State} (first : CreditsLeave s t) (second : CreditsLeave t v) : CreditsLeave s v :=
  ⟨(congrArg (fun w : State => { w with gov := s.gov, stns := s.stns }) second.frame).trans first.frame,
    first.gov.trans second.gov⟩

theorem CreditsLeave.foldl {α : Type} {f : State → α → State} (h : ∀ s a, CreditsLeave s (f s a)) (l : List α) (s : State) :
    CreditsLeave s (l.foldl f s) := by
  induction l generalizing s with
  | nil => exact .refl s
  | cons a l ih => exact (h s a).trans (ih (f s a))

theorem creditsLeave_creditBack (s : State) (n : Nat) : CreditsLeave s (creditBack s n) := ⟨rfl, rfl⟩

theorem creditsLeave_creditUnit (s : State) (u : Nat) (x : Station) : CreditsLeave s (creditUnit s u x) := by
  have unit (t : State) (n : Nat) (y : Station) : CreditsLeave t (setStn (creditBack t n) u y) := ⟨rfl, rfl⟩
  unfold creditUnit
  refine .trans (.foldl (fun t p => ?_) x.chans s) (unit ..)
  split
  · exact creditsLeave_creditBack t _
  · exact .refl t

theorem creditsLeave_creditAll (s : State) : CreditsLeave s (creditAll s) := by
  have hub (t : State) (n : Nat) : CreditsLeave t (creditBack { t with gov := { t.gov with hubLeave := 0 } } n) := ⟨rfl, rfl⟩
  have units := CreditsLeave.foldl (fun t (p : Nat × Station) => creditsLeave_creditUnit t p.1 p.2) s.stns s
  unfold creditAll
  generalize s.stns.foldl (fun s p => creditUnit s p.1 p.2) s = t at units ⊢
  exact units.trans (hub ..)

-- P4 Off (R372)

theorem dropSess_gov (s : State) (sid : Nat) : (dropSess s sid).gov = s.gov := rfl

/-- The part once its sessions have ended and its records and operations are done with, before it loses power. -/
def p4Drained (s : State) : State := floatsOff (sumpDrain (creditAll ((sids s).foldl dropSess s)))

theorem p4Drained_gov (s : State) : LeaveOnly s.gov (p4Drained s).gov := by
  have sessions : ((sids s).foldl dropSess s).gov = s.gov := proj_foldl State.gov dropSess_gov _ s
  obtain ⟨-, credited⟩ := creditsLeave_creditAll ((sids s).foldl dropSess s)
  have reported : (p4Drained s).gov = (creditAll ((sids s).foldl dropSess s)).gov :=
    ((reportFrame_sumpDrain _).trans (reportFrame_floatsOff _)).kept.1
  rw [reported]
  rw [sessions] at credited
  exact credited

theorem voidChal_kept (s : State) : (voidChal s).gov = s.gov ∧ (voidChal s).stns = s.stns := by
  unfold voidChal; split <;> exact ⟨rfl, rfl⟩

theorem debugReset_kept (s : State) : (debugReset s).gov = s.gov ∧ (debugReset s).stns = s.stns := by
  unfold debugReset tapEndScan; split <;> exact ⟨rfl, rfl⟩

theorem reportFrame_resetWords (s : State) (ranges : List (Nat × Nat)) (keep : List Nat) :
    ReportFrame s (resetWords s ranges keep) :=
  .trans (.foldl (fun t a => reportFrame_setReg t a 0) _ s) (.foldl (fun t (p : Nat × Word) => reportFrame_setReg t p.1 p.2.toNat) ..)

theorem reportFrame_setImgStatus (s : State) (v : Nat) : ReportFrame s (setImgStatus s v) := by
  unfold setImgStatus; simp only []; split
  · rfl
  · exact .trans (t := setReg s _ _) rfl (reportFrame_setEvt ..)

@[simp] theorem vidGo_gov (s : State) (p : PState) : (vidGo s p).gov = s.gov := rfl
@[simp] theorem vidGo_stns (s : State) (p : PState) : (vidGo s p).stns = s.stns := rfl
@[simp] theorem clearText_gov (s : State) : (clearText s).gov = s.gov := rfl
@[simp] theorem clearText_stns (s : State) : (clearText s).stns = s.stns := rfl

/-- R372: of the Governor no request is left in P4 Off, and no transition. -/
theorem enterP4_gov (s : State) : (enterP4 s).gov =
    { (p4Drained s).gov with ps := .p4, busy := none, again := false, autoIdle := false, reqs := [] } := by
  simp only [enterP4, vidGo_gov, (reportFrame_setImgStatus _ _).kept.1, (reportFrame_resetWords _ _ _).kept.1, apply_ite State.gov,
    setReg_gov, ite_self, (debugReset_kept _).1, (voidChal_kept _).1, clearText_gov, p4Drained]

theorem enterP4_stns (s : State) : (enterP4 s).stns = [] := by
  simp only [enterP4, vidGo_stns, (reportFrame_setImgStatus _ _).kept.2.1, (reportFrame_resetWords _ _ _).kept.2.1, apply_ite State.stns,
    setReg_stns, ite_self, (debugReset_kept _).2, (voidChal_kept _).2, clearText_stns]

theorem enterP4_empties (s : State) : (enterP4 s).cist = [] ∧ (enterP4 s).well = [] := by
  have empty : (enterP4 s).rams = ([], []) := by simp [enterP4]
  generalize enterP4 s = t at empty ⊢
  exact Prod.ext_iff.1 empty

/-- A trip on the way in stands in P4 Off. -/
theorem enterP4_thermTrip (s : State) : (enterP4 s).gov.thermTrip = s.gov.thermTrip := by
  simp only [enterP4_gov]
  exact (p4Drained_gov s).kept.2.2.2

-- droop (R360, R361)

theorem exec_droopAssert {s : State} {k : Nat} (known : k < 6) : ∃ srcs, k ∈ srcs ∧ exec (.droopAssert k) s = .next
    (if s.gov.stretch then { s with gov := { s.gov with droopSrc := srcs, stretch := true, droopWait := true } }
     else addReg { s with gov := { s.gov with droopSrc := srcs, stretch := true, droopWait := true } } Reg.droopCnt 1) := by
  refine ⟨_, ?_, withOperand_of (decide_eq_true known) _⟩
  split
  · rename_i listed; simpa using listed
  · simp

theorem leaveGrant_of_stretch {s : State} (stretched : s.gov.stretch = true) : exec .leaveGrant s = .next s := by
  show execLeaveGrant s = _
  unfold execLeaveGrant; split
  · simp [mayGrant, stretched, guard]
  · rfl

-- samplings (R362)

/-- A list is read back from its entries. -/
theorem map_getD_range {α : Type} (d : α) (l : List α) : (List.range l.length).map (fun k => l.getD k d) = l :=
  List.ext_getElem (by simp) (by simp +contextual)

/-- The sensors' readings of a sampling: in P3 Standby the dies' last ones stand (R546). -/
def sampled (s : State) (dieT : List Nat) : Tab Nat :=
  let n := 8 * dies s
  let at_ (k : Nat) : Nat :=
    if k < n then (if s.gov.ps == .p3 then tabGet 0 s.gov.sensors k else dieT.getD k 0) else dieT.getD k 0
  (List.range n).map (fun k => (k, at_ k)) ++ [(32, at_ n), (33, at_ (n + 1))]

/-- The part with the readings of a sampling, before the registers have them. -/
def withReadings (s : State) (dieT stackT : List Nat) : State :=
  { s with gov := { s.gov with sensors := sampled s dieT, stackCount := stackT.mapIdx (fun k v => (k, v)) } }

theorem storeTemps_eq (s : State) (dieT stackT : List Nat) : ∃ t, ReportFrame (withReadings s dieT stackT) t ∧
    storeTemps s dieT stackT =
      setReg (setReg t Reg.thermMax (hottest ((sampled s dieT).map (·.2)))) Reg.thermStackMax (hottest stackT) := by
  refine ⟨_, ?_, rfl⟩
  refine .trans (.trans ?_ (reportFrame_setReg ..)) (.foldl (fun t k => reportFrame_setReg t _ _) ..)
  exact .foldl (fun t d => reportFrame_setReg t _ _) ..

theorem storeTemps_frame (s : State) (dieT stackT : List Nat) : ReportFrame (withReadings s dieT stackT) (storeTemps s dieT stackT) := by
  obtain ⟨t, frame, stored⟩ := storeTemps_eq s dieT stackT
  rw [stored]
  exact frame.trans (.trans (reportFrame_setReg ..) (reportFrame_setReg ..))

/-- R362: outside P3 Standby a sampling has the readings that came in. -/
theorem sampled_awake {s : State} {dieT : List Nat} (awake : s.gov.ps ≠ .p3) (whole : dieT.length = 8 * dies s + 2) :
    (sampled s dieT).map (·.2) = dieT := by
  have keep : (s.gov.ps == .p3) = false := beq_false_of_ne awake
  have all := map_getD_range 0 dieT
  rw [whole, List.range_succ, List.range_succ] at all
  simpa [sampled, keep, Function.comp_def] using all

theorem reg_thermMax_storeTemps {s : State} {dieT stackT : List Nat} (awake : s.gov.ps ≠ .p3) (whole : dieT.length = 8 * dies s + 2)
    (small : hottest dieT < 2 ^ 32) : reg (storeTemps s dieT stackT) Reg.thermMax = hottest dieT := by
  obtain ⟨t, -, stored⟩ := storeTemps_eq s dieT stackT
  rw [stored, reg_setReg_ne (by decide), sampled_awake awake whole, reg_setReg_self small]

/-- What the reports of a sampling, and the stops of its stacks, leave as it was: the power state, the thermal stop, the stations, the
memories and THERM_MAX. -/
def State.heat (s : State) : PState × Bool × Tab Station × (List Host.Cell × List Host.Cell) × Nat :=
  (s.gov.ps, s.gov.thermStop, s.stns, s.rams, reg s Reg.thermMax)

theorem heat_of_report {s t : State} (frame : ReportFrame s t) (max : reg t Reg.thermMax = reg s Reg.thermMax) : t.heat = s.heat := by
  obtain ⟨gov, stns, cist, well⟩ := frame.kept
  rw [State.heat, gov, stns, rams_eq_iff.2 ⟨cist, well⟩, max]; rfl

theorem thermRec_heat (s : State) (n : ThermNote) : (thermRec s n).heat = s.heat := by
  have pushed (r : RecIn) : (pushRec s r).heat = s.heat := heat_of_report (reportFrame_pushRec s r) (reg_pushRec (by decide) s r)
  have counted (t : State) : (setEvt (addReg t Reg.thermStopCnt 1) 6).heat = t.heat :=
    heat_of_report (.trans (reportFrame_setReg ..) (reportFrame_setEvt ..))
      ((reg_setEvt_ne (by decide) _ 6).trans (reg_addReg_ne (by decide) t 1))
  unfold thermRec; simp only []; split
  · exact (counted _).trans (pushed _)
  · exact pushed _

theorem stackStop_heat (q : State × List ThermNote) (k t : Nat) : (stackStop q k t).1.heat = q.1.heat := by
  unfold stackStop; simp only []; (repeat' split) <;> rfl

theorem stackStops_heat (l : List (Nat × Nat)) (q : State × List ThermNote) :
    (l.foldl (fun q p => stackStop q p.1 p.2) q).1.heat = q.1.heat := by
  induction l generalizing q with
  | nil => rfl
  | cons p l ih => rw [List.foldl_cons, ih, stackStop_heat]

/-- R364: the thermal stop begins at 105 °C and ends at 103 °C, and nothing else of these changes. -/
theorem thermalStop_heat (s : State) : (thermalStop s).1.heat = (s.gov.ps,
    (if 420 ≤ reg s Reg.thermMax then true else if reg s Reg.thermMax ≤ 412 then false else s.gov.thermStop),
    s.stns, s.rams, reg s Reg.thermMax) := by
  unfold thermalStop; simp only []; split
  · split
    · rename_i stopped; simp only [State.heat, stopped]
    · rfl
  · split <;> rfl

/-- R366: a trip is that of a reading of 115 °C or more. -/
theorem thermTrip_isSome_iff (s : State) : (thermTrip s).isSome = true ↔
    ∃ v ∈ s.gov.sensors.map (·.2) ++ s.gov.stackCount.map (·.2), 460 ≤ v := by
  have found (l : Tab Nat) : (l.find? (fun p => decide (460 ≤ p.2))).isSome = true ↔ ∃ v ∈ l.map (·.2), 460 ≤ v := by
    rw [List.find?_isSome]
    simp only [decide_eq_true_eq, List.mem_map, exists_exists_and_eq_and]
  have either : (thermTrip s).isSome = ((s.gov.sensors.find? (fun p => decide (460 ≤ p.2))).isSome ||
      (s.gov.stackCount.find? (fun p => decide (460 ≤ p.2))).isSome) := by
    unfold thermTrip
    cases s.gov.sensors.find? (fun p => decide (460 ≤ p.2)) <;>
      cases s.gov.stackCount.find? (fun p => decide (460 ≤ p.2)) <;> rfl
  rw [either, Bool.or_eq_true, found, found]
  simp [or_and_right, exists_or]

/-- The stops of a sampling, with what they have to report. -/
def sampledStops (s : State) (dieT stackT : List Nat) : State × List ThermNote :=
  (stackT.mapIdx (fun k v => (k, reading v))).foldl (fun q p => stackStop q p.1 p.2)
    (thermalStop (storeTemps s (dieT.map reading) (stackT.map reading)))

/-- The part after a sampling's stops and records, before a trip takes effect. -/
def sampledState (s : State) (dieT stackT : List Nat) (notes : List ThermNote) : State :=
  notes.foldl thermRec (sampledStops s dieT stackT).1

theorem sampledState_heat (s : State) (dieT stackT : List Nat) (notes : List ThermNote) : (sampledState s dieT stackT notes).heat =
    (thermalStop (storeTemps s (dieT.map reading) (stackT.map reading))).1.heat :=
  (proj_foldl State.heat thermRec_heat _ _).trans (stackStops_heat ..)

/-- A sampling of every sensor, in P0 to P2. -/
structure Sampling (s : State) (dieT stackT : List Nat) : Prop where
  dies : dieT.length = 8 * dies s + 2
  stack : stackT.length = stackCount s
  small : ∀ v ∈ dieT ++ stackT, v < 16383875
  awake : s.gov.ps ∉ [PState.p3, .p4]

theorem hottest_lt {l : List Nat} {n : Nat} (pos : 0 < n) (each : ∀ v ∈ l, v < n) : hottest l < n := by
  have fold (l : List Nat) (m : Nat) (hm : m < n) (each : ∀ v ∈ l, v < n) : l.foldl max m < n := by
    induction l generalizing m with
    | nil => exact hm
    | cons v t ih =>
      obtain ⟨first, rest⟩ := List.forall_mem_cons.1 each
      exact ih _ (max_lt hm first) rest
  exact fold l 0 pos each

section Samplings

variable {s : State} {dieT stackT : List Nat} (sample : Sampling s dieT stackT)

include sample

theorem exec_thermSample : ∃ t, (∃ notes, t = sampledState s dieT stackT notes) ∧ exec (.thermSample dieT stackT) s = .next
    (if (thermTrip (storeTemps s (dieT.map reading) (stackT.map reading))).isSome then
      enterP4 { t with gov := { t.gov with thermTrip := true } } else t) := by
  have known : (dieT.length == 8 * dies s + 2 && stackT.length == stackCount s &&
      (dieT ++ stackT).all (fun v => decide (reading v < 65536))) = true := by
    have each : (dieT ++ stackT).all (fun v => decide (reading v < 65536)) = true := List.all_eq_true.2 fun v hv =>
      decide_eq_true (by have := sample.small v hv; unfold reading; omega)
    simp only [sample.dies, sample.stack, beq_self_eq_true, Bool.and_self, each]
  have powered : (s.gov.ps != .p4) = true := by simpa using fun h : s.gov.ps = .p4 => sample.awake (by simp [h])
  show ∃ t, _ ∧ execThermSample dieT stackT s = _
  unfold execThermSample
  extract_lets t q notes recorded
  exact ⟨recorded, ⟨notes, rfl⟩, (withOperand_of known _).trans (guard_of powered ..)⟩

theorem awake_of_sampling : s.gov.ps ≠ .p3 := fun h => sample.awake (by simp [h])

/-- R366: a sampling trips the part at a reading of 114.875 °C, which rounds to 115 °C. -/
theorem trips_iff : (thermTrip (storeTemps s (dieT.map reading) (stackT.map reading))).isSome = true ↔
    ∃ v ∈ dieT ++ stackT, 114875 ≤ v := by
  have stored : (storeTemps s (dieT.map reading) (stackT.map reading)).gov = (withReadings s (dieT.map reading) (stackT.map reading)).gov :=
    (storeTemps_frame ..).kept.1
  have memories : (withReadings s (dieT.map reading) (stackT.map reading)).gov.stackCount.map (·.2) = stackT.map reading := by
    exact List.ext_getElem (by simp [withReadings]) (by simp [withReadings])
  have sensors : (withReadings s (dieT.map reading) (stackT.map reading)).gov.sensors.map (·.2) = dieT.map reading :=
    sampled_awake (awake_of_sampling sample) (by simp [sample.dies])
  rw [thermTrip_isSome_iff, stored, memories, sensors, ← List.map_append]
  simp only [List.mem_map, exists_exists_and_eq_and]
  exact exists_congr fun v => and_congr_right fun _ => by unfold reading; omega

/-- R362, R364: below the trip point a sampling stores the hottest die sensor, and starts or ends the thermal stop. -/
theorem sampledState_stores {t : Nat} (hot : t = hottest (dieT.map reading)) (notes : List ThermNote) :
    reg (sampledState s dieT stackT notes) Reg.thermMax = t ∧
      (sampledState s dieT stackT notes).gov.thermStop = (if 420 ≤ t then true else if t ≤ 412 then false else s.gov.thermStop) ∧
      (sampledState s dieT stackT notes).gov.ps = s.gov.ps ∧ (sampledState s dieT stackT notes).stns = s.stns ∧
      (sampledState s dieT stackT notes).rams = s.rams := by
  have small : hottest (dieT.map reading) < 2 ^ 32 := hottest_lt (by decide) fun v hv => by
    obtain ⟨w, hw, rfl⟩ := List.mem_map.1 hv
    have := sample.small w (List.mem_append_left _ hw)
    unfold reading; omega
  obtain ⟨gov, stns, cist, well⟩ := (storeTemps_frame s (dieT.map reading) (stackT.map reading)).kept
  have max := reg_thermMax_storeTemps (stackT := stackT.map reading) (awake_of_sampling sample) (by simp [sample.dies]) small
  have heat := (sampledState_heat s dieT stackT notes).trans (thermalStop_heat _)
  rw [max, ← hot, gov, stns, rams_eq_iff.2 ⟨cist, well⟩, State.heat] at heat
  simp only [Prod.mk.injEq] at heat
  obtain ⟨ps, stop, units, rams, hottestDie⟩ := heat
  exact ⟨hottestDie, stop, ps, units, rams⟩

/-- R362, R364: the sampling of a part that is not tripped. -/
theorem thermSample_stores (cool : ∀ v ∈ dieT ++ stackT, v < 114875) {t : Nat} (hot : t = hottest (dieT.map reading)) :
    ∃ s', exec (.thermSample dieT stackT) s = .next s' ∧ reg s' Reg.thermMax = t ∧
      s'.gov.thermStop = (if 420 ≤ t then true else if t ≤ 412 then false else s.gov.thermStop) ∧
      s'.gov.ps = s.gov.ps ∧ s'.stns = s.stns ∧ s'.cist = s.cist ∧ s'.well = s.well := by
  obtain ⟨s', ⟨notes, rfl⟩, ran⟩ := exec_thermSample sample
  have no_trip : ¬ (thermTrip (storeTemps s (dieT.map reading) (stackT.map reading))).isSome = true := fun trip => by
    obtain ⟨v, hv, high⟩ := (trips_iff sample).1 trip
    exact absurd (cool v hv) (Nat.not_lt.2 high)
  obtain ⟨max, stop, ps, stns, rams⟩ := sampledState_stores sample hot notes
  exact ⟨_, ran.trans (by rw [if_neg no_trip]), max, stop, ps, stns, rams_eq_iff.1 rams⟩

/-- R366: a reading of 115 °C or more takes the part into P4 Off. -/
theorem thermSample_trips {v : Nat} (read : v ∈ dieT ++ stackT) (high : 114875 ≤ v) :
    ∃ s', exec (.thermSample dieT stackT) s = .next s' ∧ s'.gov.ps = .p4 ∧ s'.gov.thermTrip = true ∧ s'.cist = [] ∧ s'.well = [] := by
  obtain ⟨t, -, ran⟩ := exec_thermSample sample
  exact ⟨_, ran.trans (by rw [if_pos ((trips_iff sample).2 ⟨v, read, high⟩)]), by simp only [enterP4_gov], enterP4_thermTrip _,
    enterP4_empties _⟩

end Samplings

/-- R360: a droop source starts the stretch and counts once. -/
theorem droopAssert_starts {s : State} {k : Nat} (known : k < 6) (calm : s.gov.stretch = false) (below : reg s Reg.droopCnt < 2 ^ 32 - 1) :
    ∃ s', exec (.droopAssert k) s = .next s' ∧ k ∈ s'.gov.droopSrc ∧ s'.gov.stretch = true ∧ s'.gov.droopWait = true ∧
      reg s' Reg.droopCnt = reg s Reg.droopCnt + 1 := by
  obtain ⟨srcs, listed, ran⟩ := exec_droopAssert (s := s) known
  rw [calm] at ran
  exact ⟨_, ran, listed, rfl, rfl, reg_addReg_one below⟩

/-- R360: a source asserted during the stretch continues the same event. -/
theorem droopAssert_continues {s : State} {k : Nat} (known : k < 6) (stretched : s.gov.stretch = true) :
    ∃ s', exec (.droopAssert k) s = .next s' ∧ k ∈ s'.gov.droopSrc ∧ s'.gov.stretch = true ∧ s'.regs = s.regs := by
  obtain ⟨srcs, listed, ran⟩ := exec_droopAssert (s := s) known
  rw [if_pos stretched] at ran
  exact ⟨_, ran, listed, rfl, rfl⟩

/-- Settles O35: the stretch stops grants, and a sampling stores its readings or trips the part. -/
theorem droopAndHeatStopGrants : Obligations.DroopAndHeatStopGrants := fun s => by
  refine ⟨fun k => droopAssert_starts, fun k => droopAssert_continues, leaveGrant_of_stretch, fun stretched => guard_of stretched .., ?_, ?_⟩
  · intro ds ss t dies stack cool awake hot
    exact thermSample_stores ⟨dies, stack, fun v hv => (cool v hv).trans (by decide), awake⟩ cool hot
  · intro ds ss v dies stack small read high awake
    exact thermSample_trips ⟨dies, stack, small, awake⟩ read high

end Sys2Proof.Machine

/-! PROOFS. Power states (R341, R368 to R371, R590, R591): what a request stores and asks for, the transitions among P0, P1, P2 and P4,
P3 Standby and its exit, and the VID code. -/

namespace Sys2Proof.Machine

-- requests (R368, Table 11.8)

/-- The word that PWR_CTL stores. -/
def pwrCtlWord (v : Nat) : Nat := min (v % 8) 4 + 256 * bits v 9 8 + 65536 * max 1 (bits v 31 16)

theorem pwrCtlWord_lt (v : Nat) : pwrCtlWord v < 2 ^ 32 := by
  have low : bits v 9 8 < 4 := Nat.mod_lt _ (by decide)
  have high : bits v 31 16 < 65536 := Nat.mod_lt _ (by decide)
  unfold pwrCtlWord; omega

theorem pwrCtlWord_mod (v : Nat) : pwrCtlWord v % 8 = min (v % 8) 4 := by unfold pwrCtlWord; omega

/-- The part with PWR_CTL written, before its TARGET asks for anything. -/
def targeted (s : State) (v : Nat) : State :=
  let t := setReg s Reg.pwrCtl (pwrCtlWord v)
  { t with gov := { t.gov with autoIdle := t.gov.autoIdle && min (v % 8) 4 != 2 } }

theorem reg_targeted (s : State) (v : Nat) : reg (targeted s v) Reg.pwrCtl = pwrCtlWord v := reg_setReg_self (pwrCtlWord_lt v) s _

theorem exec_pwrCtlWrite {s : State} {v : Nat} (word : v < 2 ^ 32) : exec (.pwrCtlWrite v) s = .next
    (if transiting s then { targeted s v with gov := { (targeted s v).gov with again := true } }
     else { targeted s v with gov := { (targeted s v).gov with busy := wanted (targeted s v) } }) :=
  withOperand_of (isWord_of_lt word) _

theorem wanted_targeted {s : State} {v : Nat} (run : s.gov.ps = .p0) :
    (v % 8 = 1 → wanted (targeted s v) = some .p1) ∧ (v % 8 = 0 → wanted (targeted s v) = none) := by
  have ps : (targeted s v).gov.ps = .p0 := run
  constructor <;> intro target <;>
    simp [wanted, reg_targeted, pwrCtlWord_mod, target, ps, pstateOf]

theorem pwrCtlWrite_asks (s : State) (v : Nat) (word : v < 2 ^ 32) : ∃ s', exec (.pwrCtlWrite v) s = .next s' ∧
    reg s' Reg.pwrCtl = pwrCtlWord v ∧
    (transiting s = false → s.gov.ps = .p0 → v % 8 = 1 → s'.gov.busy = some .p1) ∧
    (transiting s = false → s.gov.ps = .p0 → v % 8 = 0 → s'.gov.busy = none) ∧
    (transiting s = true → s'.gov.busy = s.gov.busy ∧ s'.gov.again = true) := by
  refine ⟨_, exec_pwrCtlWrite word, ?_⟩
  by_cases during : transiting s = true
  · rw [if_pos during]
    exact ⟨reg_targeted s v, fun h => by simp [during] at h, fun h => by simp [during] at h, fun _ => ⟨rfl, rfl⟩⟩
  · rw [if_neg during]
    exact ⟨reg_targeted s v, fun _ run => (wanted_targeted run).1, fun _ run => (wanted_targeted run).2, fun h => absurd h during⟩

-- the voltage (R590, R591)

@[simp] theorem vidFit_gov (s : State) (p : PState) : (vidFit s p).gov = s.gov := by unfold vidFit; simp only []; split <;> rfl
@[simp] theorem vidFit_stns (s : State) (p : PState) : (vidFit s p).stns = s.stns := by unfold vidFit; simp only []; split <;> rfl
@[simp] theorem vidFit_links (s : State) (p : PState) : (vidFit s p).links = s.links := by
  unfold vidFit; simp only []; split <;> rfl

/-- A raise to P0 first aims the VID code at a code of P0's range, and leaves it where it stands. -/
theorem vidGo_raises {s : State} (low : s.pins.vid < 20) : (vidGo s .p0).gov = s.gov ∧ 20 ≤ (vidGo s .p0).pins.vidTo ∧
    (vidGo s .p0).pins.vidTo ≤ 40 ∧ (vidGo s .p0).pins.vid = s.pins.vid := by
  have aim : (vidGo s .p0).pins.vidTo = 20 + Config.freeNat s.free 0 % 21 := rfl
  have code : (vidGo s .p0).pins.vid = min s.pins.vid (20 + Config.freeNat s.free 0 % 21) := rfl
  rw [aim, code]
  exact ⟨rfl, by omega, by omega, by omega⟩

-- transitions (R368)

/-- Nothing is asked for anew where no TARGET was written during the transition. -/
theorem retarget_of_settled {s : State} (settled : s.gov.again = false) : retarget s = s := by simp [retarget, settled]

@[simp] theorem retarget_ps (s : State) : (retarget s).gov.ps = s.gov.ps := by unfold retarget; split <;> rfl
@[simp] theorem retarget_autoIdle (s : State) : (retarget s).gov.autoIdle = s.gov.autoIdle := by unfold retarget; split <;> rfl
@[simp] theorem retarget_stns (s : State) : (retarget s).stns = s.stns := by unfold retarget; split <;> rfl

/-- The part that leaves its state for `p`: what enters P2 credits its leave back (R356). -/
def departing (s : State) (p : PState) : State := if p = .p2 then creditAll s else s

theorem creditsLeave_departing (s : State) (p : PState) : CreditsLeave s (departing s p) := by
  unfold departing; split
  · exact creditsLeave_creditAll s
  · exact .refl s

/-- The part in P0, P1 or P2, with what it asks for next still to come. -/
def moved (s : State) (p : PState) (auto : Bool) : State :=
  vidFit { departing s p with gov := { (departing s p).gov with ps := p, busy := none, autoIdle := auto } } p

theorem moveTo_eq (s : State) (p : PState) (auto : Bool) : moveTo s p auto = retarget (moved s p auto) := rfl

theorem moved_gov (s : State) (p : PState) (auto : Bool) :
    (moved s p auto).gov = { (departing s p).gov with ps := p, busy := none, autoIdle := auto } := vidFit_gov ..

theorem moveTo_ps (s : State) (p : PState) (auto : Bool) : (moveTo s p auto).gov.ps = p ∧ (moveTo s p auto).gov.autoIdle = auto := by
  simp only [moveTo_eq, retarget_ps, retarget_autoIdle, moved_gov, and_self]

theorem moveTo_busy {s : State} (settled : s.gov.again = false) (p : PState) (auto : Bool) : (moveTo s p auto).gov.busy = none := by
  have still : (moved s p auto).gov.again = false := by
    simp only [moved_gov]
    exact (creditsLeave_departing s p).gov.kept.2.2.1.trans settled
  simp only [moveTo_eq, retarget_of_settled still, moved_gov]

theorem moveTo_stns (s : State) {p : PState} (other : p ≠ .p2) (auto : Bool) : (moveTo s p auto).stns = s.stns := by
  simp only [moveTo_eq, retarget_stns, moved, vidFit_stns, departing, if_neg other]

theorem moveTo_memory (s : State) (p : PState) (auto : Bool) : (moveTo s p auto).cist = s.cist ∧ (moveTo s p auto).well = s.well :=
  rams_eq_iff.1 (moveTo_rams s p auto)

/-- A transition may go on: no zeroize runs, the part is not in the scan state, and no TARGET was written since (R368, R499, R511). -/
structure MayMove (s : State) : Prop where
  secure : s.sec.zero = none
  running : s.tap.scan = false
  settled : s.gov.again = false

section Transitions

variable {s : State} (may : MayMove s)

include may

theorem exec_pstateTransition_run {p : PState} (asked : s.gov.busy = some p) (near : s.gov.ps ∈ [PState.p0, .p1, .p2])
    (run : p ∈ [PState.p0, .p1]) : exec .pstateTransition s = raiseFirst s p (moveTo s p false) := by
  have on : ¬ (s.gov.ps = .p3 ∨ s.gov.ps = .p4) := by rintro (h | h) <;> simp [h] at near
  show execPstateTransition s = _
  simp only [List.mem_cons, List.not_mem_nil, or_false] at run
  obtain rfl | rfl := run <;>
    simp only [execPstateTransition, asked, may.secure, may.running, Option.isSome_none, Bool.or_self, Bool.false_eq_true, if_false, if_neg on]

/-- R368: P1 Eco is entered at once. -/
theorem pstateTransition_eco (asked : s.gov.busy = some .p1) (from_ : s.gov.ps ∈ [PState.p0, .p2]) :
    ∃ s', exec .pstateTransition s = .next s' ∧ s'.gov.ps = .p1 ∧ s'.gov.busy = none ∧ s'.stns = s.stns ∧ s'.cist = s.cist ∧
      s'.well = s.well := by
  have near : s.gov.ps ∈ [PState.p0, .p1, .p2] := by simp at from_ ⊢; tauto
  exact ⟨_, exec_pstateTransition_run may asked near (by simp), (moveTo_ps ..).1, moveTo_busy may.settled .., moveTo_stns s (by decide) _,
    moveTo_memory ..⟩

/-- R591: P0 Run is entered where the voltage is that of P0. -/
theorem pstateTransition_run (asked : s.gov.busy = some .p0) (from_ : s.gov.ps ∈ [PState.p1, .p2]) (raised : 20 ≤ s.pins.vid) :
    ∃ s', exec .pstateTransition s = .next s' ∧ s'.gov.ps = .p0 ∧ s'.gov.busy = none ∧ s'.stns = s.stns := by
  have near : s.gov.ps ∈ [PState.p0, .p1, .p2] := by simp at from_ ⊢; tauto
  have high : ¬ (PState.p0 = .p0 ∧ s.pins.vid < 20) := fun h => Nat.not_lt.2 raised h.2
  exact ⟨_, (exec_pstateTransition_run may asked near (by simp)).trans (if_neg high), (moveTo_ps ..).1, moveTo_busy may.settled ..,
    moveTo_stns s (by decide) _⟩

/-- R591: before that the voltage is to be raised, and the part stays where it is. -/
theorem pstateTransition_raises (asked : s.gov.busy = some .p0) (from_ : s.gov.ps ∈ [PState.p1, .p2]) (low : s.pins.vid < 20)
    (aimed : s.pins.vidTo ≤ s.pins.vid) : ∃ s', exec .pstateTransition s = .next s' ∧ s'.gov = s.gov ∧ 20 ≤ s'.pins.vidTo ∧
      s'.pins.vidTo ≤ 40 ∧ s'.pins.vid = s.pins.vid := by
  have near : s.gov.ps ∈ [PState.p0, .p1, .p2] := by simp at from_ ⊢; tauto
  have raise : raiseFirst s .p0 (moveTo s .p0 false) = .next (vidGo s .p0) := by
    rw [raiseFirst, if_pos ⟨rfl, low⟩, if_neg (Nat.not_lt.2 aimed)]
  exact ⟨_, (exec_pstateTransition_run may asked near (by simp)).trans raise, vidGo_raises low⟩

/-- R369: P2 Idle is entered once no step and no load runs and the stations may be gated. -/
theorem pstateTransition_idle (still : s.disp.step = none) (loaded : loading s = false) (asked : s.gov.busy = some .p2)
    (from_ : s.gov.ps ∈ [PState.p0, .p1]) (gate : mayGate s = true) : ∃ s', exec .pstateTransition s = .next s' ∧ s'.gov.ps = .p2 ∧
      s'.gov.busy = none ∧ s'.cist = s.cist ∧ s'.well = s.well := by
  have ran : exec .pstateTransition s = .next (moveTo s .p2 false) := by
    show execPstateTransition s = _
    simp only [execPstateTransition, asked, may.secure, may.running, still, loaded, gate, granting_iff.2 from_, Option.isSome_none,
      Option.isNone_none, Bool.not_false, Bool.and_self, Bool.or_self, Bool.false_eq_true, if_false, guard_true]
  exact ⟨_, ran, (moveTo_ps ..).1, moveTo_busy may.settled .., moveTo_memory ..⟩

/-- R372: P4 Off is entered once no step and no load runs, and everything volatile is lost. -/
theorem pstateTransition_off (still : s.disp.step = none) (loaded : loading s = false) (asked : s.gov.busy = some .p4) :
    ∃ s', exec .pstateTransition s = .next s' ∧ s'.gov.ps = .p4 ∧ s'.cist = [] ∧ s'.well = [] ∧ s'.stns = [] := by
  have ran : exec .pstateTransition s = .next (enterP4 s) := by
    show execPstateTransition s = _
    simp only [execPstateTransition, asked, may.secure, may.running, still, loaded, Option.isSome_none, Option.isNone_none, Bool.not_false,
      Bool.and_self, Bool.or_self, Bool.false_eq_true, if_false, guard_true]
  obtain ⟨cist, well⟩ := enterP4_empties s
  exact ⟨_, ran, by simp only [enterP4_gov], cist, well, enterP4_stns s⟩

end Transitions

/-- R370: a part without work enters P2 Idle by itself. -/
theorem autoIdleEnter_idles {s : State} (enabled : regBit s Reg.pwrCtl 8 = true) (from_ : s.gov.ps ∈ [PState.p0, .p1]) (idle : s.sess = [])
    (still : s.disp.step = none) (primed : s.disp.prime = .none) (free : s.gov.busy = none) (secure : s.sec.zero = none)
    (gate : mayGate s = true) (loaded : loading s = false) (running : s.tap.scan = false) :
    ∃ s', exec .autoIdleEnter s = .next s' ∧ s'.gov.ps = .p2 ∧ s'.gov.autoIdle = true ∧ s'.cist = s.cist ∧ s'.well = s.well := by
  have no_work : hasWork s = false := by simp [hasWork, idle]
  have may : (regBit s Reg.pwrCtl 8 && granting s.gov.ps && !hasWork s && s.disp.step.isNone && s.disp.prime == .none &&
      s.gov.busy.isNone && s.sec.zero.isNone && mayGate s && !loading s && !s.tap.scan) = true := by
    simp [enabled, granting_iff.2 from_, no_work, still, primed, free, secure, gate, loaded, running]
  obtain ⟨ps, auto⟩ := moveTo_ps s .p2 true
  exact ⟨_, guard_of may .., ps, auto, moveTo_memory ..⟩

-- links that go down for P3 Standby (R341)

theorem hopSend_gov (s : State) (h : Nat) (fs : List Flit) : (hopSend s h fs).gov = s.gov := by
  have frame := congrArg State.gov (hopFrame_hopSend s h fs)
  exact frame

theorem sendCtrl_gov (s : State) (l code : Nat) (body : List Nat) : (sendCtrl s l code body).gov = s.gov := hopSend_gov ..

theorem ctrlDown_gov (s : State) (l reason : Nat) : (ctrlDown s l reason).gov = s.gov := by
  unfold ctrlDown; split
  · exact sendCtrl_gov ..
  · rfl

theorem linkRecord_gov (s : State) (l h reason : Nat) : (linkRecord s l h reason).gov = s.gov := by
  have recorded (t : State) (r : RecIn) : (setEvt (addReg (pushRec t r) Reg.linkDown 1) 7).gov = t.gov :=
    ((reportFrame_pushRec t r).trans (.trans (reportFrame_setReg ..) (reportFrame_setEvt ..))).kept.1
  unfold linkRecord; simp only []
  rw [recorded]; split <;> rfl

theorem trainFail_gov (s : State) (l res : Nat) : (trainFail s l res).gov = s.gov := by
  unfold trainFail; split
  · exact (ReportFrame.of_float (floatFrame_floatEnd { s with trainLinks := 0 } 5 false res)).kept.1
  · rfl

theorem clearCredits_gov (s : State) (l : Nat) : (clearCredits s l).gov = s.gov := rfl
theorem clearLink_gov (s : State) (l : Nat) : (clearLink s l).gov = s.gov := rfl
theorem failUnit_gov (s : State) (l u : Nat) : (failUnit s l u).gov = s.gov := rfl

/-- R341: an Extium Link that goes down for P3 Standby leaves the Governor as it is. -/
theorem extDown_standby_gov (s : State) (l : Nat) : (extDown s l 8).gov = s.gov := by
  have fails (t : State) (k : Nat) (l : List Nat) : (l.foldl (fun s u => failUnit s k u) t).gov = t.gov :=
    proj_foldl State.gov (fun s u => failUnit_gov s k u) l t
  have down (h : Nat) : (linkDownAt s h 8).gov = s.gov := by
    unfold linkDownAt; simp only []
    split
    · rfl
    · split <;>
        simp only [apply_ite State.gov, trainFail_gov, putExt_gov, noteFault_gov, clearLink_gov, clearCredits_gov, fails, ctrlDown_gov,
          linkRecord_gov, ite_self, if_true]
  unfold extDown; simp only []
  split
  · exact down _
  · split
    · simp only [apply_ite State.gov, trainFail_gov, putExt_gov, clearLink_gov, ctrlDown_gov, linkRecord_gov, ite_self, if_true]
    · rfl

theorem standbyLink_gov (s : State) (l : Nat) : (standbyLink s l).gov = s.gov := by
  unfold standbyLink; simp only []; split
  · exact extDown_standby_gov s l
  · rfl

-- the entry into P3 Standby (R370)

theorem creditsLeave_hubSpend (s : State) (n : Nat) : CreditsLeave s (hubSpend s n) := by
  unfold hubSpend; split <;> exact ⟨rfl, rfl⟩

theorem sumNcu_gov (s : State) (u : Nat) : (sumNcu s u).gov = s.gov := rfl
theorem sumNcu_paired (s : State) (u : Nat) : (sumNcu s u).paired = s.paired := rfl

/-- The end of the entry keeps what the gated part has. -/
theorem retarget_vidFit_of_settled {s : State} (settled : s.gov.again = false) (p : PState) :
    (retarget (vidFit s p)).gov = s.gov ∧ (retarget (vidFit s p)).links = s.links := by
  rw [retarget_of_settled (by rw [vidFit_gov]; exact settled)]
  exact ⟨vidFit_gov .., vidFit_links ..⟩

theorem enterP3_enters {s : State} (settled : s.gov.again = false) : (enterP3 s).gov.ps = .p3 ∧ (enterP3 s).gov.busy = none ∧
    (enterP3 s).dieUp = 0 ∧ (enterP3 s).held = s.paired := by
  have gated (t d : State) (p : Bool) (gov : d.gov = { t.gov with ps := .p3, busy := none, autoIdle := false, reqs := [] })
      (again : t.gov.again = false) (up : d.dieUp = 0) (held : d.held = p) : (retarget (vidFit d .p3)).gov.ps = .p3 ∧
      (retarget (vidFit d .p3)).gov.busy = none ∧ (retarget (vidFit d .p3)).dieUp = 0 ∧ (retarget (vidFit d .p3)).held = p := by
    obtain ⟨kept, links⟩ := retarget_vidFit_of_settled (s := d) (by rw [gov]; exact again) .p3
    obtain ⟨dies, -, -, holds, -⟩ := links_eq_iff.1 links
    rw [kept, gov, dies, holds]
    exact ⟨rfl, rfl, up, held⟩
  unfold enterP3
  extract_lets us g a saved pair b c
  have summed : CreditsLeave (us.foldl sumNcu g.2) a := (creditsLeave_hubSpend ..).trans (creditsLeave_creditAll _)
  have settledA : a.gov.again = false := by
    rw [summed.gov.kept.2.2.1, proj_foldl State.gov sumNcu_gov]; exact settled
  have pairA : a.paired = s.paired := (congrArg State.paired summed.frame).trans (proj_foldl State.paired sumNcu_paired us g.2)
  have told : b.gov = a.gov := by
    show (if _ then sendCtrl a 0 2 [] else a).gov = a.gov
    split
    · exact sendCtrl_gov ..
    · rfl
  have down : c.gov = b.gov := (standbyLink_gov ..).trans (standbyLink_gov ..)
  exact gated c _ s.paired rfl (by rw [down, told]; exact settledA) rfl pairA

/-- Nothing keeps the part from P3 Standby: no step, zeroize, priming or load runs, it is on and not in the scan state, the hub has leave
for the slots, and every station stands still (R350, R370). -/
structure MayStandBy (s : State) : Prop where
  still : s.disp.step = none
  secure : s.sec.zero = none
  primed : s.disp.prime = .none
  awake : s.gov.ps ∈ [PState.p0, .p1, .p2]
  loaded : loading s = false
  running : s.tap.scan = false
  settled : s.gov.again = false
  leave : hubReady s 1 = true
  quiet : s.stns.all (fun p => standbyReady p.2) = true

section Standby

variable {s : State} (may : MayStandBy s)

include may

theorem standby_enters : ∃ t, standby s = .next t ∧ t.gov.ps = .p3 ∧ t.gov.busy = none ∧ t.dieUp = 0 ∧ t.held = s.paired ∧
    t.cist = [] ∧ t.well = s.well := by
  have on : s.gov.ps ≠ .p3 ∧ s.gov.ps ≠ .p4 := by
    constructor <;> intro h <;> simpa [h] using may.awake
  have ran : standby s = .next (enterP3 s) := by
    rw [standby, if_neg (by simp [may.still, may.secure, may.primed, may.loaded, may.running, on]), if_pos may.quiet, guard, if_pos may.leave]
  have entered := enterP3_enters may.settled
  have rams := enterP3_rams (s := s)
  generalize enterP3 s = t at ran entered rams
  obtain ⟨ps, busy, dies, held⟩ := entered
  exact ⟨t, ran, ps, busy, dies, held, Prod.ext_iff.1 rams⟩

/-- R370: the part, or the primary of a pair with both, enters P3 Standby. -/
theorem p3Entry_enters (own : isSecondary s = false) (asked : s.gov.busy = some .p3) : ∃ s', exec .p3Entry s = .next s' ∧
    s'.gov.ps = .p3 ∧ s'.gov.busy = none ∧ s'.cist = [] ∧ s'.well = s.well ∧ s'.dieUp = 0 := by
  obtain ⟨t, ran, ps, busy, dies, -, cist, well⟩ := standby_enters may
  exact ⟨t, (if_pos ⟨asked, by rw [own]; rfl⟩).trans ran, ps, busy, cist, well, dies⟩

/-- R341: the secondary enters P3 Standby where it is told of it, and is held there. -/
theorem pairStandby_enters (second : isSecondary s = true) (up : (getExt s 0).st = .up) : ∃ s', exec .pairStandby s = .next s' ∧
    s'.gov.ps = .p3 ∧ s'.cist = [] ∧ s'.well = s.well ∧ s'.held = true := by
  obtain ⟨t, ran, ps, -, -, held, cist, well⟩ := standby_enters may
  have pair : s.paired = true := ((Bool.and_eq_true ..).mp second).1
  exact ⟨t, (if_pos ⟨second, up⟩).trans ran, ps, cist, well, held.trans pair⟩

end Standby

-- the exit from P3 Standby (R370)

/-- A die link trained anew: it is UP, and its hops are empty. -/
def dieTrained (s : State) (l : Nat) : State := clearLink { s with dieUp := s.dieUp ||| 2 ^ l } l

theorem testBit_dieTrained (s : State) (l k : Nat) :
    (dieTrained s l).dieUp.testBit k = (s.dieUp.testBit k || decide (l = k)) := by
  show (s.dieUp ||| 2 ^ l).testBit k = _
  rw [Nat.testBit_or, Nat.testBit_two_pow]

/-- Links trained one after the other are UP, as is every one that was. -/
theorem testBit_foldl_dieTrained (ls : List Nat) (s : State) (k : Nat) :
    (ls.foldl dieTrained s).dieUp.testBit k = (s.dieUp.testBit k || decide (k ∈ ls)) := by
  induction ls generalizing s with
  | nil => simp
  | cons l ls ih =>
    rw [List.foldl_cons, ih, testBit_dieTrained, Bool.or_assoc, ← Bool.decide_or]
    simp only [List.mem_cons, eq_comm]

theorem lt_of_mem_dieLinks {s : State} {l : Nat} (has : l ∈ dieLinks s) : l < 8 := by
  unfold dieLinks at has; split at has <;> simp at has <;> omega

/-- The part in the state `p` after P3 Standby, with its dies powered and their links trained. -/
def woken (s : State) (p : PState) : State :=
  let t := (dieLinks s).foldl dieTrained s
  vidFit { t with gov := { t.gov with ps := p, busy := none }, boot := { t.boot with stnWait := false } } p

theorem vidFit_sec (s : State) (p : PState) : (vidFit s p).sec = s.sec := by unfold vidFit; simp only []; split <;> rfl

theorem foldl_dieTrained_gov (ls : List Nat) (s : State) : (ls.foldl dieTrained s).gov = s.gov :=
  proj_foldl (f := dieTrained) State.gov (fun _ _ => rfl) ls s

theorem foldl_dieTrained_sec (ls : List Nat) (s : State) : (ls.foldl dieTrained s).sec = s.sec :=
  proj_foldl (f := dieTrained) State.sec (fun _ _ => rfl) ls s

theorem woken_gov (s : State) (p : PState) : (woken s p).gov = { s.gov with ps := p, busy := none } := by
  simp only [woken, vidFit_gov, foldl_dieTrained_gov]

theorem woken_sec (s : State) (p : PState) : (woken s p).sec = s.sec := by
  simp only [woken, vidFit_sec, foldl_dieTrained_sec]

theorem testBit_woken (s : State) (p : PState) (l : Nat) (has : l ∈ dieLinks s) : (woken s p).dieUp.testBit l = true := by
  have dies : (woken s p).dieUp = ((dieLinks s).foldl dieTrained s).dieUp := (links_eq_iff.1 (vidFit_links ..)).1
  rw [dies, testBit_foldl_dieTrained, decide_eq_true has, Bool.or_true]

/-- The part with the priming of its image due, where one is ready. -/
def primeDue (what : PrimeOf) (s : State) : State :=
  if imgReady s then { s with disp := { s.disp with prime := .due what, primeFails := 0 } } else s

theorem primeDue_gov (what : PrimeOf) (s : State) : (primeDue what s).gov = s.gov := by unfold primeDue; split <;> rfl
theorem primeDue_dieUp (what : PrimeOf) (s : State) : (primeDue what s).dieUp = s.dieUp := by unfold primeDue; split <;> rfl

/-- Without a zeroize that waits, what follows the exit is priming. -/
theorem leaveP3_eq_primeDue {s : State} (secure : s.sec.zpend = none) (p : PState) :
    ∃ what, leaveP3 s p = retarget (primeDue what (woken s p)) := by
  have zpend : (woken s p).sec.zpend = none := by rw [woken_sec]; exact secure
  unfold leaveP3
  extract_lets t what gov boot d sec disp
  have form : d = woken s p := rfl
  have pend : d.sec.zpend = none := by rw [form]; exact zpend
  refine ⟨what, ?_⟩
  rw [pend, ← form]
  rfl

/-- Priming leaves the Governor and the links as they are. -/
theorem leaveP3_wakes {s : State} (secure : s.sec.zpend = none) (settled : s.gov.again = false) (p : PState) :
    (leaveP3 s p).gov = { s.gov with ps := p, busy := none } ∧ (leaveP3 s p).dieUp = (woken s p).dieUp := by
  obtain ⟨what, eq⟩ := leaveP3_eq_primeDue secure p
  have again : (primeDue what (woken s p)).gov.again = false := by simp only [primeDue_gov, woken_gov, settled]
  rw [eq, retarget_of_settled again, primeDue_gov, primeDue_dieUp, woken_gov]
  exact ⟨rfl, rfl⟩

/-- R370: the exit to P1 Eco brings every die link UP and keeps the well. -/
theorem p3Exit_eco {s : State} (standing : s.gov.ps = .p3) (asked : s.gov.busy = some .p1) (free : s.held = false)
    (secure : s.sec.zpend = none) (running : s.tap.scan = false) (settled : s.gov.again = false) : ∃ s', exec .p3Exit s = .next s' ∧
    s'.gov.ps = .p1 ∧ s'.gov.busy = none ∧ s'.well = s.well ∧ ∀ l, l ∈ dieLinks s → linkUp s' l = true := by
  have ran : exec .p3Exit s = .next (leaveP3 s .p1) := by
    show execP3Exit s = _
    simp only [execP3Exit, running, free, asked, standing, Bool.false_and, Bool.false_eq_true, if_false, beq_self_eq_true, guard_true]
  obtain ⟨gov, dies⟩ := leaveP3_wakes secure settled .p1
  have well := (rams_eq_iff.1 (leaveP3_rams (s := s) .p1)).2
  refine ⟨leaveP3 s .p1, ran, ?_, ?_, well, fun l has => ?_⟩
  · rw [gov]
  · rw [gov]
  · rw [linkUp_die (lt_of_mem_dieLinks has), dies]
    exact testBit_woken s .p1 l has

/-- Settles O36, a transition at a time: what is asked for, P0, P1, P2 and P4, AUTO_IDLE, P3 Standby and its exit, and the VID code. -/
theorem powerStatesChange : Obligations.PowerStatesChange := by
  unfold Obligations.PowerStatesChange
  intro s
  refine ⟨fun v word => pwrCtlWrite_asks s v word, fun secure running settled => ?_, autoIdleEnter_idles, ?_, p3Exit_eco, fun low calm => ?_⟩
  · have may : MayMove s := ⟨secure, running, settled⟩
    exact ⟨pstateTransition_eco may, pstateTransition_run may, pstateTransition_raises may, pstateTransition_idle may,
      pstateTransition_off may⟩
  · intro still secure primed awake loaded running settled leave quiet
    have may : MayStandBy s := ⟨still, secure, primed, awake, loaded, running, settled, leave, quiet⟩
    exact ⟨p3Entry_enters may, pairStandby_enters may⟩
  · exact guard_of (by rw [decide_eq_true low, calm]; rfl) ..

end Sys2Proof.Machine

/-! PROOFS. Completion entries (R381 to R383, R387, R388): what their writes leave of the queue pairs and the sessions. -/

namespace Sys2Proof.Machine

-- reading sessions and queue pairs

@[simp] theorem getSess_modSess (s : State) (i k : Nat) (f : Sess → Sess) :
    getSess (modSess s i f) k = if k = i then f (getSess s i) else getSess s k := getSess_setSess ..

@[simp] theorem getQp_modQp (s : State) (n k : Nat) (f : QPair → QPair) :
    getQp (modQp s n f) k = if k = n then f (getQp s n) else getQp s k := getQp_setQp ..

theorem getSess_of_sess {s t : State} (h : t.sess = s.sess) (k : Nat) : getSess t k = getSess s k := by rw [getSess, h]; rfl

theorem getQp_of_qps {s t : State} (h : t.qps = s.qps) (n : Nat) : getQp t n = getQp s n := by rw [getQp, h]; rfl

/-- Records, events and messages change no queue pair and no session. -/
theorem ReportFrame.rings {s t : State} (h : ReportFrame s t) : t.qps = s.qps ∧ t.sess = s.sess := by
  unfold ReportFrame at h
  have qps := congrArg State.qps h
  have sess := congrArg State.sess h
  exact ⟨qps, sess⟩

theorem reportFrame_sendMsix (s : State) (v : Nat) : ReportFrame s (sendMsix s v) := .of_float (floatFrame_sendMsix s v)

theorem getQp_sendMsix (s : State) (v n : Nat) : getQp (sendMsix s v) n = getQp s n :=
  getQp_of_qps (reportFrame_sendMsix s v).rings.1 n

/-- R383: beside the state of the queue pair, an error only reports. -/
theorem reportFrame_qpError (s : State) (n cause addr : Nat) :
    ReportFrame (modQp s n (fun q => { q with st := 2, errCause := cause })) (qpError s n cause addr) :=
  (reportFrame_pushRec ..).trans ((reportFrame_setReg ..).trans (reportFrame_setEvt ..))

theorem getQp_qpError (s : State) (n cause addr k : Nat) :
    getQp (qpError s n cause addr) k = if k = n then { getQp s n with st := 2, errCause := cause } else getQp s k := by
  rw [getQp_of_qps (reportFrame_qpError ..).rings.1, getQp_modQp]

/-- R382: a message starts the count of entries without one anew. -/
theorem getQp_qpMessage (s : State) (n k : Nat) :
    getQp (qpMessage s n) k = if k = n then { getQp s n with since := 0 } else getQp s k := by
  rw [qpMessage, getQp_modQp, getQp_sendMsix, getQp_sendMsix]

-- the queue pair's heads (R381): CQ_HEAD, and whether an invalid one stands

/-- CQ_HEAD in force, and whether an invalid value stands. -/
def QPair.heads (q : QPair) : Nat × Bool := (q.cqHead, q.badHead)

/-- An update of one queue pair that keeps its heads keeps those of all. -/
theorem heads_setQp {s : State} {n : Nat} {q : QPair} (own : q.heads = (getQp s n).heads) (k : Nat) :
    (getQp (setQp s n q) k).heads = (getQp s k).heads := by
  rw [getQp_setQp]; split
  · rename_i here; rw [here, own]
  · rfl

theorem heads_qpMessage (s : State) (n k : Nat) : (getQp (qpMessage s n) k).heads = (getQp s k).heads := by
  rw [getQp_qpMessage]; split
  · rename_i here; rw [here]; rfl
  · rfl

theorem heads_cqWrite (s : State) (i : CqItem) (k : Nat) : (getQp (cqWrite s i) k).heads = (getQp s k).heads := by
  unfold cqWrite; extract_lets q a tail q' t
  have written : (getQp t k).heads = (getQp s k).heads := 
    heads_setQp (s := { s with out := s.out ++ [.write a (cqBytes s q i)] }) (q := q') rfl k
  split
  · rw [getQp_qpError]; split
    · rename_i here; rw [here]; rfl
    · rfl
  · split
    · rw [heads_qpMessage, written]
    · exact written

theorem heads_writeItems (l : List CqItem) (s : State) (k : Nat) : (getQp (writeItems s l).1 k).heads = (getQp s k).heads := by
  induction l generalizing s with
  | nil => rfl
  | cons i l ih =>
    rw [writeItems]; split
    · rw [ih, heads_cqWrite]
    · rfl

theorem heads_flushSess (s : State) (sid k : Nat) : (getQp (flushSess s sid) k).heads = (getQp s k).heads := heads_writeItems ..

theorem heads_flushQp (s : State) (n k : Nat) : (getQp (flushQp s n) k).heads = (getQp s k).heads := by
  refine (heads_setQp ?_ k).trans (heads_writeItems ..)
  rfl

/-- Writing what waits moves no CQ_HEAD. -/
theorem heads_flushAll (s : State) (n k : Nat) : (getQp (flushAll s n) k).heads = (getQp s k).heads := by
  unfold flushAll
  refine (proj_foldl (fun t => (getQp t k).heads) (fun t i => ?_) _ _).trans (heads_flushQp s n k)
  split
  · exact heads_flushSess t i k
  · rfl

end Sys2Proof.Machine

/-! PROOFS. Queue pairs (R379 to R383, R390): doorbells, enable and disable, coalescing, fetches and messages. -/

namespace Sys2Proof.Machine

theorem qpArg_of {n v : Nat} (pair : n < 64) (word : v < 2 ^ 32) : qpArg n v = true := by
  rw [qpArg, decide_eq_true pair, decide_eq_true word]; rfl

-- doorbells (R380, R381)

/-- The distance from the head in force to a value at or above it, in a ring of `z` entries. -/
theorem ringDistance {z h c : Nat} (above : c ≤ h) (inside : h < z) : (h + z - c) % z = h - c := by
  rw [show h + z - c = h - c + z by omega, Nat.add_mod_right, Nat.mod_eq_of_lt (by omega)]

/-- Below no wrap of the ring, a CQ_HEAD at or above the one in force is valid up to CQ_TAIL. -/
theorem headValid_iff {q : QPair} {h : Nat} (above : q.cqHead ≤ h) (inside : h < 2 ^ q.cqL) (tail : q.cqHead ≤ q.cqTail)
    (ring : q.cqTail < 2 ^ q.cqL) : headValid q h = true ↔ h ≤ q.cqTail := by
  simp only [headValid, ringDistance above inside, ringDistance tail ring, decide_eq_true_eq]
  omega

theorem sqTailDoorbell_stores {s : State} {n v : Nat} (pair : n < 64) (word : v < 2 ^ 32) (on : (getQp s n).enable = true) :
    ∃ s', exec (.sqTailDoorbell n v) s = .next s' ∧ { s' with qps := s.qps } = s ∧
      getQp s' n = { getQp s n with tail := v % 2 ^ (getQp s n).sqL } ∧ ∀ m, m ≠ n → getQp s' m = getQp s m := by
  refine ⟨writeSqTail n v s, withOperand_of (qpArg_of pair word) _, rfl, ?_, fun m other => ?_⟩
  · rw [writeSqTail, getQp_modQp, if_pos rfl, if_pos on]
  · rw [writeSqTail, getQp_modQp, if_neg other]

theorem exec_cqHeadDoorbell {s : State} {n v : Nat} (pair : n < 64) (word : v < 2 ^ 32) :
    exec (.cqHeadDoorbell n v) s = .next (writeCqHead n v s) := withOperand_of (qpArg_of pair word) _

theorem cqHeadDoorbell_moves {s : State} {n v : Nat} (pair : n < 64) (word : v < 2 ^ 32) (on : (getQp s n).enable = true)
    (reached : v % 2 ^ (getQp s n).cqL ≤ (getQp s n).cqTail) (above : (getQp s n).cqHead ≤ v % 2 ^ (getQp s n).cqL)
    (ring : (getQp s n).cqTail < 2 ^ (getQp s n).cqL) : ∃ s', exec (.cqHeadDoorbell n v) s = .next s' ∧
      (getQp s' n).cqHead = v % 2 ^ (getQp s n).cqL ∧ (getQp s' n).badHead = false := by
  have valid := (headValid_iff above (reached.trans_lt ring) (above.trans reached) ring).2 reached
  have heads : (getQp (writeCqHead n v s) n).heads = (v % 2 ^ (getQp s n).cqL, false) := by
    simp only [writeCqHead, on, Bool.not_true, Bool.false_eq_true, if_false, valid, if_true, heads_flushAll, getQp_setQp]
    rfl
  exact ⟨_, exec_cqHeadDoorbell pair word, congrArg Prod.fst heads, congrArg Prod.snd heads⟩

theorem cqHeadDoorbell_rejects {s : State} {n v : Nat} (pair : n < 64) (word : v < 2 ^ 32) (on : (getQp s n).enable = true)
    (behind : (getQp s n).cqHead ≤ (getQp s n).cqTail) (beyond : (getQp s n).cqTail < v % 2 ^ (getQp s n).cqL) :
    ∃ s', exec (.cqHeadDoorbell n v) s = .next s' ∧ { s' with qps := s.qps } = s ∧ getQp s' n = { getQp s n with badHead := true } := by
  have inside : v % 2 ^ (getQp s n).cqL < 2 ^ (getQp s n).cqL := Nat.mod_lt _ (Nat.two_pow_pos _)
  have invalid : headValid (getQp s n) (v % 2 ^ (getQp s n).cqL) = false := Bool.eq_false_iff.2 fun valid =>
    Nat.not_le.2 beyond ((headValid_iff (behind.trans beyond.le) inside behind (beyond.trans inside)).1 valid)
  have eq : writeCqHead n v s = setQp s n { getQp s n with badHead := true } := by
    simp only [writeCqHead, on, Bool.not_true, Bool.false_eq_true, if_false, invalid]
  exact ⟨_, exec_cqHeadDoorbell pair word, by rw [eq]; rfl, by rw [eq, getQp_setQp, if_pos rfl]⟩

-- enable and disable (R379)

theorem exec_qpEnableWrite {s : State} {n v : Nat} (pair : n < 64) (word : v < 2 ^ 32) :
    exec (.qpEnableWrite n v) s = .next (writeQpEnable n v s) := withOperand_of (qpArg_of pair word) _

theorem ringLog2_eq (x : Nat) : ringLog2 x = max 8 (min 12 x) := by unfold ringLog2; split <;> [skip; split] <;> omega

/-- R379: a queue pair that an enable starts: both rings empty, with the bases and sizes in force. -/
def startedQp (q : QPair) (v : Nat) : QPair :=
  { q with enable := v.testBit 0, sqLog2 := ringLog2 (bits v 11 8), cqLog2 := ringLog2 (bits v 15 12), vector := bits v 21 16,
           st := 1, errCause := 0, sqHead := 0, tail := 0, cqTail := 0, cqHead := 0, sqB := q.sqBase, cqB := q.cqBase,
           sqL := ringLog2 (bits v 11 8), cqL := ringLog2 (bits v 15 12), phase := true, reserved := 0, badHead := false, waiting := [],
           since := 0, ending := false }

theorem writeQpEnable_starts {s : State} {n v : Nat} (set : v.testBit 0 = true) (off : (getQp s n).enable = false)
    (settled : (getQp s n).ending = false) : writeQpEnable n v s = setQp s n (startedQp (getQp s n) v) := by
  simp [writeQpEnable, set, off, settled, startedQp]

theorem qpEnableWrite_starts {s : State} {n v : Nat} (pair : n < 64) (word : v < 2 ^ 32) (set : v % 2 = 1)
    (off : (getQp s n).enable = false) (settled : (getQp s n).ending = false) :
    ∃ s', exec (.qpEnableWrite n v) s = .next s' ∧ { s' with qps := s.qps } = s ∧ (getQp s' n).st = 1 ∧ (getQp s' n).enable = true ∧
      (getQp s' n).sqHead = 0 ∧ (getQp s' n).tail = 0 ∧ (getQp s' n).cqTail = 0 ∧ (getQp s' n).cqHead = 0 ∧ (getQp s' n).phase = true ∧
      (getQp s' n).sqB = (getQp s n).sqBase ∧ (getQp s' n).cqB = (getQp s n).cqBase ∧
      (getQp s' n).sqL = max 8 (min 12 (bits v 11 8)) ∧ (getQp s' n).cqL = max 8 (min 12 (bits v 15 12)) := by
  have bit : v.testBit 0 = true := by simp [set]
  have eq := writeQpEnable_starts bit off settled
  have now : getQp (writeQpEnable n v s) n = startedQp (getQp s n) v := by rw [eq, getQp_setQp, if_pos rfl]
  refine ⟨_, exec_qpEnableWrite pair word, by rw [eq]; rfl, ?_⟩
  rw [now]
  exact ⟨rfl, bit, rfl, rfl, rfl, rfl, rfl, rfl, rfl, ringLog2_eq _, ringLog2_eq _⟩

/-- What a disable of queue pair `n` leaves of a session and its frames. -/
def disabledSess (n : Nat) (x : Sess) : Sess :=
  let keep (f : Frame) : Bool := f.qp != n
  if (x.isOpen || x.closing) && x.qp == n then { pend := x.pend.filter keep, urgent := x.urgent.filter keep }
  else { x with pend := x.pend.filter keep, urgent := x.urgent.filter keep, outq := x.outq.filter (fun e => e.qp != n) }

/-- One session's part of a disable. -/
def qpDropOne (n : Nat) (s : State) (i : Nat) : State :=
  if ((getSess s i).isOpen || (getSess s i).closing) && (getSess s i).qp == n then
    modSess (dropSess s i) i (fun y => { y with pend := (disabledSess n (getSess s i)).pend, urgent := (disabledSess n (getSess s i)).urgent })
  else setSess s i (disabledSess n (getSess s i))

theorem qpDrop_eq (s : State) (n : Nat) : qpDrop s n = (sids s).foldl (qpDropOne n) s := by
  unfold qpDrop
  congr 1
  funext s i
  unfold qpDropOne disabledSess
  extract_lets x keep
  split <;> rfl

theorem getSess_dropSess (s : State) (i k : Nat) : getSess (dropSess s i) k = if k = i then {} else getSess s k := getSess_setSess ..

theorem getSess_qpDropOne (n : Nat) (s : State) (i k : Nat) :
    getSess (qpDropOne n s i) k = if k = i then disabledSess n (getSess s i) else getSess s k := by
  unfold qpDropOne; split
  · rename_i own
    rw [getSess_modSess]
    split
    · rw [getSess_dropSess, if_pos rfl, disabledSess, if_pos own]
    · rename_i other; rw [getSess_dropSess, if_neg other]
  · exact getSess_setSess ..

theorem disabledSess_closed {n : Nat} {x : Sess} (h : x.isOpen = false ∨ x.qp = n) : (disabledSess n x).isOpen = false := by
  unfold disabledSess; extract_lets keep; split
  · rfl
  · rename_i other
    cases open_ : x.isOpen with
    | false => rfl
    | true => simp [open_, h.resolve_left (by simp [open_])] at other

/-- A session of the queue pair that the fold visits ends, and stays ended. -/
theorem isOpen_foldl_qpDropOne {n sid : Nat} (l : List Nat) (s : State) (h : (getSess s sid).isOpen = false ∨
    sid ∈ l ∧ (getSess s sid).qp = n) : (getSess (l.foldl (qpDropOne n) s) sid).isOpen = false := by
  induction l generalizing s with
  | nil => exact h.resolve_right (by simp)
  | cons i l ih =>
    rw [List.foldl_cons]
    apply ih
    rw [getSess_qpDropOne]
    by_cases here : sid = i
    · subst here
      rw [if_pos rfl]
      exact .inl (disabledSess_closed (h.imp_right And.right))
    · rw [if_neg here]
      exact h.imp_right (And.imp_left fun mem => List.mem_of_ne_of_mem here mem)

theorem mem_sids_of_open {s : State} {sid : Nat} (h : (getSess s sid).isOpen = true) : sid ∈ sids s := by
  by_contra absent
  have none : getSess s sid = {} := tabGet_of_not_listed fun p mem here => absent (List.mem_map.2 ⟨p, mem, here⟩)
  rw [none] at h
  cases h

theorem dropSess_qps (s : State) (i : Nat) : (dropSess s i).qps = s.qps := by
  have job (t : State) (n : Nat) : (dropJob t i n).qps = t.qps := rfl
  unfold dropSess; extract_lets x
  rw [setSess_qps, job]
  rfl

theorem qpDropOne_qps (n : Nat) (s : State) (i : Nat) : (qpDropOne n s i).qps = s.qps := by
  unfold qpDropOne; split
  · exact (setSess_qps ..).trans (dropSess_qps s i)
  · exact setSess_qps ..

theorem qpDrop_qps (s : State) (n : Nat) : (qpDrop s n).qps = s.qps := by
  rw [qpDrop_eq]; exact proj_foldl State.qps (qpDropOne_qps n) ..

/-- R379: a queue pair whose disable has begun. -/
def endedQp (q : QPair) (v : Nat) : QPair :=
  { q with enable := v.testBit 0, sqLog2 := ringLog2 (bits v 11 8), cqLog2 := ringLog2 (bits v 15 12), vector := bits v 21 16,
           ending := true, waiting := [], reserved := 0 }

theorem writeQpEnable_ends {s : State} {n v : Nat} (clear : v.testBit 0 = false) (on : (getQp s n).enable = true) :
    writeQpEnable n v s = qpDrop (setQp s n (endedQp (getQp s n) v)) n := by
  simp [writeQpEnable, clear, on, endedQp]

theorem qpEnableWrite_ends {s : State} {n v : Nat} (pair : n < 64) (word : v < 2 ^ 32) (clear : v % 2 = 0)
    (on : (getQp s n).enable = true) : ∃ s', exec (.qpEnableWrite n v) s = .next s' ∧
      (getQp s' n).enable = false ∧ (getQp s' n).ending = true ∧
      ∀ sid, (getSess s sid).isOpen = true → (getSess s sid).qp = n → (getSess s' sid).isOpen = false := by
  have bit : v.testBit 0 = false := by simp [clear]
  have eq := writeQpEnable_ends bit on
  have now : getQp (writeQpEnable n v s) n = endedQp (getQp s n) v := by
    rw [eq, getQp_of_qps (qpDrop_qps ..), getQp_setQp, if_pos rfl]
  refine ⟨_, exec_qpEnableWrite pair word, by rw [now]; exact bit, by rw [now]; rfl, fun sid open_ own => ?_⟩
  rw [eq, qpDrop_eq]
  exact isOpen_foldl_qpDropOne _ _ (.inr ⟨mem_sids_of_open (s := s) open_, own⟩)

theorem qpDisableDone_disables {s : State} {n : Nat} (pair : n < 64) (ending : (getQp s n).ending = true) :
    ∃ s', exec (.qpDisableDone n) s = .next s' ∧ (getQp s' n).st = 0 ∧ (getQp s' n).ending = false := by
  refine ⟨_, (withOperand_of (decide_eq_true pair) _).trans (guard_of ending ..), ?_⟩
  rw [getQp_modQp, if_pos rfl]
  exact ⟨rfl, rfl⟩

-- coalescing and messages (R382)

/-- R382: a queue pair with the coalescing of a word in force. -/
def coalesced (v : Nat) (q : QPair) : QPair :=
  { q with coalCount := if v % 65536 = 0 then 1 else v % 65536, coalUs := v / 65536 % 65536 }

theorem qpCoalWrite_stores {s : State} {n v : Nat} (pair : n < 64) (word : v < 2 ^ 32) :
    ∃ s', exec (.qpCoalWrite n v) s = .next s' ∧ (getQp s' n).coalCount = max 1 (v % 65536) ∧ (getQp s' n).coalUs = v / 65536 := by
  have now : getQp (modQp s n (coalesced v)) n = coalesced v (getQp s n) := (getQp_modQp ..).trans (if_pos rfl)
  have stored : (getQp (writeQpCoal n v s) n).coalCount = (coalesced v (getQp s n)).coalCount ∧
      (getQp (writeQpCoal n v s) n).coalUs = (coalesced v (getQp s n)).coalUs := by
    unfold writeQpCoal; extract_lets t
    have form : t = modQp s n (coalesced v) := rfl
    split
    · rw [getQp_qpMessage, if_pos rfl, form, now]; exact ⟨rfl, rfl⟩
    · rw [form, now]; exact ⟨rfl, rfl⟩
  refine ⟨_, withOperand_of (qpArg_of pair word) _, stored.1.trans ?_, stored.2.trans ?_⟩
  · show (if v % 65536 = 0 then 1 else v % 65536) = _
    split <;> omega
  · exact Nat.mod_eq_of_lt (by omega)

/-- The message of an unmasked vector, where MSI-X is enabled and the part may master the bus. -/
def vectorMessage (s : State) (v : Nat) : OutMsg :=
  .msi ((msixEntry s v).addrLo + 2 ^ 32 * (msixEntry s v).addrHi) (msixEntry s v).data

/-- R382: the function sends messages: MSI-X is enabled and not masked, and the PCIe link carries the part's writes. -/
structure SendsMessages (s : State) : Prop where
  enabled : s.msix.en = true
  unmasked : s.msix.fmask = false
  master : s.msix.busMaster = true
  running : s.tap.scan = false

theorem sendMsix_sends {s : State} {v : Nat} (may : SendsMessages s) (unmasked : (msixEntry s v).masked = false) :
    sendMsix s v = { s with out := s.out ++ [vectorMessage s v] } := by
  obtain ⟨enabled, function, master, running⟩ := may
  simp [sendMsix, enabled, function, master, running, unmasked, vectorMessage]

theorem msixCoalTimeout_sends {s : State} {n : Nat} (pair : n < 64) (waits : (getQp s n).since ≠ 0) (may : SendsMessages s)
    (unmasked : (msixEntry s (getQp s n).vector).masked = false) : ∃ s', exec (.msixCoalTimeout n) s = .next s' ∧
      (getQp s' n).since = 0 ∧ s'.out = s.out ++ [vectorMessage s (getQp s n).vector] := by
  refine ⟨qpMessage s n, (withOperand_of (decide_eq_true pair) _).trans (guard_of (by simp [waits]) ..), ?_, ?_⟩
  · rw [getQp_qpMessage, if_pos rfl]
  · show (sendMsix s (getQp s n).vector).out = _
    rw [sendMsix_sends may unmasked]

/-- A fold in which only one of the entries acts does what that entry does. -/
theorem foldl_of_only {σ : Type} {f : σ → Nat → σ} {s t : σ} {n : Nat} {l : List Nat} (distinct : l.Nodup) (mem : n ∈ l)
    (before : ∀ v, v ≠ n → f s v = s) (acts : f s n = t) (after : ∀ v, v ≠ n → f t v = t) : l.foldl f s = t := by
  have stays (l : List Nat) (u : σ) (absent : n ∉ l) (idle : ∀ v, v ≠ n → f u v = u) : l.foldl f u = u := by
    induction l with
    | nil => rfl
    | cons v l ih =>
      obtain ⟨here, later⟩ := not_or.1 (mt List.mem_cons.2 absent)
      rw [List.foldl_cons, idle v (Ne.symm here), ih later]
  induction l with
  | nil => cases mem
  | cons v l ih =>
    obtain ⟨new, distinct⟩ := List.nodup_cons.1 distinct
    by_cases here : n = v
    · subst here
      rw [List.foldl_cons, acts, stays l t new after]
    · rw [List.foldl_cons, before v (Ne.symm here), ih distinct (List.mem_of_ne_of_mem here mem)]

/-- The part with vector `n` unmasked, and with its pending bit as `pend`. -/
def vectorUnmasked (s : State) (n pend : Nat) : State :=
  { s with msix := { s.msix with table := tabPut s.msix.table n { msixEntry s n with masked := false }, pend := pend } }

theorem msixEntry_vectorUnmasked (s : State) (n pend : Nat) :
    msixEntry (vectorUnmasked s n pend) n = { msixEntry s n with masked := false } := tabGet_tabPut_self ..

theorem msixVectorUnmask_sends {s : State} {n : Nat} (vector : n < 64) (lone : s.msix.pend = 2 ^ n) (may : SendsMessages s) :
    ∃ s', exec (.msixVectorUnmask n) s = .next s' ∧ (msixEntry s' n).masked = false ∧ s'.msix.pend = 0 ∧
      s'.out = s.out ++ [vectorMessage s n] := by
  obtain ⟨enabled, function, master, running⟩ := may
  have entry := msixEntry_vectorUnmasked s n
  have sends : sendMsix (vectorUnmasked s n 0) n = { vectorUnmasked s n 0 with out := s.out ++ [vectorMessage s n] } := by
    rw [sendMsix_sends (s := vectorUnmasked s n 0) ⟨enabled, function, master, running⟩ (by rw [entry]), vectorMessage, entry]
    rfl
  have run : writeVectorMask n false s = { vectorUnmasked s n 0 with out := s.out ++ [vectorMessage s n] } := by
    refine foldl_of_only List.nodup_range (List.mem_range.2 vector) (s := vectorUnmasked s n s.msix.pend) (fun v other => ?_) ?_
      (fun v other => ?_)
    · have clear : (2 ^ n).testBit v = false := by rw [Nat.testBit_two_pow]; exact decide_eq_false other.symm
      simp [vectorUnmasked, lone, clear]
    · have set : (2 ^ n).testBit n = true := Nat.testBit_two_pow_self
      have now := entry s.msix.pend
      rw [if_pos (by simp only [now]; simp [vectorUnmasked, lone, set, enabled, function, master])]
      refine Eq.trans (congrArg (sendMsix · n) ?_) sends
      simp [vectorUnmasked, lone]
    · simp [vectorUnmasked]
  refine ⟨_, withOperand_of (decide_eq_true vector) _, ?_⟩
  rw [run]
  exact ⟨congrArg MsixEntry.masked (entry 0), rfl, rfl⟩

-- fetches (R380, R383 to R386, R390)

/-- R380: an entry waits to be fetched, and its completion has room. -/
structure MayFetch (s : State) (n : Nat) : Prop where
  pair : n < 64
  live : qpLive (getQp s n) = true
  valid : (getQp s n).badHead = false
  waits : (getQp s n).sqHead ≠ (getQp s n).tail
  room : 0 < cqFree (getQp s n)

theorem sqFetch_fails {s : State} {n : Nat} (may : MayFetch s n) : ∃ s', exec (.sqFetch n none) s = .next s' ∧
    (getQp s' n).st = 2 ∧ (getQp s' n).errCause = 1 ∧ (getQp s' n).sqHead = (getQp s n).sqHead := by
  obtain ⟨pair, live, valid, waits, room⟩ := may
  refine ⟨qpError s n 1 ((getQp s n).sqB + 64 * (getQp s n).sqHead), ?_, ?_⟩
  · show execSqFetch n none s = _
    unfold execSqFetch; extract_lets q
    rw [withOperand_of (by simp [pair]), guard_of (by simp [q, live, valid, waits, room])]
  · rw [getQp_qpError, if_pos rfl]
    exact ⟨rfl, rfl, rfl⟩

/-- The part with the entry at SQ_HEAD of queue pair `n` taken and its completion reserved. -/
def fetched (s : State) (n : Nat) : State :=
  { setQp s n { getQp s n with sqHead := ((getQp s n).sqHead + 1) % 2 ^ (getQp s n).sqL, reserved := (getQp s n).reserved + 1 } with
    disp := { s.disp with nextFetch := s.disp.nextFetch + 1 } }

theorem exec_sqFetch {s : State} {n : Nat} {bs : List Byte} (may : MayFetch s n) (whole : bs.length = 64)
    (master : s.msix.busMaster = true) :
    exec (.sqFetch n (some bs)) s = .next (routeFrame (fetched s n) (frameOf n s.disp.nextFetch bs)) := by
  obtain ⟨pair, live, valid, waits, room⟩ := may
  show execSqFetch n (some bs) s = _
  unfold execSqFetch; extract_lets q t no
  rw [withOperand_of (by simp [pair, whole]), guard_of (by simp [q, live, valid, waits, room])]
  simp only [master]
  rfl

/-- R390: an in-order frame of a session that takes frames queues behind those before it. -/
theorem routeFrame_queues {s : State} {f : Frame} (primary : isSecondary s = false) (least : 1 ≤ f.type) (most : f.type ≤ 5)
    (own : (getSess s f.sid).isOpen = true → (getSess s f.sid).qp = f.qp) (live : (getSess s f.sid).closing = false)
    (sound : (getSess s f.sid).faulted = false) (room : (getSess s f.sid).pend.length < 16) :
    routeFrame s f = modSess s f.sid (fun x => { x with pend := x.pend ++ [f] }) := by
  have mine : ((getSess s f.sid).isOpen && (getSess s f.sid).qp != f.qp) = false := by
    cases open_ : (getSess s f.sid).isOpen with
    | false => rfl
    | true => simp [own open_]
  have known : ¬ (f.type = 0 ∨ 8 < f.type) := by omega
  have ordered : ¬ f.type = 8 := by omega
  simp [routeFrame, primary, known, ordered, live, mine, sound, Nat.not_le.2 room, Nat.not_le.2 (show f.type < 6 by omega)]

/-- The TYPE of a submission entry is its byte 2. -/
theorem leNat_byte_two {bs : List Byte} (whole : bs.length = 64) : leNat ((bs.drop 2).take 1) = (bs.getD 2 0).toNat := by
  rw [List.take_one_drop_eq_of_lt_length (by omega : 2 < bs.length), List.getD_eq_getElem _ _ (by omega)]
  rfl

theorem sqFetch_queues {s : State} {n : Nat} (may : MayFetch s n) {bs : List Byte} {sid : Nat} (whole : bs.length = 64)
    (master : s.msix.busMaster = true) (primary : isSecondary s = false) (named : sid = leNat (bs.take 2) % 4096)
    (least : 1 ≤ (bs.getD 2 0).toNat) (most : (bs.getD 2 0).toNat ≤ 5)
    (own : (getSess s sid).isOpen = true → (getSess s sid).qp = n) (live : (getSess s sid).closing = false)
    (sound : (getSess s sid).faulted = false) (room : (getSess s sid).pend.length < 16) :
    ∃ s' f, exec (.sqFetch n (some bs)) s = .next s' ∧ (getQp s' n).sqHead = ((getQp s n).sqHead + 1) % 2 ^ (getQp s n).sqL ∧
      (getQp s' n).reserved = (getQp s n).reserved + 1 ∧ (getSess s' sid).pend = (getSess s sid).pend ++ [f] ∧ f.qp = n ∧
      f.sid = sid ∧ f.type = (bs.getD 2 0).toNat ∧ f.tag = leNat ((bs.drop 4).take 4) ∧ s'.out = s.out := by
  subst named
  rw [← leNat_byte_two whole] at least most ⊢
  refine ⟨_, frameOf n s.disp.nextFetch bs, exec_sqFetch may whole master, ?_⟩
  rw [routeFrame_queues (s := fetched s n) (f := frameOf n s.disp.nextFetch bs) primary least most own live sound room]
  have pair : getQp (fetched s n) n = { getQp s n with
      sqHead := ((getQp s n).sqHead + 1) % 2 ^ (getQp s n).sqL, reserved := (getQp s n).reserved + 1 } :=
    (getQp_setQp ..).trans (if_pos rfl)
  refine ⟨congrArg QPair.sqHead pair, congrArg QPair.reserved pair, ?_, rfl, rfl, rfl, rfl, rfl⟩
  exact congrArg Sess.pend ((getSess_modSess ..).trans (if_pos rfl))

/-- Settles O38, a command at a time: the doorbells, enable and disable, coalescing, the fetch, and the two messages. -/
theorem queuePairsFollowTheirDoorbells : Obligations.QueuePairsFollowTheirDoorbells := by
  unfold Obligations.QueuePairsFollowTheirDoorbells
  intro s n pair
  refine ⟨fun v => sqTailDoorbell_stores pair, fun v => cqHeadDoorbell_moves pair, fun v => cqHeadDoorbell_rejects pair,
    fun v => qpEnableWrite_starts pair, fun v => qpEnableWrite_ends pair, qpDisableDone_disables pair, fun v => qpCoalWrite_stores pair,
    fun live valid waits room => ?_, fun waits en fmask master running unmasked => ?_, fun lone en fmask master running => ?_⟩
  · have may : MayFetch s n := ⟨pair, live, valid, waits, room⟩
    exact ⟨sqFetch_fails may, fun bs sid => sqFetch_queues may⟩
  · exact msixCoalTimeout_sends pair waits ⟨en, fmask, master, running⟩ unmasked
  · exact msixVectorUnmask_sends pair lone ⟨en, fmask, master, running⟩

end Sys2Proof.Machine

/-! PROOFS. Station resets seen from the hub (R186, R410, R562): what they leave of the registers and of all that is not a station's,
and the units that a station hosts. -/

namespace Sys2Proof.Machine

-- hosts (R574)

/-- The dies' station masks, and so the hosts of the work units, are the same. -/
def SameMap (s t : State) : Prop := t.part = s.part ∧ ∀ d, d < 4 → reg t (Reg.mapDieEn + d) = reg s (Reg.mapDieEn + d)

theorem SameMap.dies {s t : State} (same : SameMap s t) : dies t = dies s := by rw [Machine.dies, isT2, same.1]; rfl

theorem dies_le (s : State) : dies s ≤ 4 := by unfold dies; split <;> omega

theorem SameMap.dieCount {s t : State} (same : SameMap s t) {d : Nat} (known : d < 4) : dieCount t d = dieCount s d :=
  congrArg (popc 32) (same.2 d known)

theorem SameMap.dieFirst {s t : State} (same : SameMap s t) {d : Nat} (known : d ≤ 4) : dieFirst t d = dieFirst s d := by
  induction d with
  | zero => rfl
  | succ d ih => rw [Machine.dieFirst, Machine.dieFirst, ih (by omega), same.dieCount (by omega)]

theorem SameMap.hostOf {s t : State} (same : SameMap s t) (w : Nat) : hostOf t w = hostOf s w := by
  unfold Machine.hostOf
  simp only [same.dies]
  by_cases inside : w / 32 < Machine.dies s
  · have known := inside.trans_le (dies_le s)
    rw [same.dieCount known, same.dieFirst known.le]
  · simp only [inside, false_and, if_false]

theorem SameMap.unitsOf {s t : State} (same : SameMap s t) (ls : Nat) : unitsOf t ls = unitsOf s ls := by
  unfold Machine.unitsOf
  simp only [same.dies, same.hostOf]

theorem SameMap.liveUnits {s t : State} (same : SameMap s t) : liveUnits t = liveUnits s := by
  unfold Machine.liveUnits
  simp only [same.dies, same.hostOf]

-- the quiesce (R186, R187)

/-- What a station reset does not reach: the registers, the Dispatcher, the sessions, the queue pairs, MSI-X, the pins, the TAP, the
links and the image. -/
def State.hub (s : State) :
    Tab Word × Disp × Tab Sess × Tab QPair × Msix × Pins × Tap × (Nat × Tab ExtLink × Bool × Bool × Bool) × Loader × TextE :=
  (s.regs, s.disp, s.sess, s.qps, s.msix, s.pins, s.tap, s.links, s.ldr, s.text)

theorem sipCredit_hub (s : State) (q : Sip) : (sipCredit s q).hub = s.hub := by
  unfold sipCredit; split
  · rfl
  · split
    · simp only; split <;> rfl
    · rfl

theorem sipOrphan_hub (s : State) (q : Sip) : (sipOrphan s q).hub = s.hub := by
  unfold sipOrphan; split
  · rfl
  · split <;> rfl

theorem creditBack_hub (s : State) (n : Nat) : (creditBack s n).hub = s.hub := rfl

theorem creditSpans_hub (s : State) (u ch : Nat) (a : Active) : (creditSpans s u ch a).hub = s.hub := by
  unfold creditSpans; exact creditBack_hub ..

theorem quiesceLeave_hub (s : State) (u : Nat) : (quiesceLeave s u).hub = s.hub := by
  unfold quiesceLeave
  rw [creditBack_hub]
  refine (proj_foldl State.hub (fun s c => ?_) _ _).trans (proj_foldl State.hub (fun s p => ?_) _ _)
  · rw [sipOrphan_hub, sipCredit_hub, creditBack_hub]
  · split
    · rw [sipCredit_hub, creditSpans_hub]
    · rfl

theorem havocWindow_hub (s : State) (u : Nat) (c : ChainRec) : (havocWindow s u c).hub = s.hub := rfl

theorem quiesceUnit_hub (s : State) (u : Nat) : (quiesceUnit s u).hub = s.hub := by
  have form : (quiesceUnit s u).hub = (chainsEnded s u).hub := rfl
  rw [form, chainsEnded, proj_foldl State.hub (fun s c => havocWindow_hub s u c), quiesceLeave_hub]

theorem beginReset_hub (s : State) (ls : Nat) : (beginReset s ls).hub = (voidChal s).hub :=
  proj_foldl State.hub quiesceUnit_hub ..

/-- The hub's state but for its registers. -/
def State.hubOnly (s : State) :
    Disp × Tab Sess × Tab QPair × Msix × Pins × Tap × (Nat × Tab ExtLink × Bool × Bool × Bool) × Loader × TextE := s.hub.2

theorem voidChal_hubOnly (s : State) : (voidChal s).hubOnly = s.hubOnly := by unfold voidChal; split <;> rfl

theorem beginReset_hubOnly (s : State) (ls : Nat) : (beginReset s ls).hubOnly = s.hubOnly :=
  (congrArg Prod.snd (beginReset_hub s ls)).trans (voidChal_hubOnly s)

theorem resetAll_hubOnly (s : State) : (resetAll s).hubOnly = s.hubOnly := by
  refine proj_foldl State.hubOnly (fun s ls => ?_) _ _
  split
  · rfl
  · exact beginReset_hubOnly s ls

theorem reg_voidChal {a : Nat} (h : a ≠ Reg.dbgStatus) (s : State) : reg (voidChal s) a = reg s a := by
  unfold voidChal; split
  · rw [setField, reg_setReg_ne h]; rfl
  · rfl

/-- Of the registers a station reset writes DBG_STATUS only. -/
theorem reg_beginReset {a : Nat} (h : a ≠ Reg.dbgStatus) (s : State) (ls : Nat) : reg (beginReset s ls) a = reg s a :=
  (reg_of_regs (congrArg Prod.fst (beginReset_hub s ls)) a).trans (reg_voidChal h s)

theorem reg_resetAll {a : Nat} (h : a ≠ Reg.dbgStatus) (s : State) : reg (resetAll s) a = reg s a := by
  refine proj_foldl (reg · a) (fun s ls => ?_) _ _
  split
  · rfl
  · exact reg_beginReset h s ls

end Sys2Proof.Machine

/-! PROOFS. Resets of the function and of the part (R377, R558, R561 to R564, R571, R572, R600): with no session, no queue pair and
MSI-X disabled, nothing that a reset does brings one back. -/

namespace Sys2Proof.Machine

-- the host's side after a reset (R377)

/-- What a function level reset empties, and the Dispatcher's priming. -/
def State.served (s : State) : Tab Sess × Tab QPair × Msix × Option StepRec × Prime :=
  (s.sess, s.qps, s.msix, s.disp.step, s.disp.prime)

/-- No session, no queue pair, MSI-X as after a cold reset, no model step, and priming at `p`. -/
def Vacant (p : Prime) (s : State) : Prop := s.served = ([], [], {}, none, p)

theorem vacant_iff {p : Prime} {s : State} :
    Vacant p s ↔ s.sess = [] ∧ s.qps = [] ∧ s.msix = {} ∧ s.disp.step = none ∧ s.disp.prime = p := by
  simp only [Vacant, State.served, Prod.ext_iff]

theorem Vacant.of_served {p : Prime} {s t : State} (h : Vacant p s) (same : t.served = s.served) : Vacant p t := same.trans h

theorem served_of_hubOnly {s t : State} (h : t.hubOnly = s.hubOnly) : t.served = s.served :=
  congrArg (fun q : Disp × Tab Sess × Tab QPair × Msix × Pins × Tap × (Nat × Tab ExtLink × Bool × Bool × Bool) × Loader × TextE =>
    (q.2.1, q.2.2.1, q.2.2.2.1, q.1.step, q.1.prime)) h

/-- With MSI-X disabled no vector is even pending. -/
theorem Vacant.sendMsix {p : Prime} {s : State} (h : Vacant p s) (v : Nat) : sendMsix s v = s := by
  obtain ⟨-, -, msix, -, -⟩ := vacant_iff.1 h
  simp [Machine.sendMsix, msix]

theorem Vacant.setEvt {p : Prime} {s : State} (h : Vacant p s) (b : Nat) : Vacant p (setEvt s b) := by
  have stored : Vacant p (setReg s Reg.evtStatus (reg s Reg.evtStatus ||| 2 ^ b)) := h.of_served rfl
  unfold Machine.setEvt evtRise; simp only []; split
  · rw [stored.sendMsix]; exact stored
  · exact stored

theorem Vacant.floatEnd {p : Prime} {s : State} (h : Vacant p s) (n : Nat) (ok : Bool) (res : Nat) : Vacant p (floatEnd s n ok res) := by
  unfold Machine.floatEnd; simp only []; split
  · exact h
  · refine Vacant.setEvt ?_ 9
    exact h.of_served rfl

theorem Vacant.floatStart {p : Prime} {s : State} (h : Vacant p s) (n op fin : Nat) : Vacant p (floatStart s n op fin) := by
  unfold Machine.floatStart; simp only []; split
  · exact (h.floatEnd n false 0xFE).of_served rfl
  · exact h.of_served rfl

theorem retarget_served (s : State) : (retarget s).served = s.served := by unfold retarget; split <;> rfl

theorem voidChal_served (s : State) : (voidChal s).served = s.served := served_of_hubOnly (voidChal_hubOnly s)

theorem resetAll_served (s : State) : (resetAll s).served = s.served := served_of_hubOnly (resetAll_hubOnly s)

theorem resetWords_served (s : State) (ranges : List (Nat × Nat)) (keep : List Nat) : (resetWords s ranges keep).served = s.served := by
  unfold resetWords
  exact (proj_foldl State.served (f := fun t (q : Nat × Word) => setReg t q.1 q.2.toNat) (fun _ _ => rfl) _ _).trans
    (proj_foldl State.served (f := fun t a => setReg t a 0) (fun _ _ => rfl) _ _)

theorem tapEndScan_served (s : State) : (tapEndScan s).served = s.served := by unfold tapEndScan; split <;> rfl

theorem debugReset_served (s : State) : (debugReset s).served = s.served := tapEndScan_served s

theorem Vacant.restartZero {p : Prime} {s : State} (h : Vacant p s) : Vacant p (restartZero s) := by
  unfold Machine.restartZero; split
  · exact h
  · refine Vacant.floatEnd ?_ 4 false 0xFD
    exact h.of_served rfl

theorem hostReset_vacant (s : State) : ∃ p, Vacant p (hostReset s) := ⟨_, rfl⟩

/-- R562: the stations' reset and the priming that follows it leave the host's side empty. -/
theorem Vacant.stationsReset {p : Prime} {s : State} (h : Vacant p s) : ∃ q, Vacant q (stationsReset s) := by
  unfold Machine.stationsReset; extract_lets t u
  have ended : Vacant p t := by
    show Vacant p (if s.disp.prime = .none then s else Machine.floatEnd s 3 false 0xFD)
    split
    · exact h
    · exact h.floatEnd 3 false 0xFD
  obtain ⟨sess, qps, msix, step, -⟩ := vacant_iff.1 ended
  have settled (q : Prime) : Vacant q { t with disp := { t.disp with prime := q, primeFails := 0 } } :=
    vacant_iff.2 ⟨sess, qps, msix, step, rfl⟩
  split
  · exact ⟨.none, (settled .none).of_served rfl⟩
  · split
    · exact ⟨.due .reset, (settled (.due .reset)).of_served ((retarget_served _).trans (resetAll_served _))⟩
    · exact ⟨.none, (settled .none).of_served ((retarget_served _).trans (resetAll_served _))⟩

-- the function level reset and the warm reset (R564, R572)

/-- The registers that the stations' reset can write. -/
theorem reg_stationsReset {a : Nat} (event : a ≠ Reg.evtStatus) (debug : a ≠ Reg.dbgStatus) (s : State) :
    reg (stationsReset s) a = reg s a := by
  unfold stationsReset; extract_lets t u
  have ended : reg t a = reg s a := by
    show reg (if s.disp.prime = .none then s else floatEnd s 3 false 0xFD) a = _
    split
    · rfl
    · exact reg_floatEnd_ne event ..
  have retargeted (v : State) : reg (retarget v) a = reg v a := by unfold retarget; split <;> rfl
  split
  · exact ended
  · rw [retargeted, reg_resetAll debug]
    split <;> exact ended

/-- Writing zeros to a bit of a register clears it. -/
theorem regBit_setField_zero (s : State) (a n : Nat) : regBit (setField s a n n 0) a n = false := by
  rw [regBit, setField, reg_setReg, if_pos rfl]
  have word := reg_lt s a
  generalize reg s a = x at word
  rw [Nat.zero_mod, zero_mul, add_zero, Nat.mod_eq_of_lt ((Nat.sub_le ..).trans_lt word), Nat.add_sub_cancel_left, pow_one,
    Nat.testBit_eq_decide_div_mod_eq, Nat.shiftRight_eq_div_pow]
  have whole := Nat.div_add_mod x (2 ^ n)
  have pos := Nat.two_pow_pos n
  have half := Nat.div_add_mod (x / 2 ^ n) 2
  have low := Nat.mod_lt x pos
  generalize x / 2 ^ n % 2 = b at half ⊢
  have split_ : x - b * 2 ^ n = 2 ^ n * (2 * (x / 2 ^ n / 2)) + x % 2 ^ n := by
    have : 2 ^ n * (x / 2 ^ n) = 2 ^ n * (2 * (x / 2 ^ n / 2)) + b * 2 ^ n := by
      rw [Nat.mul_comm b, ← Nat.mul_add, half]
    omega
  rw [split_, Nat.mul_add_div pos, Nat.div_eq_of_lt low]
  simp

theorem flr_empties {s : State} (up : regBit s Reg.hostLink 12 = true) (powered : s.gov.ps ≠ .p4) : ∃ s', exec .flr s = .next s' ∧
    s'.sess = [] ∧ s'.qps = [] ∧ s'.msix = {} ∧ s'.disp.step = none ∧ s'.fuses = s.fuses ∧ regBit s' Reg.hostLink 13 = false := by
  have ran : exec .flr s = .next (voidChal (stationsReset (hostReset s))) := guard_of (by simp [up, powered]) ..
  obtain ⟨p, reset⟩ := hostReset_vacant s
  obtain ⟨q, restarted⟩ := reset.stationsReset
  obtain ⟨sess, qps, msix, step, -⟩ := vacant_iff.1 (restarted.of_served (voidChal_served _))
  have fuses : (voidChal (stationsReset (hostReset s))).silicon = s.silicon := by simp
  refine ⟨_, ran, sess, qps, msix, step, (silicon_eq_iff.1 fuses).2, ?_⟩
  rw [regBit, reg_voidChal (by decide), reg_stationsReset (by decide) (by decide)]
  exact regBit_setField_zero ..

/-- What a warm reset sets itself: the pins, the scan state of the TAP, and HOST_LINK. -/
def State.front (s : State) : Pins × Bool × Nat := (s.pins, s.tap.scan, reg s Reg.hostLink)

theorem setReg_front {a : Nat} (h : Reg.hostLink ≠ a) (s : State) (v : Nat) : (setReg s a v).front = s.front := by
  show (s.pins, s.tap.scan, reg (setReg s a v) Reg.hostLink) = _
  rw [reg_setReg_ne h]; rfl

theorem front_of_float {s t : State} (h : FloatFrame s t) (link : reg t Reg.hostLink = reg s Reg.hostLink) : t.front = s.front := by
  unfold FloatFrame at h
  have pins := congrArg State.pins h
  have tap := congrArg State.tap h
  simp only at pins tap
  rw [State.front, pins, tap, link]; rfl

theorem setEvt_front (s : State) (b : Nat) : (setEvt s b).front = s.front :=
  front_of_float (floatFrame_setEvt s b) (reg_setEvt_ne (by decide) ..)

theorem floatEnd_front (s : State) (n : Nat) (ok : Bool) (res : Nat) : (floatEnd s n ok res).front = s.front :=
  front_of_float (floatFrame_floatEnd s n ok res) (reg_floatEnd_ne (by decide) ..)

theorem floatStart_front (s : State) (n op fin : Nat) : (floatStart s n op fin).front = s.front :=
  front_of_float (floatFrame_floatStart s n op fin) (reg_floatStart_ne (by decide) ..)

theorem pushRec_front (s : State) (r : RecIn) : (pushRec s r).front = s.front := by
  unfold pushRec; split
  · exact setReg_front (by decide) ..
  · rfl

theorem clearDies_front (s : State) (ds : List Nat) : (clearDies s ds).front = s.front :=
  proj_foldl State.front (fun s d => by unfold wellClear rbForget; simp only []; split <;> rfl) ds s

theorem removeDies_front (s : State) (ds : List Nat) : (removeDies s ds).front = s.front := by
  have spent (t : State) (n : Nat) : (hubSpend t n).front = t.front := by unfold hubSpend; simp only []; split <;> rfl
  have parked (t : State) : (parkAll (clearText t)).front = t.front := rfl
  unfold removeDies; extract_lets n own t u disp ldr sec v w
  have begun : t.front = s.front := by
    show (if own then s else floatStart s 4 6 n).front = _
    split
    · rfl
    · exact floatStart_front ..
  clear_value t
  have cleared : u.front = s.front := by
    show (parkAll (clearText (hubSpend (clearDies t ds) (ds.length * wellGeneral)))).front = _
    rw [parked, spent, clearDies_front, begun]
  clear_value u
  have removed : w.front = s.front := (setReg_front (by decide) v 0).trans cleared
  split
  · exact removed
  · exact (floatEnd_front ..).trans removed

theorem refuseImage_front (s : State) (reason idx : Nat) (id : List Byte) (wrote : List Nat) :
    (refuseImage s reason idx id wrote).front = s.front := by
  have told (t : State) : (tellPeer t).front = t.front := by unfold tellPeer; simp only []; split <;> rfl
  have status (t : State) (v : Nat) : (setImgStatus t v).front = t.front := by
    unfold setImgStatus; simp only []; split
    · exact setReg_front (by decide) ..
    · exact (setEvt_front ..).trans (setReg_front (by decide) ..)
  unfold refuseImage; extract_lets t u v
  have ended : u.front = t.front := by
    show (if (getFloat t 3).op = 4 then floatEnd t 3 false reason else t).front = _
    split
    · exact floatEnd_front ..
    · rfl
  rw [told, pushRec_front, status, ended, removeDies_front]

theorem endLoad_front (s : State) : (endLoad s).front = s.front := by
  unfold endLoad; simp only []; split
  · rw [refuseImage_front, floatEnd_front]
  · rfl

/-- The part with its sessions gone and its model step aborted, before the configuration space and HOST_LINK. -/
def sessionsGone (s : State) : State :=
  let s := (sids s).foldl dropSess (endLoad s)
  abortChains { s with disp := { s.disp with step := none } }

theorem hostReset_eq (s : State) :
    hostReset s = setField { sessionsGone s with qps := [], msix := {}, sess := [] } Reg.hostLink 13 13 0 := rfl

theorem dropSess_front (s : State) (sid : Nat) : (dropSess s sid).front = s.front := by
  have stored (t : State) (x : Sess) : (setSess t sid x).front = t.front := rfl
  have job (t : State) (n : Nat) : (dropJob t sid n).front = t.front := rfl
  unfold dropSess; extract_lets x
  rw [stored, job]
  rfl

theorem sessionsGone_front (s : State) : (sessionsGone s).front = s.front := by
  have aborted (t : State) : (abortChains { t with disp := { t.disp with step := none } }).front = t.front := rfl
  unfold sessionsGone; extract_lets t disp
  rw [aborted]
  exact (proj_foldl State.front dropSess_front (sids s) (endLoad s)).trans (endLoad_front s)

theorem front_eq_iff {s t : State} :
    t.front = s.front ↔ t.pins = s.pins ∧ t.tap.scan = s.tap.scan ∧ reg t Reg.hostLink = reg s Reg.hostLink := by
  simp only [State.front, Prod.ext_iff]

/-- HOST_LINK at 0 stays 0 where its FLR bit is cleared. -/
theorem hostReset_front {s : State} (down : reg s Reg.hostLink = 0) : (hostReset s).front = s.front := by
  obtain ⟨pins, scan, link⟩ := front_eq_iff.1 (sessionsGone_front s)
  refine front_eq_iff.2 ⟨pins, scan, ?_⟩
  rw [hostReset_eq, setField, reg_setReg, if_pos rfl]
  have zero : reg { sessionsGone s with qps := [], msix := {}, sess := [] } Reg.hostLink = 0 := link.trans down
  rw [zero, down]; rfl

theorem resetAll_front (s : State) : (resetAll s).front = s.front := by
  have same := resetAll_hubOnly s
  have pins : (resetAll s).pins = s.pins := congrArg (·.2.2.2.2.1) same
  have tap : (resetAll s).tap = s.tap := congrArg (·.2.2.2.2.2.1) same
  exact front_eq_iff.2 ⟨pins, by rw [tap], reg_resetAll (by decide) s⟩

theorem retarget_front (s : State) : (retarget s).front = s.front := by unfold retarget; split <;> rfl

theorem stationsReset_front (s : State) : (stationsReset s).front = s.front := by
  unfold stationsReset; extract_lets t u
  have ended : t.front = s.front := by
    show (if s.disp.prime = .none then s else floatEnd s 3 false 0xFD).front = _
    split
    · rfl
    · exact floatEnd_front ..
  split
  · exact ended
  · rw [retarget_front, resetAll_front]
    split <;> exact ended

-- the words that a reset returns to their reset values (R563)

/-- A word that the ranges do not cover, or that is kept, is as it was. -/
theorem reg_resetWords_kept {ranges : List (Nat × Nat)} {keep : List Nat} {a : Nat}
    (kept : (ranges.any (fun r => decide (r.1 ≤ a ∧ a ≤ r.2)) && !keep.contains a) = false) (s : State) :
    reg (resetWords s ranges keep) a = reg s a := by
  have untouched {α : Type} (l : List α) (key val : α → Nat) (t : State) (absent : ∀ q ∈ l, a ≠ key q) :
      reg (l.foldl (fun t q => setReg t (key q) (val q)) t) a = reg t a := by
    induction l generalizing t with
    | nil => rfl
    | cons q l ih =>
      rw [List.foldl_cons, ih _ fun p mem => absent p (List.mem_cons_of_mem _ mem), reg_setReg_ne (absent q List.mem_cons_self)]
  have other {b : Nat} (covered : (ranges.any (fun r => decide (r.1 ≤ b ∧ b ≤ r.2)) && !keep.contains b) = true) : a ≠ b := by
    rintro rfl; rw [kept] at covered; cases covered
  unfold resetWords; extract_lets covered t
  exact (untouched _ Prod.fst (fun q : Nat × Word => q.2.toNat) t fun q mem => other (List.mem_filter.1 mem).2).trans
    (untouched _ id (fun _ => 0) s fun b mem => other (List.mem_filter.1 mem).2)

/-- The words of chapter 12 that a warm reset returns to a value other than 0. -/
theorem coldRegs_warm : (coldRegs []).filter (fun p => ([(0x100, 0x17F), (0x2C0, 0x2FF)] : List (Nat × Nat)).any
    (fun r => decide (r.1 ≤ p.1 ∧ p.1 ≤ r.2)) && !stateWords.contains p.1) = [(0x140, 1), (0x147, 200)] := by decide

theorem reg_dispCtl_resetWords (s : State) : reg (resetWords s [(0x100, 0x17F), (0x2C0, 0x2FF)] stateWords) Reg.dispCtl = 1 := by
  unfold resetWords; extract_lets covered t
  rw [show (coldRegs []).filter (fun p => covered p.1) = _ from coldRegs_warm]
  rw [List.foldl_cons, List.foldl_cons, List.foldl_nil, reg_setReg_ne (by decide)]
  exact reg_setReg_self (a := Reg.dispCtl) (v := 1) (by decide) t

theorem resetWords_front (s : State) : (resetWords s [(0x100, 0x17F), (0x2C0, 0x2FF)] stateWords).front = s.front := by
  have frame := reportFrame_resetWords s [(0x100, 0x17F), (0x2C0, 0x2FF)] stateWords
  unfold ReportFrame at frame
  have pins := congrArg State.pins frame
  have tap := congrArg State.tap frame
  simp only at pins tap
  exact front_eq_iff.2 ⟨pins, by rw [tap], reg_resetWords_kept (by decide) s⟩

theorem debugReset_front (s : State) : (debugReset s).front = s.front := by unfold debugReset tapEndScan; split <;> rfl

theorem reg_debugReset (s : State) (a : Nat) : reg (debugReset s) a = reg s a := by unfold debugReset tapEndScan; split <;> rfl

theorem restartZero_front (s : State) : (restartZero s).front = s.front := by
  unfold restartZero; split
  · rfl
  · exact floatEnd_front ..

theorem reg_restartZero {a : Nat} (h : a ≠ Reg.evtStatus) (s : State) : reg (restartZero s) a = reg s a := by
  unfold restartZero; split
  · rfl
  · exact reg_floatEnd_ne h ..

/-- The part with its host link down and the scan state ended, from which a warm reset goes on. -/
def linkDropped (s : State) : State := setReg { s with tap := { s.tap with scan := false } } Reg.hostLink 0

/-- The part with the windows of the Control Port and BAR0 at their reset values. -/
def winsCleared (s : State) : State := { s with wins := [] }

theorem winsCleared_front (s : State) : (winsCleared s).front = s.front := rfl
theorem winsCleared_served (s : State) : (winsCleared s).served = s.served := rfl
theorem reg_winsCleared (s : State) (a : Nat) : reg (winsCleared s) a = reg s a := rfl

theorem warmReset_eq (s : State) : warmReset s = restartZero (debugReset (winsCleared
    (resetWords (stationsReset (hostReset (linkDropped s))) [(0x100, 0x17F), (0x2C0, 0x2FF)] stateWords))) := rfl

theorem warmReset_empties {s : State} (powered : s.pins.pwrOk = true) (ready : s.boot.mapReady = true) (on : s.gov.ps ≠ .p4) :
    ∃ s', exec .warmReset s = .next s' ∧ s'.sess = [] ∧ s'.qps = [] ∧ s'.pins.perstLow = true ∧ reg s' Reg.hostLink = 0 ∧
      reg s' Reg.dispCtl = 1 ∧ s'.fuses = s.fuses ∧ s'.tap.scan = false := by
  have ran : exec .warmReset s = .next (warmReset { s with pins := { s.pins with perstLow := true } }) := by
    show execWarmReset s = _
    simp [execWarmReset, powered, ready, on]
  have fuses : (warmReset { s with pins := { s.pins with perstLow := true } }).silicon = s.silicon := by simp
  refine ⟨_, ran, ?_⟩
  generalize low : { s with pins := { s.pins with perstLow := true } } = t at fuses
  have perst : t.pins.perstLow = true := by rw [← low]
  obtain ⟨p, reset⟩ := hostReset_vacant (linkDropped t)
  obtain ⟨q, restarted⟩ := reset.stationsReset
  have vacant : Vacant q (warmReset t) := by
    rw [warmReset_eq]
    refine (restarted.of_served ?_).restartZero
    rw [debugReset_served, winsCleared_served, resetWords_served]
  obtain ⟨sess, qps, -, -, -⟩ := vacant_iff.1 vacant
  have down : reg (linkDropped t) Reg.hostLink = 0 := reg_setReg_self (by decide) ..
  have front : (warmReset t).front = (linkDropped t).front := by
    rw [warmReset_eq, restartZero_front, debugReset_front, winsCleared_front, resetWords_front, stationsReset_front,
      hostReset_front down]
  obtain ⟨pins, scan, link⟩ := front_eq_iff.1 front
  have ctl : reg (warmReset t) Reg.dispCtl = 1 := by
    rw [warmReset_eq, reg_restartZero (by decide), reg_debugReset, reg_winsCleared, reg_dispCtl_resetWords]
  exact ⟨sess, qps, by rw [pins]; exact perst, link.trans down, ctl, (silicon_eq_iff.1 fuses).2, scan⟩

-- the control reset (R544, R562, R571)

theorem clearDies_served (s : State) (ds : List Nat) : (clearDies s ds).served = s.served :=
  proj_foldl State.served (fun s d => by unfold wellClear rbForget; simp only []; split <;> rfl) ds s

theorem hubSpend_served (s : State) (n : Nat) : (hubSpend s n).served = s.served := by
  unfold hubSpend; simp only []; split <;> rfl

/-- Without sessions, the removal of the image leaves none, and no priming. -/
theorem Vacant.removeDies {p : Prime} {s : State} (h : Vacant p s) (ds : List Nat) : Vacant .none (removeDies s ds) := by
  have parked (t : State) : (parkAll (clearText t)).served = t.served := rfl
  unfold Machine.removeDies; extract_lets n own t u disp ldr sec v w
  have begun : Vacant p t := by
    show Vacant p (if own then s else Machine.floatStart s 4 6 n)
    split
    · exact h
    · exact h.floatStart 4 6 n
  clear_value t
  have cleared : Vacant p u := by
    refine begun.of_served ?_
    show (parkAll (clearText (hubSpend (clearDies t ds) (ds.length * wellGeneral)))).served = _
    rw [parked, hubSpend_served, clearDies_served]
  clear_value u
  obtain ⟨sess, qps, msix, step, -⟩ := vacant_iff.1 cleared
  have removed : Vacant .none w := vacant_iff.2 ⟨sess, qps, msix, step, rfl⟩
  split
  · exact removed
  · exact removed.floatEnd 4 true 0

theorem Vacant.setImgStatus {p : Prime} {s : State} (h : Vacant p s) (v : Nat) : Vacant p (setImgStatus s v) := by
  unfold Machine.setImgStatus; extract_lets old t
  have stored : Vacant p t := h.of_served rfl
  split
  · exact stored
  · exact stored.setEvt 11

/-- Without sessions, the end of a pairing faults none. -/
theorem Vacant.unpair {p : Prime} {s : State} (h : Vacant p s) : Vacant p (unpair s) := by
  obtain ⟨sess, -, -, -, -⟩ := vacant_iff.1 h
  have faulted : (faultAll (noteFault s)).served = s.served := by
    rw [faultAll, show sids (noteFault s) = [] from congrArg (List.map Prod.fst) sess]
    rfl
  have ended (t : State) (l : List Nat) (f : Sip → Bool) : (l.foldl (fun s u => endSips u 5 f s) t).served = t.served :=
    proj_foldl State.served (f := fun s u => endSips u 5 f s) (fun _ _ => rfl) l t
  unfold Machine.unpair; extract_lets t u
  refine h.of_served ((ended t _ _).trans ?_)
  show (if s.paired then faultAll (noteFault s) else s).served = _
  split
  · exact faulted
  · rfl

theorem putExt_served (s : State) (l : Nat) (e : ExtLink) : (putExt s l e).served = s.served := rfl
theorem clearCredits_served (s : State) (l : Nat) : (clearCredits s l).served = s.served := rfl
theorem clearLink_served (s : State) (l : Nat) : (clearLink s l).served = s.served := rfl
theorem failUnit_served (s : State) (l u : Nat) : (failUnit s l u).served = s.served := rfl

theorem extDisable_served (s : State) (l : Nat) : (extDisable s l).served = s.served := by
  unfold extDisable; extract_lets t
  rw [putExt_served, clearLink_served, clearCredits_served, apply_ite State.served,
    proj_foldl State.served (fun s u => failUnit_served s (8 + l) u), ite_self]

theorem Vacant.ctrlScrub {s : State} (h : Vacant .none s) : Vacant .none (ctrlScrub s) := by
  refine Vacant.floatEnd (Vacant.floatEnd ?_ 6 false 0xFD) 7 false 0xFD
  exact h.of_served rfl

/-- A control reset's last steps leave the host's side empty. -/
theorem Vacant.ctrlFinish {s : State} (h : Vacant .none s) : Vacant .none (ctrlFinish s) := by
  unfold Machine.ctrlFinish
  extract_lets t u v w x again y gov window scrubbed ldr boot z
  have unloaded : Vacant .none t := by
    show Vacant .none (if imgState s = 3 then removeImage s else s)
    split
    · exact h.removeDies _
    · exact h
  clear_value t
  have status : Vacant .none u := (unloaded.setImgStatus 0).of_served rfl
  clear_value u
  have trained : Vacant .none v := by
    show Vacant .none (if (getFloat u 5).st = 1 then Machine.floatEnd { u with trainLinks := 0 } 5 false 0xFD else u)
    split
    · refine Vacant.floatEnd ?_ 5 false 0xFD
      exact status.of_served rfl
    · exact status
  clear_value v
  have alone : Vacant .none w := by
    show Vacant .none (Machine.unpair (extDisable (extDisable v 0) 1))
    refine Vacant.unpair (trained.of_served ?_)
    rw [extDisable_served, extDisable_served]
  clear_value w
  have unlinked : Vacant .none x :=
    alone.of_served (proj_foldl State.served clearLink_served (dieLinks w) { w with dieUp := 0 })
  clear_value x
  have words : Vacant .none y := unlinked.of_served (resetWords_served ..)
  clear_value y
  have scrub : Vacant .none scrubbed := words.ctrlScrub
  clear_value scrubbed
  have restarted : Vacant .none z := scrub.of_served (debugReset_served _)
  clear_value z
  refine Vacant.restartZero ?_
  exact restarted.of_served rfl

/-- A control reset whose request is granted runs, and ends at once where no station has to be reset. -/
def ctrlRun (s : State) : State :=
  let s := if s.disp.prime = .none then s else floatEnd s 3 false 0xFD
  let s := hostReset { s with boot := { s.boot with ctrlRun := true } }
  let s := { s with disp := { s.disp with prime := .none, primeFails := 0 } }
  let s := if s.gov.ps = .p3 then s else resetAll s
  if anyReset s then s else ctrlFinish s

theorem ctrlRun_vacant (s : State) : Vacant .none (ctrlRun s) := by
  unfold ctrlRun; extract_lets t boot u disp v w
  obtain ⟨p, reset⟩ : ∃ p, Vacant p u := hostReset_vacant _
  obtain ⟨sess, qps, msix, step, -⟩ := vacant_iff.1 reset
  have settled : Vacant .none v := vacant_iff.2 ⟨sess, qps, msix, step, rfl⟩
  have quiesced : Vacant .none w := by
    show Vacant .none (if v.gov.ps = .p3 then v else resetAll v)
    split
    · exact settled
    · exact settled.of_served (resetAll_served v)
  split
  · exact quiesced
  · exact quiesced.ctrlFinish

theorem ctrlReset_runs {s : State} (ready : stage s = 7) (free : s.boot.ctrlRun = false) (on : s.gov.ps ≠ .p4)
    (settled : s.sec.lcTo = none) : ctrlReset s = ctrlRun s := by
  have granted : (s.boot.ctrlRun || (s.boot.ctrlBoot && stage s != 7) || stage s == 8 || s.gov.ps == .p4) = false := by
    simp [free, ready, on]
  rw [ctrlReset, granted, settled]
  rfl

theorem ctrlReset_empties {s : State} {v : Nat} (asked : v = 0x4C43 * 65536 + 0x100) (map : s.boot.mapReady = true)
    (ready : stage s = 7) (free : s.boot.ctrlRun = false) (run : s.gov.ps = .p0) (settled : s.sec.lcTo = none) :
    ∃ s', exec (.ctrlReset v) s = .next s' ∧ s'.sess = [] ∧ s'.qps = [] ∧ s'.disp.prime = .none ∧ s'.fuses = s.fuses := by
  subst asked
  have taken : writeBootCtl (0x4C43 * 65536 + 0x100) s = ctrlRun (setReg s Reg.bootCtl 0) := by
    have stored : stage (setReg s Reg.bootCtl 0) = 7 := (congrArg (· % 16) (reg_setReg_ne (by decide) s 0)).trans ready
    exact ctrlReset_runs stored free (by simp [run]) settled
  have fuses := writeBootCtl_silicon s (0x4C43 * 65536 + 0x100)
  refine ⟨writeBootCtl (0x4C43 * 65536 + 0x100) s, ?_, ?_⟩
  · show execCtrlReset _ s = _
    rw [execCtrlReset, withOperand_of (by decide), guard_of map]
  rw [taken] at fuses ⊢
  obtain ⟨sess, qps, -, -, prime⟩ := vacant_iff.1 (ctrlRun_vacant (setReg s Reg.bootCtl 0))
  exact ⟨sess, qps, prime, (silicon_eq_iff.1 fuses).2⟩

-- a station's reset by the host, and the training of the link (R558, R564, R600)

theorem sameMap_setField {a : Nat} (other : ∀ d, d < 4 → Reg.mapDieEn + d ≠ a) (s : State) (hi lo v : Nat) :
    SameMap s (setField s a hi lo v) := ⟨rfl, fun d known => reg_setReg_ne (other d known) ..⟩

theorem mapStnReset_starts {s : State} {v ls : Nat} (asked : v = 0x4C43 * 65536 + ls) (named : ls < 128)
    (map : s.boot.mapReady = true) (enabled : ls < stationsEnabled s) (released : anyReset s = false)
    (stopped : regBit s Reg.dispCtl 0 = false) (still : s.disp.step = none) (ready : stage s = 7) (free : s.boot.ctrlRun = false)
    (awake : s.boot.stnWait = false) : ∃ s', exec (.mapStnReset v) s = .next s' ∧ regBit s' Reg.mapStatus 1 = false ∧
      ∀ u, u ∈ unitsOf s ls → (stn s' u).inReset = true := by
  have station : v % 128 = ls := by omega
  have confirmed : bits v 31 16 = 0x4C43 := by simp only [bits, Nat.shiftRight_eq_div_pow]; omega
  have begun : writeStnReset v s = beginReset (setField s Reg.mapStatus 1 1 0) ls := by
    simp [writeStnReset, station, confirmed, enabled, released, stopped, still, ready, free, awake]
  refine ⟨writeStnReset v s, (withOperand_of (decide_eq_true (by omega)) _).trans (guard_of map ..), ?_, fun u own => ?_⟩
  · rw [begun, regBit, reg_beginReset (by decide)]
    exact regBit_setField_zero ..
  · rw [begun]
    refine inReset_beginReset ?_
    rw [(sameMap_setField (fun d known => ?_) s 1 1 0).unitsOf]
    · exact own
    · unfold Reg.mapDieEn Reg.mapStatus; omega

theorem pcieLinkTrain_trains {s : State} {r w : Nat} (slowest : 1 ≤ r) (fastest : r ≤ 5) (width : w ∈ [1, 2, 4, 8, 16])
    (map : s.boot.mapReady = true) (powered : s.pins.pwrOk = true) (clocked : s.pins.refLost = false) (on : s.gov.ps ≠ .p4)
    (running : s.tap.scan = false) (down : regBit s Reg.hostLink 12 = false) :
    ∃ s', exec (.pcieLinkTrain r w) s = .next s' ∧ s'.pins.perstLow = false ∧ reg s' Reg.hostLink = r + 16 * w + 4096 := by
  have known : (decide (1 ≤ r ∧ r ≤ 5) && [1, 2, 4, 8, 16].contains w) = true := by simpa [slowest, fastest] using width
  have word : r + 16 * w + 4096 < 2 ^ 32 := by simp at width; omega
  refine ⟨_, (withOperand_of known _).trans (guard_of (by simp [map, powered, clocked, on, running, down]) ..), rfl, ?_⟩
  exact reg_setReg_self word ..

/-- Settles O55, a reset at a time: the function level, warm and control resets, the host's reset of a station, and the link. -/
theorem resetsClearWhatTheyName : Obligations.ResetsClearWhatTheyName := fun _ =>
  ⟨flr_empties, warmReset_empties, fun _ => ctrlReset_empties, fun _ _ => mapStnReset_starts, fun _ _ => pcieLinkTrain_trains⟩

end Sys2Proof.Machine

/-! PROOFS. Sessions under the entries written for them (R381, R388, R390): of a session that is not closing, a write changes no more than
the entries that wait. -/

namespace Sys2Proof.Machine

/-- A session but for the entries that wait to be written. -/
def Sess.core (x : Sess) : Sess := { x with outq := [] }

theorem cqWrite_sess (s : State) (i : CqItem) : (cqWrite s i).sess = s.sess := by
  unfold cqWrite; extract_lets q a tail q' t
  split
  · exact (reportFrame_qpError ..).rings.2
  · split
    · exact (setQp_sess ..).trans (reportFrame_sendMsix ..).rings.2
    · rfl

theorem writeItems_sess (l : List CqItem) (s : State) : (writeItems s l).1.sess = s.sess := by
  induction l generalizing s with
  | nil => rfl
  | cons i l ih =>
    rw [writeItems]; split
    · rw [ih, cqWrite_sess]
    · rfl

theorem flushQp_sess (s : State) (n : Nat) : (flushQp s n).sess = s.sess := writeItems_sess ..

theorem getSess_flushSess (s : State) (sid k : Nat) : getSess (flushSess s sid) k = if k = sid then
    (if (getSess s sid).closing && (writeItems s (getSess s sid).outq).2.isEmpty then
      { pend := (getSess s sid).pend, urgent := (getSess s sid).urgent }
     else { getSess s sid with outq := (writeItems s (getSess s sid).outq).2 }) else getSess s k := by
  unfold flushSess; extract_lets x r
  rw [getSess_setSess, getSess_of_sess (writeItems_sess ..)]

theorem core_flushSess {s : State} {k : Nat} (live : (getSess s k).closing = false) (sid : Nat) :
    (getSess (flushSess s sid) k).core = (getSess s k).core := by
  rw [getSess_flushSess]; split
  · rename_i here
    subst here
    rw [if_neg (by simp [live])]
    rfl
  · rfl

theorem getSess_pushOut_ne {s : State} {sid k : Nat} (other : k ≠ sid) (i : CqItem) : getSess (pushOut s sid i) k = getSess s k := by
  rw [pushOut, getSess_flushSess, if_neg other, getSess_modSess, if_neg other]

theorem core_pushOut {s : State} {k : Nat} (live : (getSess s k).closing = false) (sid : Nat) (i : CqItem) :
    (getSess (pushOut s sid i) k).core = (getSess s k).core := by
  by_cases here : k = sid
  · subst here
    have queued : getSess (modSess s k (fun x => { x with outq := x.outq ++ [i] })) k =
        { getSess s k with outq := (getSess s k).outq ++ [i] } := (getSess_modSess ..).trans (if_pos rfl)
    rw [pushOut, core_flushSess (by rw [queued]; exact live), queued]
    rfl
  · rw [getSess_pushOut_ne here]

/-- R388: a DONE is an entry of its session, or of the queue pair alone. -/
theorem done_cases (s : State) (f : Frame) (reason : Nat) (data : List Byte) : ∃ t i, t.sess = s.sess ∧
    (done s f reason data = pushOut t f.sid i ∨ (done s f reason data).sess = s.sess) := by
  unfold done; extract_lets data t i x
  have counted : t.sess = s.sess := by
    show (if _ then addReg s Reg.frameErrCnt 1 else s).sess = _
    split <;> rfl
  refine ⟨t, i, counted, ?_⟩
  split
  · exact .inl rfl
  · exact .inr ((flushQp_sess ..).trans counted)

theorem getSess_done_ne {s : State} {f : Frame} {k : Nat} (other : k ≠ f.sid) (reason : Nat) (data : List Byte) :
    getSess (done s f reason data) k = getSess s k := by
  obtain ⟨t, i, kept, run | run⟩ := done_cases s f reason data
  · rw [run, getSess_pushOut_ne other, getSess_of_sess kept]
  · exact getSess_of_sess run k

theorem core_done {s : State} {k : Nat} (live : (getSess s k).closing = false) (f : Frame) (reason : Nat) (data : List Byte) :
    (getSess (done s f reason data) k).core = (getSess s k).core := by
  obtain ⟨t, i, kept, run | run⟩ := done_cases s f reason data
  · have same : getSess t k = getSess s k := getSess_of_sess kept k
    rw [run, core_pushOut (by rw [same]; exact live), same]
  · rw [getSess_of_sess run]

/-- A session without the first of its in-order frames. -/
def Sess.popped (x : Sess) : Sess := { x with pend := x.pend.tail }

/-- R390: the completion of the frame in progress takes it from its session, and of every other leaves all but the entries that wait. -/
theorem core_doneHead {s : State} {sid k : Nat} (live : (getSess s k).closing = false) (reason : Nat) (data : List Byte) :
    (getSess (doneHead s sid reason data) k).core = (if k = sid then (getSess s sid).popped else getSess s k).core := by
  unfold doneHead; split
  · rename_i f t pend
    have taken : getSess (modSess s sid (fun x => { x with pend := t })) k = if k = sid then (getSess s sid).popped else getSess s k := by
      rw [getSess_modSess, Sess.popped, pend]
      rfl
    have open_ : (getSess (modSess s sid (fun x => { x with pend := t })) k).closing = false := by
      rw [taken]; split
      · rename_i here; subst here; exact live
      · exact live
    rw [core_done open_, taken]
  · rename_i pend
    split
    · rename_i here; subst here; rw [Sess.popped, pend, List.tail_nil, ← pend]
    · rfl

/-- The first in-order frame of session `sid`, completing, leaves the other sessions as they are. -/
theorem getSess_doneHead_ne {s : State} {sid k : Nat} {f : Frame} {rest : List Frame} (pend : (getSess s sid).pend = f :: rest)
    (own : f.sid = sid) (other : k ≠ sid) (reason : Nat) (data : List Byte) : getSess (doneHead s sid reason data) k = getSess s k := by
  subst own
  simp only [doneHead, pend]
  rw [getSess_done_ne other, getSess_modSess, if_neg other]

theorem wakeWork_sess (s : State) : (wakeWork s).sess = s.sess := by
  unfold wakeWork; extract_lets tgt g dst t
  have same : t.sess = s.sess := by
    show (if tgt ≤ 1 then s else g.2).sess = _
    split <;> rfl
  split
  · rfl
  · split
    · rfl
    · split
      · exact same
      · rfl

end Sys2Proof.Machine

/-! PROOFS. In-order frames (R390 to R395, R424, R427): OPEN, CONFIG, the appends, and GENERATE. -/

namespace Sys2Proof.Machine

open Sys2Proof.Stated

theorem startFrame_of_head {s : State} {sid ty : Nat} {f : Frame} {rest : List Frame} (head : HeadFrame s sid ty f rest) :
    startFrame s sid ty = some f := by
  obtain ⟨pend, type, -, ⟨gen, busy, urgent, armed⟩, -, pair⟩ := head
  simp [startFrame, pend, type, gen, busy, urgent, armed, ending, pair]

theorem ownOpen_of_owns {s : State} {f : Frame} (owns : Owns s f) : ownOpen s f = true := by
  obtain ⟨open_, pair⟩ := owns
  simp [ownOpen, open_, pair]

/-- The session of a frame, with `y` in place of its contents, once the frame at its head has completed. -/
theorem doneHead_own {s : State} {sid : Nat} {y : Sess} (live : y.closing = false) (reason : Nat) (data : List Byte) :
    (getSess (doneHead (setSess s sid y) sid reason data) sid).core = y.popped.core := by
  have now : getSess (setSess s sid y) sid = y := (getSess_setSess ..).trans (if_pos rfl)
  rw [core_doneHead (by rw [now]; exact live), if_pos rfl, now]

-- OPEN (R391)

/-- R391: a session as OPEN makes it: the reset parameters, its seed, and the frames of its SID. -/
def openedSess (s : State) (f : Frame) (seed : Nat) : Sess :=
  { inc := s.disp.nextInc, isOpen := true, qp := f.qp, seed := seed, maxNew := (theImage s).ctxMax,
    pend := (getSess s f.sid).pend, urgent := (getSess s f.sid).urgent }

theorem openSession_opens {s : State} {sid : Nat} {f : Frame} {rest : List Frame} (head : HeadFrame s sid 1 f rest)
    (free : (getSess s sid).isOpen = false) (known : sid < sessLimit s) (ready : imgReady s = true) (quiet : s.sec.zero = none)
    (room : openCount s < reg s Reg.sessCap) (given : f.flags.testBit 2 = false) :
    ∃ s', exec (.openSession sid) s = .next s' ∧ (getSess s' sid).isOpen = true ∧ (getSess s' sid).qp = f.qp ∧
      (getSess s' sid).seed = leNat (f.body.take 8) ∧ (getSess s' sid).temp = 0x3F800000 ∧ (getSess s' sid).topP = 0x3F800000 ∧
      (getSess s' sid).topK = 0 ∧ (getSess s' sid).maxNew = (theImage s).ctxMax ∧ (getSess s' sid).tokens = [] ∧
      (getSess s' sid).pend = rest ∧ ∀ k, k ≠ sid → getSess s' k = getSess s k := by
  have start := startFrame_of_head head
  obtain ⟨pend, -, own, -, -, -⟩ := head
  subst own
  let t := { s with disp := { s.disp with nextInc := s.disp.nextInc + 1 } }
  have run : exec (.openSession f.sid) s =
      .next (doneHead (setSess t f.sid (openedSess s f (f.fld 0 8))) f.sid 0 (leBytes 8 (f.fld 0 8))) := by
    show execOpenSession f.sid s = _
    simp [execOpenSession, start, openFrame, free, Nat.not_le.2 known, ready, quiet, Nat.not_le.2 room, Frame.rndSeed, given, enabled]
    rfl
  have core := doneHead_own (s := t) (sid := f.sid) (y := openedSess s f (f.fld 0 8)) rfl 0 (leBytes 8 (f.fld 0 8))
  have first : (getSess (setSess t f.sid (openedSess s f (f.fld 0 8))) f.sid).pend = f :: rest := by
    rw [getSess_setSess, if_pos rfl]; exact pend
  refine ⟨_, run, congrArg Sess.isOpen core, congrArg Sess.qp core, congrArg Sess.seed core, congrArg Sess.temp core,
    congrArg Sess.topP core, congrArg Sess.topK core, congrArg Sess.maxNew core, congrArg Sess.tokens core,
    (congrArg Sess.pend core).trans (congrArg List.tail pend), fun k other => ?_⟩
  rw [getSess_doneHead_ne first rfl other, getSess_setSess, if_neg other]
  rfl

-- CONFIG (R392, R393)

/-- R392: the session of a CONFIG with the groups that SET names stored, where neither masks nor stop strings are among them. -/
def configured (s : State) (f : Frame) : Sess :=
  let x := getSess s f.sid
  let x := if (f.fld 0 1).testBit 0 then
    { x with temp := clampTemp (f.fld 4 4), topP := clampTopP (f.fld 8 4), topK := min (f.fld 12 2) 1024 } else x
  if (f.fld 0 1).testBit 1 then
    { x with maxNew := min (max 1 (f.fld 16 4)) (theImage s).ctxMax, truncLimit := min (max 1 (f.fld 24 4)) 65536,
             truncHead := min (min (f.fld 20 2) 4096) (min (max 1 (f.fld 24 4)) 65536) } else x

theorem config_stores {s : State} {sid : Nat} {f : Frame} {rest : List Frame} (head : HeadFrame s sid 2 f rest) (owns : Owns s f)
    (first : f.fld 0 1 = 1 ∨ f.fld 0 1 = 2) :
    ∃ s', exec (.config sid none) s = .next s' ∧ (getSess s' sid).core = (configured s f).popped.core := by
  have start := startFrame_of_head head
  have mine := ownOpen_of_owns owns
  obtain ⟨-, -, own, -, live, -⟩ := head
  subst own
  have bits : (f.fld 0 1).testBit 2 = false ∧ (f.fld 0 1).testBit 3 = false ∧ (f.fld 0 1).testBit 4 = false := by
    rcases first with set | set <;> rw [set] <;> decide
  obtain ⟨stops, masks, seed⟩ := bits
  have plain : configFrame s f none = applyConfig s f [] [] := by
    simp only [configFrame, mine, stops, masks]
    rfl
  have applied : applyConfig s f [] [] = doneHead (setSess s f.sid (configured s f)) f.sid 0 (configData (configured s f)) := by
    simp only [applyConfig, stops, masks, seed]
    rfl
  have run : exec (.config f.sid none) s = .next (doneHead (setSess s f.sid (configured s f)) f.sid 0 (configData (configured s f))) := by
    show execConfig f.sid none s = _
    rw [← applied, ← plain, execConfig, start]
    rfl
  have still : (configured s f).closing = false := by
    unfold configured; extract_lets x y
    have kept : y.closing = false := by
      show (if _ then _ else x).closing = false
      split <;> exact live
    split <;> exact kept
  exact ⟨_, run, doneHead_own still ..⟩

/-- Table 12.9: a TEMP up to the largest is stored as it is. -/
theorem clampTemp_of_le {c : Nat} (low : c ≤ 0x41800000) : clampTemp c = c := by
  have positive : c.testBit 31 = false := Nat.testBit_lt_two_pow (by omega)
  simp [clampTemp, positive, Nat.not_lt.2 low]
  omega

theorem config_sampling {s : State} {sid : Nat} {f : Frame} {rest : List Frame} (head : HeadFrame s sid 2 f rest) (owns : Owns s f)
    (set : f.fld 0 1 = 1) (low : f.fld 4 4 ≤ 0x41800000) : ∃ s', exec (.config sid none) s = .next s' ∧
      (getSess s' sid).temp = f.fld 4 4 ∧ (getSess s' sid).topK = min (f.fld 12 2) 1024 ∧
      (getSess s' sid).maxNew = (getSess s sid).maxNew ∧ (getSess s' sid).tokens = (getSess s sid).tokens ∧
      (getSess s' sid).pend = rest := by
  obtain ⟨s', run, core⟩ := config_stores head owns (.inl set)
  obtain ⟨pend, -, own, -, -, -⟩ := head
  subst own
  have stored : configured s f = { getSess s f.sid with
      temp := f.fld 4 4, topP := clampTopP (f.fld 8 4), topK := min (f.fld 12 2) 1024 } := by
    unfold configured
    rw [set, clampTemp_of_le low]
    rfl
  rw [stored] at core
  exact ⟨s', run, congrArg Sess.temp core, congrArg Sess.topK core, (congrArg Sess.maxNew core :), (congrArg Sess.tokens core :),
    (congrArg Sess.pend core).trans (congrArg List.tail pend)⟩

theorem config_limits {s : State} {sid : Nat} {f : Frame} {rest : List Frame} (head : HeadFrame s sid 2 f rest) (owns : Owns s f)
    (set : f.fld 0 1 = 2) : ∃ s', exec (.config sid none) s = .next s' ∧ (getSess s' sid).temp = (getSess s sid).temp ∧
      (getSess s' sid).maxNew = min (max 1 (f.fld 16 4)) (theImage s).ctxMax ∧ (getSess s' sid).pend = rest := by
  obtain ⟨s', run, core⟩ := config_stores head owns (.inr set)
  obtain ⟨pend, -, own, -, -, -⟩ := head
  subst own
  have stored : configured s f = { getSess s f.sid with
      maxNew := min (max 1 (f.fld 16 4)) (theImage s).ctxMax, truncLimit := min (max 1 (f.fld 24 4)) 65536,
      truncHead := min (min (f.fld 20 2) 4096) (min (max 1 (f.fld 24 4)) 65536) } := by
    unfold configured
    rw [set]
    rfl
  rw [stored] at core
  exact ⟨s', run, (congrArg Sess.temp core :), congrArg Sess.maxNew core, (congrArg Sess.pend core).trans (congrArg List.tail pend)⟩

-- the appends (R394, R423, R424, R427)

/-- R394: tokens for which the session has room follow its own, and the frame in progress completes. -/
theorem addTokens_appends {s : State} {f : Frame} {toks : List Nat} (live : (getSess s f.sid).closing = false)
    (room : (getSess s f.sid).tokens.length + toks.length ≤ (theImage s).ctxMax) (drop cut : Nat) :
    (getSess (addTokens s f toks drop cut) f.sid).core =
      { getSess s f.sid with tokens := (getSess s f.sid).tokens ++ toks, busy := false }.popped.core := by
  unfold addTokens; extract_lets x free keep extra y t
  have whole : keep = toks := List.take_of_length_le (by
    show toks.length ≤ (theImage s).ctxMax - (getSess s f.sid).tokens.length
    omega)
  have stored : getSess t f.sid = { getSess s f.sid with tokens := (getSess s f.sid).tokens ++ toks, busy := false } := by
    rw [← whole]
    exact (getSess_of_sess (setReg_sess ..) _).trans ((getSess_setSess ..).trans (if_pos rfl))
  have going : (getSess t f.sid).closing = false := by rw [stored]; exact live
  rw [getSess_of_sess (wakeWork_sess _), core_doneHead going, if_pos rfl, stored]

theorem truncateTokens_of_le {head limit : Nat} {ts : List Nat} (short : ts.length ≤ limit) : truncateTokens head limit ts = (ts, 0) :=
  if_pos short

theorem exec_appendTokens {s : State} {sid : Nat} {f : Frame} {rest : List Frame} (head : HeadFrame s sid 4 f rest) (owns : Owns s f)
    (inline_ : f.flags.testBit 0 = true) :
    exec (.appendTokens sid none) s = .next (appendTokens s f (f.body.take (min f.len 44))) := by
  have start := startFrame_of_head head
  have mine := ownOpen_of_owns owns
  show execAppendTokens sid none s = _
  simp only [execAppendTokens, start, payOk, mine, Frame.inl, inline_]
  rfl

theorem appendTokens_appends {s : State} {sid : Nat} {f : Frame} {rest : List Frame} (head : HeadFrame s sid 4 f rest) (owns : Owns s f)
    (inline_ : f.flags.testBit 0 = true) {ts : List Nat} (carried : tokenList (f.body.take (min f.len 44)) = ts)
    (known : ∀ t, t ∈ ts → t < (theImage s).vocab) (short : ts.length ≤ (getSess s sid).truncLimit)
    (room : (getSess s sid).tokens.length + ts.length ≤ (theImage s).ctxMax) : ∃ s', exec (.appendTokens sid none) s = .next s' ∧
      (getSess s' sid).pend = rest ∧ (getSess s' sid).tokens = (getSess s sid).tokens ++ ts := by
  have run := exec_appendTokens head owns inline_
  obtain ⟨pend, -, own, -, live, -⟩ := head
  subst own
  have none : ts.any (fun t => decide ((theImage s).vocab ≤ t)) = false := by
    simpa using known
  have added : appendTokens s f (f.body.take (min f.len 44)) = addTokens s f ts 0 0 := by
    rw [appendTokens, carried, none, truncateTokens_of_le short]
    rfl
  have core := addTokens_appends live room 0 0
  refine ⟨_, run, ?_, ?_⟩
  · rw [added]; exact (congrArg Sess.pend core).trans (congrArg List.tail pend)
  · rw [added]; exact congrArg Sess.tokens core

theorem appendTokens_refuses {s : State} {sid : Nat} {f : Frame} {rest : List Frame} (head : HeadFrame s sid 4 f rest) (owns : Owns s f)
    (inline_ : f.flags.testBit 0 = true) {t : Nat} (carried : t ∈ tokenList (f.body.take (min f.len 44)))
    (unknown : (theImage s).vocab ≤ t) : ∃ s', exec (.appendTokens sid none) s = .next s' ∧
      (getSess s' sid).pend = rest ∧ (getSess s' sid).tokens = (getSess s sid).tokens := by
  have run := exec_appendTokens head owns inline_
  obtain ⟨pend, -, own, -, live, -⟩ := head
  subst own
  have bad : (tokenList (f.body.take (min f.len 44))).any (fun t => decide ((theImage s).vocab ≤ t)) = true :=
    List.any_eq_true.2 ⟨t, carried, decide_eq_true unknown⟩
  have refused : appendTokens s f (f.body.take (min f.len 44)) = doneHead s f.sid 8 [] := by
    rw [appendTokens, bad]
    rfl
  have core := core_doneHead live (sid := f.sid) 8 []
  rw [if_pos rfl] at core
  refine ⟨_, run, ?_, ?_⟩
  · rw [refused]; exact (congrArg Sess.pend core).trans (congrArg List.tail pend)
  · rw [refused]; exact (congrArg Sess.tokens core :)

/-- R414: with no append before it, one that starts takes pipe 0. -/
theorem startJob_takesPipe {s : State} (pipes : s.text.pipes = []) (wait : s.text.wait = []) (j : TextJob) :
    (startJob s j).text.pipes = [(0, j)] := by
  show (fillPipe (fillPipe { s.text with wait := insertJob j s.text.wait } 0) 1).pipes = _
  simp [wait, insertJob, fillPipe, pipes, tabPut]

theorem getSess_startJob (s : State) (j : TextJob) :
    getSess (startJob s j) j.frame.sid = { getSess s j.frame.sid with busy := true } := (getSess_modSess ..).trans (if_pos rfl)

theorem appendText_takesPipe {s : State} {sid : Nat} {f : Frame} {rest : List Frame} (head : HeadFrame s sid 3 f rest) (owns : Owns s f)
    (inline_ : f.flags.testBit 0 = true) (short : f.len ≤ 44) (served : textOk s = true) (pipes : s.text.pipes = [])
    (wait : s.text.wait = []) : ∃ s', exec (.appendText sid none) s = .next s' ∧
      s'.text.pipes = [(0, ⟨f, f.body.take f.len, [], 0⟩)] ∧ getSess s' sid = { getSess s sid with busy := true } := by
  have start := startFrame_of_head head
  have mine := ownOpen_of_owns owns
  obtain ⟨-, -, own, -, -, -⟩ := head
  subst own
  have run : exec (.appendText f.sid none) s = .next (startJob s ⟨f, f.body.take f.len, [], 0⟩) := by
    show execAppendText f.sid none s = _
    simp [execAppendText, start, payOk, withOperand_of, appendTextFrame, mine, served, Frame.inl, inline_, appendText, spansOk, cutText,
      Nat.sub_eq_zero_of_le short, Nat.min_eq_left short]
  exact ⟨_, run, startJob_takesPipe pipes wait _, getSess_startJob s ⟨f, f.body.take f.len, [], 0⟩⟩

theorem tokenizeAppend_appends {s : State} {k : Nat} {j : TextJob} (pipe : s.text.pipes.find? (fun p => p.1 == k) = some (k, j))
    (idle : s.text.repair = []) (clean : s.text.err = []) (live : (getSess s j.frame.sid).closing = false) {ts : List Nat}
    (cut : (tokensOf s.text.sram j.spans j.text).1 = ts) (short : ts.length ≤ (getSess s j.frame.sid).truncLimit)
    (room : (getSess s j.frame.sid).tokens.length + ts.length ≤ (theImage s).ctxMax) :
    ∃ s', exec (.tokenizeAppend k) s = .next s' ∧ (getSess s' j.frame.sid).busy = false ∧
      (getSess s' j.frame.sid).tokens = (getSess s j.frame.sid).tokens ++ ts := by
  let t := addReg (addReg (addReg (dropJob s j.frame.sid j.frame.qp) Reg.textInBytes j.text.length) Reg.textTokens ts.length)
    Reg.textCutBytes j.cut
  have same : getSess t j.frame.sid = getSess s j.frame.sid := rfl
  have run : exec (.tokenizeAppend k) s = .next (addTokens t j.frame ts 0 j.cut) := by
    have reads (ws : List Nat) : textReadsOf s ws = (s, none) := if_pos (by rw [clean]; rfl)
    have kept : truncateTokens (getSess (dropJob s j.frame.sid j.frame.qp) j.frame.sid).truncHead
        (getSess (dropJob s j.frame.sid j.frame.qp) j.frame.sid).truncLimit ts = (ts, 0) := truncateTokens_of_le short
    show execTokenizeAppend k s = _
    simp only [execTokenizeAppend, pipe, reads, cut, kept]
    exact guard_of (by rw [idle]; rfl) ..
  have core := addTokens_appends (s := t) (by rw [same]; exact live) (by rw [same]; exact room) 0 j.cut
  exact ⟨_, run, congrArg Sess.busy core, congrArg Sess.tokens core⟩

-- GENERATE (R395)

/-- R395: a GENERATE as it starts. -/
def startedGen (s : State) (f : Frame) : Gen :=
  { frame := f, maxNew := if f.fld 0 4 = 0 then (getSess s f.sid).maxNew else min (f.fld 0 4) (theImage s).ctxMax,
    outTok := f.fld 4 1 != 0 || !textOk s }

theorem gen_markReady (s : State) (sid : Nat) : (getSess (markReady s sid) sid).gen = (getSess s sid).gen := by
  unfold markReady; extract_lets x n; split
  · rw [getSess_setSess, if_pos rfl]
  · rfl

theorem generate_starts {s : State} {sid : Nat} {f : Frame} {rest : List Frame} (head : HeadFrame s sid 5 f rest) (owns : Owns s f)
    (some_ : 0 < (getSess s sid).tokens.length) (room : (getSess s sid).tokens.length < (theImage s).ctxMax) :
    ∃ s' g, exec (.generate sid) s = .next s' ∧ (getSess s' sid).gen = some g ∧ g.frame = f ∧ g.count = 0 ∧ g.pipe = [] ∧
      g.maxNew = (if f.fld 0 4 = 0 then (getSess s sid).maxNew else min (f.fld 0 4) (theImage s).ctxMax) := by
  have start := startFrame_of_head head
  have mine := ownOpen_of_owns owns
  obtain ⟨-, -, own, -, -, -⟩ := head
  subst own
  have run : exec (.generate f.sid) s = .next (wakeWork (markReady (setSess s f.sid
      { getSess s f.sid with gen := some (startedGen s f) }) f.sid)) := by
    show execGenerate f.sid s = _
    have filled : ¬ (getSess s f.sid).len = 0 := some_.ne'
    have below : ¬ (theImage s).ctxMax ≤ (getSess s f.sid).len := room.not_ge
    simp only [execGenerate, start, generateFrame, mine, filled, below]
    rfl
  refine ⟨_, startedGen s f, run, ?_, rfl, rfl, rfl, rfl⟩
  rw [getSess_of_sess (wakeWork_sess _), gen_markReady, getSess_setSess, if_pos rfl]

theorem generate_onEmpty {s : State} {sid : Nat} {f : Frame} {rest : List Frame} (head : HeadFrame s sid 5 f rest) (owns : Owns s f)
    (empty : (getSess s sid).tokens = []) :
    ∃ s', exec (.generate sid) s = .next s' ∧ (getSess s' sid).gen = none ∧ (getSess s' sid).pend = rest := by
  have start := startFrame_of_head head
  have mine := ownOpen_of_owns owns
  obtain ⟨pend, -, own, ⟨gen, -, -, -⟩, live, -⟩ := head
  subst own
  have run : exec (.generate f.sid) s = .next (doneHead s f.sid 0xE []) := by
    show execGenerate f.sid s = _
    simp [execGenerate, start, generateFrame, mine, Sess.len, empty]
  have core := core_doneHead live (sid := f.sid) 0xE []
  rw [if_pos rfl] at core
  exact ⟨_, run, (congrArg Sess.gen core).trans gen, (congrArg Sess.pend core).trans (congrArg List.tail pend)⟩

/-- Settles O39, a TYPE of frame at a time. -/
theorem inOrderFramesActOnTheirSession : Obligations.InOrderFramesActOnTheirSession := by
  unfold Obligations.InOrderFramesActOnTheirSession
  intro s sid f rest
  refine ⟨openSession_opens, fun head owns => ⟨config_sampling head owns, config_limits head owns⟩,
    fun head owns inline_ => ⟨appendTokens_appends head owns inline_ rfl, fun bad => ?_⟩, appendText_takesPipe,
    fun k j pipe idle clean live => tokenizeAppend_appends pipe idle clean live rfl,
    fun head owns => ⟨generate_starts head owns, generate_onEmpty head owns⟩⟩
  obtain ⟨t, carried, unknown⟩ := bad
  exact appendTokens_refuses head owns inline_ carried unknown

end Sys2Proof.Machine

/-! PROOFS. What the Dispatcher's work on sessions and its reads and writes of cistern words leave as it is: the stations, the links, the
image, the step in progress, and the registers of the map and of the step counts (R400 to R411). -/

namespace Sys2Proof.Machine

/-- The registers of the map, and the counts of steps and of faulted steps. -/
def groundRegs : List Nat :=
  [Reg.mapDieEn, Reg.mapDieEn + 1, Reg.mapDieEn + 2, Reg.mapDieEn + 3, Reg.stepCntLo, Reg.stepCntLo + 1, Reg.faultCnt]

/-- Their words. -/
def groundWords (regs : Tab Word) : List Word := groundRegs.map (tabGet 0 regs)

/-- What a model step stands on: the part, the links, the stations, the well, the step in progress, the image, and the registers
above. -/
def State.ground (s : State) : Part × Nat × Tab ExtLink × Tab Station × List Host.Cell × Option StepRec × Option Image × List Word :=
  (s.part, s.dieUp, s.ext, s.stns, s.well, s.disp.step, s.ldr.image, groundWords s.regs)

theorem ground_eq_iff {s t : State} : t.ground = s.ground ↔ t.part = s.part ∧ t.dieUp = s.dieUp ∧ t.ext = s.ext ∧ t.stns = s.stns ∧
    t.well = s.well ∧ t.disp.step = s.disp.step ∧ t.ldr.image = s.ldr.image ∧ groundWords t.regs = groundWords s.regs := by simp [State.ground]

theorem reg_of_ground {s t : State} (h : t.ground = s.ground) {a : Nat} (named : a ∈ groundRegs) : reg t a = reg s a := by
  obtain ⟨-, -, -, -, -, -, -, words⟩ := ground_eq_iff.1 h
  rw [reg, List.map_eq_map_iff.1 words a named]
  rfl

theorem theImage_of_ground {s t : State} (h : t.ground = s.ground) : theImage t = theImage s := by
  obtain ⟨-, -, -, -, -, -, image, -⟩ := ground_eq_iff.1 h
  rw [theImage, image]
  rfl

theorem linkUp_of_ground {s t : State} (h : t.ground = s.ground) (l : Nat) : linkUp t l = linkUp s l := by
  obtain ⟨-, dies, ext, -⟩ := ground_eq_iff.1 h
  rw [linkUp, dies, ext]
  rfl

theorem sameMap_of_ground {s t : State} (h : t.ground = s.ground) : SameMap s t := by
  refine ⟨(ground_eq_iff.1 h).1, fun d known => reg_of_ground h ?_⟩
  interval_cases d <;> decide

theorem ground_ite (c : Prop) [Decidable c] (s t : State) :
    (if c then s else t).ground = if c then s.ground else t.ground := apply_ite State.ground c s t

theorem ground_setReg {a : Nat} (other : a ∉ groundRegs) (s : State) (v : Nat) : (setReg s a v).ground = s.ground := by
  have words : groundWords (setReg s a v).regs = groundWords s.regs :=
    List.map_congr_left fun b named => tabGet_tabSet_ne _ _ _ _ _ (ne_of_mem_of_not_mem named other)
  exact ground_eq_iff.2 ⟨rfl, rfl, rfl, rfl, rfl, rfl, rfl, words⟩

theorem ground_addReg {a : Nat} (other : a ∉ groundRegs) (s : State) (n : Nat) : (addReg s a n).ground = s.ground := ground_setReg other ..

-- reports (R382, R383, R476, R484)

theorem ground_sendMsix (s : State) (v : Nat) : (sendMsix s v).ground = s.ground := by
  unfold sendMsix; split
  · rfl
  · simp only; split <;> rfl

theorem ground_setEvt (s : State) (b : Nat) : (setEvt s b).ground = s.ground := by
  unfold setEvt evtRise; extract_lets old now
  rw [ground_ite, ground_sendMsix, ite_self, ground_setReg (by decide)]

theorem ground_pushRec (s : State) (r : RecIn) : (pushRec s r).ground = s.ground := by
  unfold pushRec; split
  · exact ground_addReg (by decide) ..
  · rfl

-- completion entries, frames and sessions (R381, R388, R395, R410)

theorem ground_modSess (s : State) (sid : Nat) (f : Sess → Sess) : (modSess s sid f).ground = s.ground := rfl

theorem ground_qpError (s : State) (n cause addr : Nat) : (qpError s n cause addr).ground = s.ground := by
  unfold qpError; extract_lets t u r
  have other : r ∉ groundRegs := by
    show (if n < 32 then Reg.qpErrLo else Reg.qpErrHi) ∉ _
    split <;> decide
  rw [ground_setEvt, ground_setReg other, ground_pushRec]
  rfl

theorem ground_cqWrite (s : State) (i : CqItem) : (cqWrite s i).ground = s.ground := by
  unfold cqWrite; extract_lets q a tail q' t
  split
  · exact ground_qpError ..
  · split
    · exact ground_sendMsix t (getQp t i.qp).vector
    · rfl

theorem ground_writeItems (l : List CqItem) (s : State) : (writeItems s l).1.ground = s.ground := by
  induction l generalizing s with
  | nil => rfl
  | cons i l ih =>
    rw [writeItems]; split
    · rw [ih, ground_cqWrite]
    · rfl

theorem ground_flushQp (s : State) (n : Nat) : (flushQp s n).ground = s.ground := ground_writeItems ..

theorem ground_pushOut (s : State) (sid : Nat) (i : CqItem) : (pushOut s sid i).ground = s.ground := ground_writeItems ..

theorem ground_done (s : State) (f : Frame) (reason : Nat) (data : List Byte) : (done s f reason data).ground = s.ground := by
  unfold done; extract_lets data t i x
  have counted : t.ground = s.ground := by
    show (if _ then addReg s Reg.frameErrCnt 1 else s).ground = _
    rw [ground_ite, ground_addReg (by decide), ite_self]
  split
  · rw [ground_pushOut, counted]
  · exact (ground_flushQp ..).trans counted

theorem ground_doneHead (s : State) (sid reason : Nat) (data : List Byte) : (doneHead s sid reason data).ground = s.ground := by
  unfold doneHead; split
  · exact ground_done ..
  · rfl

theorem ground_doneList (reason : Nat) (l : List Frame) (s : State) : (doneList s reason l).ground = s.ground := by
  induction l generalizing s with
  | nil => rfl
  | cons f l ih => rw [doneList, ih, ground_done]

theorem ground_textOut (s : State) (sid : Nat) (bs : List Byte) : (textOut s sid bs).ground = s.ground :=
  proj_foldl State.ground (fun s _ => ground_pushOut s sid _) ..

theorem ground_endGen (s : State) (sid reason stop : Nat) : (endGen s sid reason stop).ground = s.ground := by
  unfold endGen; split
  · rfl
  · extract_lets rel t disc u
    refine (ground_doneHead ..).trans ?_
    show (if rel then textOut s sid _ else s).ground = _
    rw [ground_ite, ground_textOut, ite_self]

theorem ground_dropJob (s : State) (sid qp : Nat) : (dropJob s sid qp).ground = s.ground := rfl

theorem ground_faultSess (s : State) (sid : Nat) : (faultSess s sid).ground = s.ground := by
  unfold faultSess; extract_lets x t u y v
  split
  · rfl
  · refine (ground_doneList ..).trans ?_
    show (if x.busy then dropJob t sid x.qp else t).ground = _
    rw [ground_ite, ground_dropJob, ite_self, ground_endGen]

-- the Text Engine (R419)

theorem ground_textUe (s : State) (w sid : Nat) : (textUe s w sid).ground = s.ground :=
  (ground_pushRec ..).trans (ground_addReg (a := Reg.textUe) (by decide) s 1)

theorem ground_textReads (l : List Nat) (s : State) : (textReads s l).1.ground = s.ground := by
  induction l generalizing s with
  | nil => rfl
  | cons w l ih =>
    rw [textReads]; split
    · exact ih s
    · rw [ih, ground_addReg (by decide)]; rfl
    · rfl

theorem ground_textReadsOf (s : State) (l : List Nat) : (textReadsOf s l).1.ground = s.ground := by
  unfold textReadsOf; split
  · rfl
  · exact ground_textReads l s

theorem ground_textRepair (s : State) : (textRepair s).ground = s.ground := by unfold textRepair; split <;> rfl

-- the rows of a step (R395, R400 to R403, R408, R430)

theorem ground_allocPage {s t : State} {sid p : Nat} (h : allocPage s sid p = some t) : t.ground = s.ground := by
  unfold allocPage at h; simp only at h
  split at h
  · cases h; rfl
  · simp only [Option.ite_none_left_eq_some, Option.some.injEq] at h
    obtain ⟨-, rfl⟩ := h
    rfl

theorem ground_decodeRow (b : Build) (sid r : Nat) : (decodeRow b sid r).1.ground = b.1.ground := by
  unfold decodeRow; extract_lets x row
  split
  · rfl
  · split
    · rename_i found; exact ground_allocPage found
    · exact ground_endGen ..

theorem ground_joinRow (cap : Nat) (b : Build) (sid : Nat) : (joinRow cap b sid).1.ground = b.1.ground := by
  unfold joinRow; extract_lets used
  split
  · rfl
  · split
    · exact ground_decodeRow ..
    · rfl

theorem ground_prefill (b : Build) (gs sids : List Nat) : (prefill b gs sids).1.ground = b.1.ground := by
  induction b, gs, sids using prefill.induct with
  | case1 | case2 => simp [prefill]
  | case3 b g gs sid t x s found ih =>
    simp only [x] at found
    rw [prefill]
    simp only [found]
    rw [ih, ← ground_allocPage found]
    rfl
  | case4 b g gs sid t x none_ gen ih =>
    simp only [x] at none_ gen
    rw [prefill]
    simp only [none_, gen, if_true]
    exact ih.trans (ground_endGen ..)
  | case5 b g gs sid t x none_ gen ih =>
    simp only [x] at none_ gen
    rw [prefill]
    simp only [none_, gen]
    exact ih

/-- A fold over a step under construction keeps what its steps keep. -/
theorem ground_foldl_build {α : Type} {f : Build → α → Build} (h : ∀ b a, (f b a).1.ground = b.1.ground) (l : List α) (b : Build) :
    (l.foldl f b).1.ground = b.1.ground := by
  induction l generalizing b with
  | nil => rfl
  | cons a l ih => rw [List.foldl_cons, ih, h]

theorem ground_buildStep (s : State) : (buildStep s).1.ground = s.ground := by
  unfold buildStep; extract_lets r cap b c groups
  have kept : b.1.ground = s.ground := ground_foldl_build (fun b (p : Nat × Nat) => ground_decodeRow b p.1 p.2) _ (s, [], false)
  have joined : c.1.ground = b.1.ground := ground_foldl_build (ground_joinRow cap) ..
  rw [ground_prefill, joined, kept]

theorem ground_markReady (s : State) (sid : Nat) : (markReady s sid).ground = s.ground := by
  unfold markReady; extract_lets x n
  split <;> rfl

theorem ground_standpipe (s : State) (sid t : Nat) : (standpipe s sid t).ground = s.ground := by
  unfold standpipe; extract_lets c x e
  have read : c.1.ground = s.ground := ground_textReadsOf ..
  split
  · rw [ground_textRepair, ground_faultSess, ground_textUe, read]
  · exact read
  · extract_lets sp r
    split
    · extract_lets u v
      have counted : u.ground = s.ground := by
        rw [show u = addReg (textOut c.1 sid (sp.take _)) Reg.textStop 1 from rfl, ground_addReg (by decide), ground_textOut, read]
      rw [ground_endGen, ground_modSess, counted]
    · rw [ground_modSess, ground_textOut, read]

theorem ground_endByLength (s : State) (sid : Nat) : (endByLength s sid).ground = s.ground := by
  unfold endByLength; extract_lets x
  split
  · rfl
  · split
    · exact ground_endGen ..
    · split
      · exact ground_endGen ..
      · rfl

theorem ground_decoded (s : State) (sid pos out : Nat) : (decoded s sid pos out).ground = s.ground := by
  unfold decoded; extract_lets v t w x
  split
  · exact ground_endGen ..
  · split
    · rfl
    · extract_lets u y
      have stored : y.ground = s.ground := by
        show (if _ then pushOut u sid _ else u).ground = _
        rw [ground_ite, ground_pushOut, ite_self]
        rfl
      split
      · rw [ground_endGen, stored]
      · rw [ground_endByLength, ground_ite, ground_standpipe, ite_self, stored]

theorem ground_finishRow (own peer : Tab Nat) (s0 s : State) (r : RowRec) : (finishRow own peer s0 s r).ground = s.ground := by
  unfold finishRow; split
  · rfl
  · split
    · exact ground_markReady ..
    · split
      · rfl
      · exact ground_decoded ..

-- cistern words (R114, R115, R145)

theorem ground_cistUeReport (s : State) (w acc : Nat) : (cistUeReport s w acc).ground = s.ground := by
  unfold cistUeReport; extract_lets t unit n u
  have counted : t.ground = s.ground := by
    refine (ground_addReg (by decide) ..).trans ?_
    rw [ground_ite]
    exact ite_self _
  split
  · exact counted
  · rw [ground_pushRec]
    show (if n < 16 then { t with cistBad := t.cistBad ++ [w] } else t).ground = _
    rw [ground_ite]
    exact (ite_self _).trans counted

theorem ground_cistCheck (acc : Nat) (l : List Nat) (s : State) : (cistCheck s acc l).1.ground = s.ground := by
  induction l generalizing s with
  | nil => rfl
  | cons w l ih =>
    rw [cistCheck]; split
    · exact ih s
    · rw [ih]; exact ground_addReg (a := Reg.cistCe) (by decide) s 1
    · exact ground_cistUeReport ..

theorem ground_hubRead (s : State) (u a : Nat) : (hubRead s u a).1.ground = s.ground := ground_cistCheck ..

theorem ground_readReports (s : State) (us : List Nat) (no : Nat) : (readReports s us no).ground = s.ground :=
  proj_foldl State.ground (fun s u => ground_hubRead s u (reportAt s no)) us s

theorem ground_cistWritePiece (s : State) (g : Nat) (bs : List Byte) : (cistWritePiece s g bs).1.ground = s.ground := by
  unfold cistWritePiece; extract_lets w put
  split
  · rfl
  · split
    · rfl
    · split
      · rfl
      · exact ground_addReg (a := Reg.cistCe) (by decide) s 1
      · exact ground_cistUeReport ..

theorem ground_cistWritePieces (l : List (Nat × List Byte)) (s : State) : (cistWritePieces s l).1.ground = s.ground := by
  induction l generalizing s with
  | nil => rfl
  | cons p l ih => exact (ih _).trans (ground_cistWritePiece ..)

theorem ground_rbForget (s : State) (k n : Nat) : (rbForget s k n).ground = s.ground := by unfold rbForget; split <;> rfl

theorem ground_hubWrite (s : State) (u a : Nat) (bs : List Byte) : (hubWrite s u a bs).ground = s.ground := by
  unfold hubWrite cistWrite; extract_lets t
  have forgotten : t.ground = s.ground := ground_rbForget ..
  split
  · exact forgotten
  · exact (ground_cistWritePieces ..).trans forgotten

theorem ground_writeMasks (s : State) (r : RowRec) : (writeMasks s r).ground = s.ground := by
  unfold writeMasks; extract_lets im x
  split
  · rfl
  · refine proj_foldl State.ground (fun s k => ?_) _ s
    split
    · exact ground_hubWrite ..
    · rfl

theorem ground_writeTables (s : State) (no : Nat) (rows : List RowRec) : (writeTables s no rows).ground = s.ground := by
  unfold writeTables; extract_lets ps areas t
  refine (proj_foldl State.ground ground_writeMasks rows t).trans ?_
  exact proj_foldl State.ground (fun s u => (ground_hubWrite ..).trans (ground_hubWrite ..)) _ s

theorem ground_retarget (s : State) : (retarget s).ground = s.ground := by unfold retarget; split <;> rfl

end Sys2Proof.Machine

/-! PROOFS. The signals of STEP_EVT (R170, R311, R328, R461): a signal that the hub has sent stays on its hop's wire or queue while the hub
sends the others. -/

namespace Sys2Proof.Machine

/-- A SIGNAL flit that a hub originates, with payload `p`. -/
def IsSignal (p : List Byte) (f : Flit) : Prop := f.type = 3 ∧ f.hub = true ∧ f.payload = p

/-- Such a flit is on the wire of a direction, or waits to be sent. -/
def Carried (x : Hop) (p : List Byte) : Prop := ∃ f, (f ∈ x.wire ∨ f ∈ x.sendq) ∧ IsSignal p f

theorem isSignal_acked {p : List Byte} {f : Flit} (signal : IsSignal p f) (o : Hop) : IsSignal p (acked o f) := by
  unfold acked; split <;> exact signal

theorem carried_of_wire {x : Hop} {p : List Byte} {f : Flit} (mem : f ∈ x.wire) (signal : IsSignal p f) : Carried x p :=
  ⟨f, .inl mem, signal⟩

/-- A direction with no fewer flits on its wire and in its queue carries what it carried. -/
theorem Carried.mono {x y : Hop} {p : List Byte} (h : Carried x p) (wire : ∀ f, f ∈ x.wire → f ∈ y.wire)
    (queue : ∀ f, f ∈ x.sendq → f ∈ y.sendq) : Carried y p := by
  obtain ⟨f, place, signal⟩ := h
  exact ⟨f, place.imp (wire f) (queue f), signal⟩

theorem carried_setHop {s : State} {h k : Nat} {x : Hop} {p : List Byte} (carried : Carried (hop s k) p)
    (own : k = h → Carried x p) : Carried (hop (setHop s h x) k) p := by
  rw [hop_setHop]; split
  · rename_i here; exact own here
  · exact carried

theorem carried_onWire {s : State} {k : Nat} {p : List Byte} (carried : Carried (hop s k) p) (h : Nat) (f : Flit) :
    Carried (hop (onWire s h f) k) p := by
  have taken : Carried (hop (ackTaken s h) k) p := carried_setHop carried fun here => by subst here; exact carried
  rw [onWire_eq]; split
  · exact taken
  · refine carried_setHop taken fun here => ?_
    subst here
    exact taken.mono (fun f mem => List.mem_append_left _ mem) fun f mem => mem

theorem carried_onWire_self {s : State} {h : Nat} (inside : h < 16) {p : List Byte} {f : Flit} (signal : IsSignal p f) :
    Carried (hop (onWire s h f) h) p := by
  rw [hop_onWire inside]
  exact carried_of_wire (List.mem_append_right _ List.mem_cons_self) (isSignal_acked signal _)

/-- A flit that leaves the queue of a hop inside the package goes onto its wire. -/
theorem carried_hopFlush {h k : Nat} (inside : h < 16) {p : List Byte} (n : Nat) {s : State} (carried : Carried (hop s k) p) :
    Carried (hop (hopFlush n s h) k) p := by
  induction n generalizing s with
  | zero => exact carried
  | succ n ih =>
    cases waits : (hop s h).sendq with
    | nil => rw [hopFlush_of_empty waits]; exact carried
    | cons f rest =>
      by_cases room : (hop s h).unacked.length < 64
      · rw [hopFlush_succ waits room]
        apply ih
        by_cases here : k = h
        · subst here
          have left : hop (setHop s k (launched (hop s k) f rest)) k = launched (hop s k) f rest := by rw [hop_setHop, if_pos rfl]
          obtain ⟨g, wire | queue, signal⟩ := carried
          · exact carried_onWire (by rw [left]; exact carried_of_wire wire signal) ..
          · rcases List.mem_cons.1 (waits ▸ queue) with first | later
            · subst first; exact carried_onWire_self inside signal
            · exact carried_onWire (by rw [left]; exact ⟨g, .inr later, signal⟩) ..
        · exact carried_onWire (carried_setHop carried fun same => absurd same here) ..
      · have full : hopFlush (n + 1) s h = s := by simp only [hopFlush, waits, Nat.not_lt.1 room, if_true]
        rw [full]; exact carried

theorem carried_hopSend {h k : Nat} (inside : h < 16) {p : List Byte} {s : State} {fs : List Flit}
    (sent : Carried (hop s k) p ∨ k = h ∧ ∃ f, f ∈ fs ∧ IsSignal p f) : Carried (hop (hopSend s h fs) k) p := by
  rw [hopSend_eq]
  apply carried_hopFlush inside
  rcases sent with carried | ⟨here, f, mem, signal⟩
  · refine carried_setHop carried fun here => ?_
    subst here
    exact carried.mono (fun f mem => mem) fun f mem => List.mem_append_left _ mem
  · subst here
    rw [hop_setHop, if_pos rfl]
    exact ⟨f, .inr (List.mem_append_right _ mem), signal⟩

theorem ground_onWire (s : State) (h : Nat) (f : Flit) : (onWire s h f).ground = s.ground := by
  rw [onWire_eq]; split <;> rfl

theorem ground_hopFlush (n h : Nat) (s : State) : (hopFlush n s h).ground = s.ground := by
  induction n generalizing s with
  | zero => rfl
  | succ n ih =>
    unfold hopFlush; extract_lets x
    split
    · rfl
    · split
      · rfl
      · rw [ih, ground_onWire]; rfl

theorem ground_hubSignal (s : State) (u ev : Nat) : (hubSignal s u ev).ground = s.ground := by
  unfold hubSignal; extract_lets d
  split
  · exact ground_hopFlush ..
  · rfl

/-- The spoke of a unit's die, from the hub. -/
def spokeOf (u : Nat) : Nat := 2 * (u / 32) + 1

theorem carried_hubSignal {s : State} {u k : Nat} (die : u / 32 < 4) {p : List Byte} (carried : Carried (hop s k) p) (ev : Nat) :
    Carried (hop (hubSignal s u ev) k) p := by
  unfold hubSignal; extract_lets d
  split
  · exact carried_hopSend (by omega) (.inl carried)
  · exact carried

theorem hubSignal_sends {s : State} {u : Nat} (die : u / 32 < 4) (up : linkUp s (u / 32) = true) (ev : Nat) :
    Carried (hop (hubSignal s u ev) (spokeOf u)) (signalPayload u ev false) := by
  unfold hubSignal; extract_lets d
  rw [if_pos up]
  exact carried_hopSend (by omega) (.inr ⟨rfl, _, List.mem_singleton.2 rfl, rfl, rfl, rfl⟩)

/-- Signals to units whose spokes are UP are all carried once they are sent. -/
theorem foldl_hubSignal_sends {ev : Nat} (l : List Nat) (s : State) (reached : ∀ u, u ∈ l → u / 32 < 4 ∧ linkUp s (u / 32) = true) :
    (∀ k p, Carried (hop s k) p → Carried (hop (l.foldl (fun s u => hubSignal s u ev) s) k) p) ∧
    ∀ u, u ∈ l → Carried (hop (l.foldl (fun s u => hubSignal s u ev) s) (spokeOf u)) (signalPayload u ev false) := by
  induction l generalizing s with
  | nil => exact ⟨fun k p carried => carried, fun u mem => absurd mem (by simp)⟩
  | cons v l ih =>
    obtain ⟨die, up⟩ := reached v List.mem_cons_self
    have onward : ∀ u, u ∈ l → u / 32 < 4 ∧ linkUp (hubSignal s v ev) (u / 32) = true := fun u mem => by
      rw [linkUp_of_ground (ground_hubSignal ..)]
      exact reached u (List.mem_cons_of_mem v mem)
    obtain ⟨kept, sent⟩ := ih (hubSignal s v ev) onward
    refine ⟨fun k p carried => kept k p (carried_hubSignal die carried ev), fun u mem => ?_⟩
    rcases List.mem_cons.1 mem with here | later
    · subst here; exact kept _ _ (hubSignal_sends die up ev)
    · exact sent u later

-- the start of a step (R411, R461)

theorem hop_of_hops {s t : State} (h : t.hops = s.hops) (k : Nat) : hop t k = hop s k := by rw [hop, h]; rfl

theorem mem_liveUnits_die {s : State} {u : Nat} (live : u ∈ liveUnits s) : u / 32 < dies s := by
  have inside := List.mem_range.1 (List.mem_filter.1 live).1
  omega

/-- R461: STEP_EVT is signalled to every live unit. -/
def Signalled (s t : State) : Prop := ∀ u, u ∈ liveUnits s → Carried (hop t (spokeOf u)) (signalPayload u (theImage s).stepEvt false)

/-- R461: from a part that stands on the same ground, the step is in progress, and STEP_EVT is signalled to every live unit. -/
theorem startStep_runs {s t : State} (same : t.ground = s.ground) (up : spokesUp s = true) (no : Nat) (rows : List RowRec) (sec : Bool) :
    (∃ base, (startStep t no rows sec).disp.step = some ⟨no, rows, base, sec⟩) ∧ (startStep t no rows sec).well = s.well ∧
      Signalled s (startStep t no rows sec) := by
  have live := (sameMap_of_ground same).liveUnits
  have reached : ∀ u, u ∈ liveUnits t → u / 32 < 4 ∧ linkUp t (u / 32) = true := fun u mem => by
    rw [live] at mem
    have die := mem_liveUnits_die mem
    refine ⟨die.trans_le (dies_le s), ?_⟩
    rw [linkUp_of_ground same]
    exact List.all_eq_true.1 up _ (List.mem_range.2 die)
  obtain ⟨-, sent⟩ := foldl_hubSignal_sends (ev := (theImage t).stepEvt) (liveUnits t) t reached
  have ground : ((liveUnits t).foldl (fun s u => hubSignal s u (theImage t).stepEvt) t).ground = s.ground :=
    (proj_foldl State.ground (fun s u => ground_hubSignal s u _) ..).trans same
  obtain ⟨-, -, -, -, well, -⟩ := ground_eq_iff.1 ground
  refine ⟨⟨_, rfl⟩, well, fun u mem => ?_⟩
  rw [← live] at mem
  rw [← theImage_of_ground same]
  exact sent u mem

/-- The part once the tables of the next step are written and its signals sent. -/
def stepStarted (s : State) : State :=
  startStep (writeTables (buildStep s).1 (nextStep s) (buildStep s).2.1) (nextStep s) (buildStep s).2.1 false

/-- R461: what a pair's primary tells the other package of a step is all that follows. -/
theorem exec_stepStart {s : State} (may : mayStep s = true) (works : (buildStep s).2.1.any (fun r => !r.skipped) = true) :
    ∃ s', exec .stepStart s = .next s' ∧ s'.disp = (stepStarted s).disp ∧ s'.well = (stepStarted s).well ∧
      s'.hops = (stepStarted s).hops := by
  have run : exec .stepStart s = .next (if s.paired then { stepStarted s with
      out := (stepStarted s).out ++ [.peer "STEP" (nextStep s :: (buildStep s).2.1.flatMap (peerRow (buildStep s).1))] }
      else stepStarted s) := by
    show execStepStart s = _
    rw [execStepStart, may, works]
    rfl
  refine ⟨_, run, ?_⟩
  generalize stepStarted s = t
  split <;> exact ⟨rfl, rfl, rfl⟩

theorem stepStart_starts {s : State} (may : mayStep s = true) (works : (buildStep s).2.1.any (fun r => !r.skipped) = true) :
    ∃ s' st, exec .stepStart s = .next s' ∧ s'.disp.step = some st ∧ st.no = (reg64 s Reg.stepCntLo + 1) % 2 ^ 64 ∧
      st.rows = (buildStep s).2.1 ∧ s'.well = s.well ∧ Signalled s s' := by
  have up : spokesUp s = true := by
    simp only [mayStep, Bool.and_eq_true] at may
    exact may.1.2
  have same : (writeTables (buildStep s).1 (nextStep s) (buildStep s).2.1).ground = s.ground :=
    (ground_writeTables ..).trans (ground_buildStep s)
  obtain ⟨⟨base, step⟩, well, sent⟩ := startStep_runs same up (nextStep s) (buildStep s).2.1 false
  obtain ⟨s', run, disp, kept, hops⟩ := exec_stepStart may works
  refine ⟨s', _, run, (congrArg Disp.step disp).trans step, rfl, rfl, kept.trans well, fun u mem => ?_⟩
  rw [hop_of_hops hops]
  exact sent u mem

theorem secondaryStepRows_starts {s : State} {no : Nat} {bufs pts : List (List Byte)} (buffers : bufs.length = dies s)
    (whole : ∀ b, b ∈ bufs → b.length = bufBytes s) (tables : pts.length = dies s) (secondary : isSecondary s = true)
    (ready : imgReady s = true) (idle : s.disp.step = none) (primed : s.disp.prime = .none) (run : s.gov.ps ∈ [PState.p0, .p1])
    (up : spokesUp s = true) : ∃ s' st, exec (.secondaryStepRows no bufs pts []) s = .next s' ∧ s'.disp.step = some st ∧ st.no = no ∧
      st.secondary = true ∧ Signalled s s' := by
  let t := (liveUnits s).foldl (fun t u =>
    hubWrite (hubWrite t u (bufAddr t no) (bufs.getD (u / 32) [])) u (theImage s).ptBase (pts.getD (u / 32) [])) s
  have same : t.ground = s.ground := proj_foldl State.ground (fun s u => (ground_hubWrite ..).trans (ground_hubWrite ..)) _ s
  obtain ⟨⟨base, step⟩, -, sent⟩ := startStep_runs same up no [] true
  have laid : (bufs.length == dies s && bufs.all (fun b => b.length == bufBytes s) && pts.length == dies s) = true := by
    simpa [buffers, tables] using whole
  have may : (isSecondary s && imgReady s && s.disp.step.isNone && s.disp.prime == .none && granting s.gov.ps && spokesUp s) = true := by
    simp [secondary, ready, idle, primed, granting_iff.2 run, up]
  exact ⟨_, _, (withOperand_of laid _).trans (guard_of may ..), step, rfl, rfl, sent⟩

end Sys2Proof.Machine

/-! PROOFS. The end of a model step (R395, R405, R408 to R410, R430, R461): what a completed step counts and gives its sessions, and what a
faulted one leaves. -/

namespace Sys2Proof.Machine

-- what a session keeps of its tokens (R395, R404)

/-- A session's tokens and its C, and whether it is closed. -/
def Sess.record (x : Sess) : List Nat × Nat × Bool := (x.tokens, x.comp, x.closing)

/-- A session that is not closing keeps its tokens and its C. -/
structure KeepsTokens (k : Nat) (s t : State) : Prop where
  same : (getSess s k).closing = false → (getSess t k).record = (getSess s k).record

theorem KeepsTokens.rfl {k : Nat} {s : State} : KeepsTokens k s s := ⟨fun _ => Eq.refl _⟩

theorem KeepsTokens.trans {k : Nat} {s t u : State} (h : KeepsTokens k s t) (h' : KeepsTokens k t u) : KeepsTokens k s u := ⟨fun live => by
  have same := h.same live
  have going : (getSess t k).closing = false := (congrArg (fun r => r.2.2) same).trans live
  exact (h'.same going).trans same⟩

theorem KeepsTokens.of_sess {k : Nat} {s t : State} (h : t.sess = s.sess) : KeepsTokens k s t := ⟨fun _ => by rw [getSess_of_sess h]⟩

theorem KeepsTokens.of_core {k : Nat} {s t : State}
    (h : (getSess s k).closing = false → (getSess t k).core = (getSess s k).core) : KeepsTokens k s t :=
  ⟨fun live => (congrArg Sess.record (h live) :)⟩

/-- An update of a session's other fields. -/
theorem keepsTokens_modSess (k : Nat) (s : State) (sid : Nat) {f : Sess → Sess} (other : ∀ x, (f x).record = x.record) :
    KeepsTokens k s (modSess s sid f) := ⟨fun _ => by
  rw [getSess_modSess]; split
  · rename_i here; rw [other, here]
  · rfl⟩

theorem KeepsTokens.foldl {α : Type} {k : Nat} {f : State → α → State} (h : ∀ s a, KeepsTokens k s (f s a)) (l : List α) (s : State) :
    KeepsTokens k s (l.foldl f s) := by
  induction l generalizing s with
  | nil => exact .rfl
  | cons a l ih => exact (h s a).trans (ih _)

theorem keepsTokens_pushOut (k : Nat) (s : State) (sid : Nat) (i : CqItem) : KeepsTokens k s (pushOut s sid i) :=
  .of_core fun live => core_pushOut live sid i

theorem keepsTokens_doneHead (k : Nat) (s : State) (sid reason : Nat) (data : List Byte) : KeepsTokens k s (doneHead s sid reason data) :=
  ⟨fun live => by
    have core := core_doneHead live (sid := sid) reason data
    have popped : (if k = sid then (getSess s sid).popped else getSess s k).record = (getSess s k).record := by
      split
      · rename_i here; rw [here]; rfl
      · rfl
    exact (congrArg Sess.record core).trans popped⟩

theorem keepsTokens_doneList (k reason : Nat) (l : List Frame) (s : State) : KeepsTokens k s (doneList s reason l) := by
  induction l generalizing s with
  | nil => exact .rfl
  | cons f l ih => exact KeepsTokens.trans (.of_core fun live => core_done live f reason []) (ih _)

theorem keepsTokens_textOut (k : Nat) (s : State) (sid : Nat) (bs : List Byte) : KeepsTokens k s (textOut s sid bs) :=
  .foldl (fun s _ => keepsTokens_pushOut k s sid _) ..

theorem keepsTokens_endGen (k : Nat) (s : State) (sid reason stop : Nat) : KeepsTokens k s (endGen s sid reason stop) := by
  unfold endGen; split
  · exact .rfl
  · extract_lets rel t disc u
    have released : KeepsTokens k s t := by
      show KeepsTokens k s (if rel then textOut s sid _ else s)
      split
      · exact keepsTokens_textOut ..
      · exact .rfl
    have cleared : KeepsTokens k t u := keepsTokens_modSess k t sid fun _ => rfl
    exact (released.trans cleared).trans (keepsTokens_doneHead ..)

theorem keepsTokens_faultSess (k : Nat) (s : State) (sid : Nat) : KeepsTokens k s (faultSess s sid) := by
  unfold faultSess; extract_lets x t u y v
  split
  · exact .rfl
  · have ended : KeepsTokens k s u := (keepsTokens_endGen k s sid 0xD 0xFFFFFFFF).trans (.of_sess (by
      show (if x.busy then dropJob t sid x.qp else t).sess = t.sess
      split <;> rfl))
    have cleared : KeepsTokens k u v := keepsTokens_modSess k u sid fun _ => rfl
    exact (ended.trans cleared).trans (keepsTokens_doneList ..)

theorem textReads_sess (l : List Nat) (s : State) : (textReads s l).1.sess = s.sess := by
  induction l generalizing s with
  | nil => rfl
  | cons w l ih =>
    rw [textReads]; split
    · exact ih s
    · rw [ih]; rfl
    · rfl

theorem textReadsOf_sess (s : State) (l : List Nat) : (textReadsOf s l).1.sess = s.sess := by
  unfold textReadsOf; split
  · rfl
  · exact textReads_sess l s

theorem textUe_sess (s : State) (w sid : Nat) : (textUe s w sid).sess = s.sess := (reportFrame_pushRec ..).rings.2

theorem textRepair_sess (s : State) : (textRepair s).sess = s.sess := by unfold textRepair; split <;> rfl

theorem keepsTokens_standpipe (k : Nat) (s : State) (sid t : Nat) : KeepsTokens k s (standpipe s sid t) := by
  unfold standpipe; extract_lets c x e
  have read : KeepsTokens k s c.1 := .of_sess (textReadsOf_sess ..)
  split
  · exact ((read.trans (.of_sess (textUe_sess ..))).trans (keepsTokens_faultSess ..)).trans (.of_sess (textRepair_sess _))
  · exact read
  · extract_lets sp r
    split
    · extract_lets u v
      have counted : KeepsTokens k s u := (read.trans (keepsTokens_textOut ..)).trans (.of_sess rfl)
      have emptied : KeepsTokens k u v := keepsTokens_modSess k u sid fun _ => rfl
      exact (counted.trans emptied).trans (keepsTokens_endGen ..)
    · exact (read.trans (keepsTokens_textOut ..)).trans (keepsTokens_modSess _ _ _ fun _ => rfl)

theorem keepsTokens_endByLength (k : Nat) (s : State) (sid : Nat) : KeepsTokens k s (endByLength s sid) := by
  unfold endByLength; extract_lets x
  split
  · exact .rfl
  · split
    · exact keepsTokens_endGen ..
    · split
      · exact keepsTokens_endGen ..
      · exact .rfl

/-- R395, R405: a decode row's token, one of the vocabulary, follows the session's, and C passes its position. -/
theorem decoded_appends {s : State} {sid pos v : Nat} {g : Gen} (live : (getSess s sid).closing = false)
    (going : (getSess s sid).gen = some g) (known : v < (theImage s).vocab) (word : v < 2 ^ 32 - 1) :
    (getSess (decoded s sid pos v) sid).tokens = (getSess s sid).tokens ++ [v] ∧
      (getSess (decoded s sid pos v) sid).comp = max (getSess s sid).comp (pos + 1) := by
  have passed : getSess (modSess s sid (fun x => { x with comp := max x.comp (pos + 1) })) sid =
      { getSess s sid with comp := max (getSess s sid).comp (pos + 1) } := (getSess_modSess ..).trans (if_pos rfl)
  unfold decoded; extract_lets n t w x
  have taken : w = v := if_pos known
  rw [if_neg (by omega)]
  split
  · rename_i none_; exact absurd (none_.symm.trans ((congrArg Sess.gen passed).trans going)) (by simp)
  · rename_i g' _
    extract_lets u y
    have stored : getSess u sid = { x with tokens := x.tokens ++ [w], gen := some { g' with count := g'.count + 1 } } :=
      (getSess_setSess ..).trans (if_pos rfl)
    have first : (getSess u sid).record = ((getSess s sid).tokens ++ [v], max (getSess s sid).comp (pos + 1), false) := by
      rw [stored, taken, ← live]
      show ((getSess t sid).tokens ++ [v], (getSess t sid).comp, (getSess t sid).closing) = _
      rw [passed]
    have printed : KeepsTokens sid u y := by
      show KeepsTokens sid u (if _ then pushOut u sid _ else u)
      split
      · exact keepsTokens_pushOut ..
      · exact .rfl
    have later (z : State) (kept : KeepsTokens sid y z) : (getSess z sid).tokens = (getSess s sid).tokens ++ [v] ∧
        (getSess z sid).comp = max (getSess s sid).comp (pos + 1) := by
      have same := ((printed.trans kept).same (congrArg (fun r => r.2.2) first)).trans first
      exact ⟨congrArg Prod.fst same, congrArg (fun r => r.2.1) same⟩
    split
    · exact later _ (keepsTokens_endGen ..)
    · refine later _ (KeepsTokens.trans ?_ (keepsTokens_endByLength ..))
      split
      · exact .rfl
      · exact keepsTokens_standpipe ..

-- completion (R461)

/-- Where no cistern word is in error, the hub's reads change nothing. -/
theorem hubRead_of_clean {s : State} (clean : s.cistErr = []) (u a : Nat) : (hubRead s u a).1 = s := by
  show (cistCheck s 3 (marked s.cistErr 8 (gaddr u a) 4)).1 = s
  rw [clean]
  rfl

theorem readReports_of_clean {s : State} (clean : s.cistErr = []) (us : List Nat) (no : Nat) : readReports s us no = s := by
  unfold readReports
  induction us with
  | nil => rfl
  | cons u us ih => rw [List.foldl_cons, hubRead_of_clean clean, ih]

theorem readOuts_of_clean {s : State} (clean : s.cistErr = []) (no : Nat) (rows : List Nat) : (readOuts s no rows).1 = s := by
  unfold readOuts
  generalize ([] : Tab Nat) = outs
  induction rows generalizing outs with
  | nil => rfl
  | cons r rows ih =>
    rw [List.foldl_cons]
    cases sampler s r with
    | none => exact ih outs
    | some u =>
      have same : (hubRead s u (outAddr s no r)).1 = s := hubRead_of_clean clean ..
      simp only [same]
      exact ih _

/-- A step that may complete (R461). -/
structure MayComplete (s : State) (st : StepRec) (peer : Option (Tab Nat)) : Prop where
  step : s.disp.step = some st
  done : stepDone s st = true
  sound : stepReport s st = false
  quiet : s.disp.faultSeen = false
  told : peerDone s st peer = true
  text : s.text.repair = []
  run : s.gov.ps ∈ [PState.p0, .p1]
  up : spokesUp s = true
  clean : s.cistErr = []

/-- R461: the part with its step over and counted, before the rows' output. -/
def stepCounted (s : State) (st : StepRec) : State :=
  setReg (addReg64 { s with disp := { s.disp with step := none } } Reg.stepCntLo 1) Reg.rowsBusy (rowsBusyOf st.rows)

/-- R461: what the stations wrote as OUT, as this package reads it. -/
def outsOf (s : State) (st : StepRec) : Tab Nat := (readOuts s st.no (outRows s st)).2

theorem reg64_addReg64 {lo : Nat} (s : State) (n : Nat) : reg64 (addReg64 s lo n) lo = (reg64 s lo + n) % 2 ^ 64 := by
  have bound : (reg64 s lo + n) % 2 ^ 64 < 2 ^ 64 := Nat.mod_lt _ (by decide)
  unfold addReg64; extract_lets v
  rw [reg64, reg_setReg_self (by omega), reg_setReg_ne (by omega), reg_setReg_self (by omega)]
  omega

theorem reg64_stepCounted (s : State) (st : StepRec) :
    reg64 (stepCounted s st) Reg.stepCntLo = (reg64 s Reg.stepCntLo + 1) % 2 ^ 64 := by
  rw [stepCounted, reg64, reg_setReg_ne (by decide), reg_setReg_ne (by decide)]
  exact reg64_addReg64 ..

/-- R461: the step ends; its rows' output follows, after what a secondary tells the primary. -/
theorem exec_stepComplete {s : State} {st : StepRec} {peer : Option (Tab Nat)} (may : MayComplete s st peer) :
    ∃ t out, t = { stepCounted s st with out := out } ∧
      exec (.stepComplete peer) s = .next (retarget (st.rows.foldl (finishRow (outsOf s st) (peer.getD []) s) t)) := by
  obtain ⟨step, done, sound, quiet, told, text, run, up, clean⟩ := may
  have ends : (stepDone s st && !stepReport s st && !s.disp.faultSeen && peerDone s st peer && s.text.repair.isEmpty &&
      granting s.gov.ps && spokesUp s) = true := by simp [done, sound, quiet, told, text, granting_iff.2 run, up]
  have form (t : State) (c : Prop) [Decidable c] (o : List OutMsg) : ∃ out, (if c then { t with out := o } else t) = { t with out := out } := by
    split
    · exact ⟨o, rfl⟩
    · exact ⟨t.out, rfl⟩
  obtain ⟨out, same⟩ := form (stepCounted s st) (st.secondary = true)
    ((stepCounted s st).out ++ [.peer "STEP_DONE" ((outsOf s st).flatMap (fun p => [p.1, p.2]))])
  refine ⟨_, out, same, ?_⟩
  show execStepComplete peer s = _
  unfold execStepComplete
  simp only [step, readReports_of_clean clean, readOuts_of_clean clean]
  rw [ends, if_neg (by simp [quiet])]
  rfl

theorem stepComplete_counts {s : State} {st : StepRec} {peer : Option (Tab Nat)} (may : MayComplete s st peer) :
    ∃ s', exec (.stepComplete peer) s = .next s' ∧ s'.disp.step = none ∧
      reg64 s' Reg.stepCntLo = (reg64 s Reg.stepCntLo + 1) % 2 ^ 64 ∧ s'.stns = s.stns ∧ s'.cist = s.cist ∧ s'.well = s.well := by
  obtain ⟨t, out, form, run⟩ := exec_stepComplete may
  refine ⟨_, run, ?_⟩
  have ground : (retarget (st.rows.foldl (finishRow (outsOf s st) (peer.getD []) s) t)).ground = t.ground :=
    (ground_retarget _).trans (proj_foldl State.ground (ground_finishRow (outsOf s st) (peer.getD []) s) ..)
  have rams : (retarget (st.rows.foldl (finishRow (outsOf s st) (peer.getD []) s) t)).rams = t.rams := by simp
  have reg_ {a : Nat} (named : a ∈ groundRegs) := reg_of_ground ground named
  obtain ⟨-, -, -, stns, well, step, -, -⟩ := ground_eq_iff.1 ground
  obtain ⟨cist, -⟩ := rams_eq_iff.1 rams
  subst form
  refine ⟨step, ?_, stns, cist, well⟩
  rw [reg64, reg_ (by decide), reg_ (by decide)]
  exact reg64_stepCounted s st

theorem stepComplete_decodes {s : State} {st : StepRec} {peer : Option (Tab Nat)} (may : MayComplete s st peer) {r : RowRec} {v : Nat}
    (rows : st.rows = [r]) (kind : r.kind = 2) (served : r.skipped = false) (open_ : (getSess s r.sid).isOpen = true)
    (live : (getSess s r.sid).closing = false) (sound : (getSess s r.sid).faulted = false) (own : (getSess s r.sid).inc = r.inc)
    (going : (getSess s r.sid).gen.isSome) (out_ : outOf s (outsOf s st) (peer.getD []) r.row = v) (known : v < (theImage s).vocab)
    (word : v < 2 ^ 32 - 1) : ∃ s', exec (.stepComplete peer) s = .next s' ∧
      (getSess s' r.sid).tokens = (getSess s r.sid).tokens ++ [v] ∧ (getSess s' r.sid).comp = max (getSess s r.sid).comp (r.pos + 1) := by
  obtain ⟨t, out, form, run⟩ := exec_stepComplete may
  have same : getSess t r.sid = getSess s r.sid := by rw [form]; rfl
  have image : theImage t = theImage s := by rw [form]; rfl
  obtain ⟨g, gen⟩ := Option.isSome_iff_exists.1 going
  have row : finishRow (outsOf s st) (peer.getD []) s t r = decoded t r.sid r.pos v := by
    have serves : rowLive t r = true := by simp [rowLive, same, own, servable, open_, sound]
    simp [finishRow, served, serves, kind, same, gen, out_]
  rw [rows, List.foldl_cons, List.foldl_nil, row] at run
  have retargeted (v : State) : (retarget v).sess = v.sess := by unfold retarget; split <;> rfl
  obtain ⟨tokens, comp⟩ := decoded_appends (s := t) (pos := r.pos) (v := v) (by rw [same]; exact live) (by rw [same]; exact gen)
    (by rw [image]; exact known) word
  rw [same] at tokens comp
  refine ⟨_, run, ?_⟩
  rw [getSess_of_sess (retargeted _)]
  exact ⟨tokens, comp⟩

-- faults (R409, R410)

/-- R410: a faulted step is over and counted, and priming is due. -/
theorem stepFault_ends {s : State} (st : StepRec) (told : Bool) (room : reg s Reg.faultCnt < 2 ^ 32 - 1) :
    (stepFault s st told).disp.step = none ∧ (stepFault s st told).disp.prime = .due .fault ∧
      reg (stepFault s st told) Reg.faultCnt = reg s Reg.faultCnt + 1 := by
  unfold stepFault; extract_lets disp t u v w
  have ended : u.ground = t.ground := proj_foldl State.ground ground_faultSess ..
  have first : t.disp.step = none := rfl
  have before : reg t Reg.faultCnt = reg s Reg.faultCnt := rfl
  clear_value t
  have count : reg u Reg.faultCnt = reg s Reg.faultCnt := (reg_of_ground ended (by decide)).trans before
  obtain ⟨-, -, -, -, -, ends, -, -⟩ := ground_eq_iff.1 ended
  rw [first] at ends
  clear_value u
  have marked_ : v.ground = (addReg u Reg.faultCnt 1).ground := ground_setEvt ..
  have counted : reg v Reg.faultCnt = reg s Reg.faultCnt + 1 := by
    rw [reg_of_ground marked_ (by decide), reg_addReg_one (by omega), count]
  have still : v.disp.step = none := (ground_eq_iff.1 marked_).2.2.2.2.2.1.trans ends
  clear_value v
  have told_ : w.disp = v.disp ∧ w.regs = v.regs := by
    show (if _ then _ else v).disp = _ ∧ (if _ then _ else v).regs = _
    split <;> exact ⟨rfl, rfl⟩
  obtain ⟨wdisp, wregs⟩ := told_
  clear_value w
  have disp_ (x : State) : (retarget (resetAll x)).disp = x.disp := by
    have reset : (resetAll x).disp = x.disp := congrArg Prod.fst (resetAll_hubOnly x)
    unfold retarget; split <;> exact reset
  have reg_ (x : State) : reg (retarget (resetAll x)) Reg.faultCnt = reg x Reg.faultCnt :=
    (reg_of_ground (ground_retarget _) (by decide)).trans (reg_resetAll (by decide) x)
  refine ⟨?_, ?_, ?_⟩
  · rw [disp_]; exact (congrArg Disp.step wdisp).trans still
  · rw [disp_]
  · rw [reg_]; exact (reg_of_regs wregs _).trans counted

/-- The watchdog ends a step in progress, unless its time stands still (R364). -/
theorem stepWatchdog_ends {s : State} {st : StepRec} (step : s.disp.step = some st) (stretch : s.gov.stretch = false)
    (therm : s.gov.thermStop = false) (room : reg s Reg.faultCnt < 2 ^ 32 - 1) : ∃ s', exec .stepWatchdog s = .next s' ∧
      s'.disp.step = none ∧ s'.disp.prime = .due .fault ∧ reg s' Reg.faultCnt = reg s Reg.faultCnt + 1 := by
  let t := timeoutRec s st.no (fun u => doneOf s u == tabGet 0 st.base u)
  have run : exec .stepWatchdog s = .next (stepFault t st false) := by
    show execStepWatchdog s = _
    simp only [execStepWatchdog, step]
    exact guard_of (by simp [wdogPaused, stretch, therm]) ..
  have count : reg t Reg.faultCnt = reg s Reg.faultCnt := reg_of_ground (ground_pushRec ..) (by decide)
  have ends := stepFault_ends st false (by rw [count]; exact room)
  rw [count] at ends
  exact ⟨_, run, ends⟩

theorem stepFault_own {s : State} {st : StepRec} (step : s.disp.step = some st) (seen : s.disp.faultSeen = true)
    (room : reg s Reg.faultCnt < 2 ^ 32 - 1) : ∃ s', exec (.stepFault false) s = .next s' ∧
      s'.disp.step = none ∧ s'.disp.prime = .due .fault ∧ reg s' Reg.faultCnt = reg s Reg.faultCnt + 1 := by
  let t := if stepReport s st then readReports s (liveUnits s) st.no else s
  have run : exec (.stepFault false) s = .next (stepFault t st false) := by
    show execStepFault false s = _
    simp only [execStepFault, step, seen]
    rfl
  have ground : t.ground = s.ground := by
    show (if _ then _ else s).ground = _
    rw [ground_ite, ground_readReports, ite_self]
  have count : reg t Reg.faultCnt = reg s Reg.faultCnt := reg_of_ground ground (by decide)
  have ends := stepFault_ends st false (by rw [count]; exact room)
  rw [count] at ends
  exact ⟨_, run, ends⟩

/-- Settles O43: the start of a step here and on a secondary, its completion, and its faults. -/
theorem modelStepsRunAndEnd : Obligations.ModelStepsRunAndEnd := by
  unfold Obligations.ModelStepsRunAndEnd
  intro s
  refine ⟨stepStart_starts, fun no bufs pts => secondaryStepRows_starts, fun st peer step done sound quiet told text run up clean => ?_,
    fun st c named step stretch therm seen room => ?_⟩
  · have may : MayComplete s st peer := ⟨step, done, sound, quiet, told, text, run, up, clean⟩
    exact ⟨stepComplete_counts may, fun r v => stepComplete_decodes may⟩
  · rcases List.mem_pair.1 named with watchdog | fault
    · subst watchdog; exact stepWatchdog_ends step stretch therm room
    · subst fault; exact stepFault_own step seen room

end Sys2Proof.Machine

/-! PROOFS. The Timebase (R464, R466 to R468): its tick, a measurement and the step it makes when one is due, the edges of PPS_IN, and
the writes that make a step due. -/

namespace Sys2Proof.Machine

-- integers as words

theorem unsigned_lt (w : Nat) (x : Int) : unsigned w x < 2 ^ w := by
  have pos : (0 : Int) < ((2 ^ w : Nat) : Int) := Int.natCast_pos.2 (Nat.two_pow_pos w)
  have low := Int.emod_nonneg x pos.ne'
  have high := Int.emod_lt_of_pos x pos
  unfold unsigned; omega

theorem unsigned_natCast {w n : Nat} (h : n < 2 ^ w) : unsigned w (n : Int) = n := by
  rw [unsigned, ← Int.natCast_mod, Int.toNat_natCast, Nat.mod_eq_of_lt h]

/-- A θ below 2^31 ns in size is short of where TIME_OFFSET sticks (Table 15.3), so its whole ns are stored, truncated (log 52). -/
theorem offsetWord_tdiv {th : Int} (h : th.natAbs < 2 ^ 47) : offsetWord (Int.tdiv th 65536) = unsigned 32 (Int.tdiv th 65536) := by
  have size : (Int.tdiv th 65536).natAbs < 2 ^ 31 := by
    rw [Int.natAbs_tdiv]
    exact Nat.div_lt_of_lt_mul h
  rw [offsetWord, satI, if_neg (by omega), if_neg (by omega)]

-- events (R484)

theorem FloatFrame.time_sump {s t : State} (h : FloatFrame s t) : t.time = s.time ∧ t.sump = s.sump := by
  unfold FloatFrame at h
  have field {α : Type} (f : State → α) := congrArg f h
  exact ⟨field State.time, field State.sump⟩

@[simp] theorem setEvt_time (s : State) (b : Nat) : (setEvt s b).time = s.time := (floatFrame_setEvt s b).time_sump.1
@[simp] theorem setEvt_sump (s : State) (b : Nat) : (setEvt s b).sump = s.sump := (floatFrame_setEvt s b).time_sump.2

-- the tick (R464)

/-- R464: the time and its part below 2^−16 ns, taken together, advance by 65,536 × (1 + ρ) units. -/
theorem tick_advances (b : TimeB) : (((tick b).time * 2 ^ 48 + (tick b).sub : Nat) : Int) =
    (((b.time * 2 ^ 48 + b.sub + 65536 * 2 ^ 48 : Nat) : Int) + 65536 * b.rho) % 2 ^ 128 := by
  have split_ (y : Nat) : y / 2 ^ 48 * 2 ^ 48 + y % 2 ^ 48 = y := Nat.div_add_mod' y (2 ^ 48)
  unfold tick; extract_lets x y
  rw [split_]
  exact Int.toNat_of_nonneg (Int.emod_nonneg x (by decide))

theorem timeTick_advances {s : State} (on : s.gov.ps ≠ .p4) : ∃ s', exec .timeTick s = .next s' ∧ { s' with time := s.time } = s ∧
    ((s'.time.time * 2 ^ 48 + s'.time.sub : Nat) : Int) =
      (((s.time.time * 2 ^ 48 + s.time.sub + 65536 * 2 ^ 48 : Nat) : Int) + 65536 * s.time.rho) % 2 ^ 128 ∧ s'.time.rho = s.time.rho :=
  ⟨{ s with time := tick s.time }, guard_of (by simp [on]) .., rfl, tick_advances s.time, rfl⟩

-- the servo (R468)

@[simp] theorem servoGo_time (s : State) (v : Servo) :
    (servoGo s v).time = { s.time with servo := v, count := 0, good := 0 } := setEvt_time ..

theorem reg_servoGo {a : Nat} (h : a ≠ Reg.evtStatus) (s : State) (v : Servo) : reg (servoGo s v) a = reg s a := reg_setEvt_ne h ..

theorem servoHoldover_restarts {s : State} (h : s.time.servo ∈ [Servo.locking, .locked]) : ∃ s', exec .servoHoldover s = .next s' ∧
    s'.time.servo = .holdover ∧ s'.time.count = 0 ∧ s'.time.time = s.time.time ∧ s'.time.rho = s.time.rho := by
  have held : (s.time.servo == .locking || s.time.servo == .locked) = true := by
    rcases List.mem_pair.1 h with locking | locked <;> simp [*]
  exact ⟨_, guard_of held .., by simp⟩

-- steps (R467)

theorem timeStep_time (s : State) (th : Int) : ∃ last, (timeStep s th).time =
    { s.time with time := unsigned 80 ((s.time.time : Int) + th), stepDue := false, offset := 0, ppsLast := last } :=
  ⟨_, setEvt_time ..⟩

/-- R467: a step is counted. -/
theorem reg_timeStep_count {s : State} (room : reg s Reg.timeStepCnt < 2 ^ 32 - 1) (th : Int) :
    reg (timeStep s th) Reg.timeStepCnt = reg s Reg.timeStepCnt + 1 := by
  unfold timeStep; extract_lets t last b stepped
  have same : reg (setField stepped Reg.timeCtl 2 2 0) Reg.timeStepCnt = reg s Reg.timeStepCnt := reg_setReg_ne (by decide) ..
  rw [reg_setEvt_ne (by decide), reg_addReg_one (by rw [same]; exact room), same]

theorem reg_timeStep_ne {a : Nat} (ctl : a ≠ Reg.timeCtl) (cnt : a ≠ Reg.timeStepCnt) (evt : a ≠ Reg.evtStatus)
    (s : State) (th : Int) : reg (timeStep s th) a = reg s a := by
  unfold timeStep; simp only []
  rw [reg_setEvt_ne evt, reg_addReg_ne cnt, setField, reg_setReg_ne ctl]; rfl

-- measurements (R467, R468)

/-- The part once θ is stored and the step or the slew made, before the servo moves on. -/
def measured (s : State) (th : Int) : State :=
  let s := setReg s Reg.timeOffset (offsetWord (Int.tdiv th 65536))
  if s.time.stepDue then timeStep s th else timeSlew s th

/-- R468: what the servo then does touches its state and its counts alone, and EVT_STATUS. -/
theorem measure_after_measured (s : State) (th : Int) :
    (∃ v c g, (measure s th).time = { (measured s th).time with servo := v, count := c, good := g }) ∧
      ∀ a, a ≠ Reg.evtStatus → reg (measure s th) a = reg (measured s th) a := by
  unfold measure; simp only []
  split
  · exact ⟨⟨_, _, _, servoGo_time ..⟩, fun a h => reg_servoGo h ..⟩
  · exact ⟨⟨_, _, _, rfl⟩, fun _ _ => rfl⟩

theorem measured_of_stepDue {s : State} (due : s.time.stepDue = true) (th : Int) :
    measured s th = timeStep (setReg s Reg.timeOffset (offsetWord (Int.tdiv th 65536))) th := if_pos due

/-- R467: where a step is due, the measurement makes it, and no other is. -/
theorem measure_steps {s : State} (due : s.time.stepDue = true) (th : Int) :
    (measure s th).time.time = unsigned 80 ((s.time.time : Int) + th) ∧ (measure s th).time.stepDue = false ∧
      (measure s th).time.todArmed = s.time.todArmed := by
  obtain ⟨⟨v, c, g, time⟩, -⟩ := measure_after_measured s th
  obtain ⟨last, stepped⟩ := timeStep_time (setReg s Reg.timeOffset (offsetWord (Int.tdiv th 65536))) th
  rw [time, measured_of_stepDue due, stepped]
  exact ⟨rfl, rfl, rfl⟩

theorem reg_measure_stepCnt {s : State} (due : s.time.stepDue = true) (room : reg s Reg.timeStepCnt < 2 ^ 32 - 1) (th : Int) :
    reg (measure s th) Reg.timeStepCnt = reg s Reg.timeStepCnt + 1 := by
  obtain ⟨-, regs⟩ := measure_after_measured s th
  have same (v : Nat) : reg (setReg s Reg.timeOffset v) Reg.timeStepCnt = reg s Reg.timeStepCnt := reg_setReg_ne (by decide) ..
  rw [regs _ (by decide), measured_of_stepDue due, reg_timeStep_count (by rw [same]; exact room), same]

theorem reg_measured {a : Nat} (ctl : a ≠ Reg.timeCtl) (cnt : a ≠ Reg.timeStepCnt) (evt : a ≠ Reg.evtStatus) (s : State) (th : Int) :
    reg (measured s th) a = reg (setReg s Reg.timeOffset (offsetWord (Int.tdiv th 65536))) a := by
  unfold measured; extract_lets stored; split
  · exact reg_timeStep_ne ctl cnt evt ..
  · rfl

/-- R470: TIME_OFFSET holds the θ of the measurement, step or slew. -/
theorem reg_measure_offset (s : State) (th : Int) : reg (measure s th) Reg.timeOffset = offsetWord (Int.tdiv th 65536) := by
  obtain ⟨-, regs⟩ := measure_after_measured s th
  rw [regs _ (by decide), reg_measured (by decide) (by decide) (by decide)]
  exact reg_setReg_self (unsigned_lt 32 _) ..

/-- The registers a measurement may write: TIME_OFFSET, with a step TIME_CTL and TIME_STEP_CNT, and EVT_STATUS. -/
def measureRegs : List Nat := [Reg.timeOffset, Reg.timeCtl, Reg.timeStepCnt, Reg.evtStatus]

theorem reg_measure_ne {a : Nat} (h : a ∉ measureRegs) (s : State) (th : Int) : reg (measure s th) a = reg s a := by
  simp only [measureRegs, List.mem_cons, List.not_mem_nil, or_false, not_or] at h
  obtain ⟨offset, ctl, cnt, evt⟩ := h
  obtain ⟨-, regs⟩ := measure_after_measured s th
  rw [regs a evt, reg_measured ctl cnt evt, reg_setReg_ne offset]

theorem timeSrc_eq (s : State) : timeSrc s = reg s Reg.timeCtl % 4 := rfl

-- PTM (R466)

/-- A step by the distance to a time sets the time to it. -/
theorem timeNs_of_stepped {s s' : State} {m : Nat} (small : m < 2 ^ 64)
    (stepped : s'.time.time = unsigned 80 ((s.time.time : Int) + (((m * 65536 : Nat) : Int) - s.time.time))) : timeNs s' = m := by
  rw [timeNs, stepped, add_sub_cancel, unsigned_natCast (by omega), Nat.mul_div_cancel _ (by decide)]

theorem ptmMeasure_steps {s : State} {m : Nat} {th : Int} (on : s.gov.ps ≠ .p4) (ptm : reg s Reg.timeCtl % 4 = 1)
    (enabled : regBit s Reg.hostLink 13 = true) (due : s.time.stepDue = true) (master : m < 2 ^ 31) (device : timeNs s < 2 ^ 31)
    (room : reg s Reg.timeStepCnt < 2 ^ 32 - 1) (theta : th = ((m * 65536 : Nat) : Int) - s.time.time) :
    ∃ s', exec (.ptmMeasure (some m)) s = .next s' ∧ timeNs s' = m ∧ s'.time.stepDue = false ∧
      reg s' Reg.timeStepCnt = reg s Reg.timeStepCnt + 1 ∧ reg s' Reg.timeOffset = unsigned 32 (Int.tdiv th 65536) := by
  have run : exec (.ptmMeasure (some m)) s = .next (measure s th) := by
    have may : (timeSrc s == 1 && s.gov.ps != .p4) = true := by simp [timeSrc_eq, ptm, on]
    refine (guard_of may ..).trans ?_
    simp only [enabled, if_true, theta, Nat.mod_eq_of_lt (show m < 2 ^ 64 by omega)]
  obtain ⟨time, done, -⟩ := measure_steps due th
  have near : th.natAbs < 2 ^ 47 := by unfold timeNs at device; omega
  exact ⟨_, run, timeNs_of_stepped (s := s) (by omega) (theta ▸ time), done, reg_measure_stepCnt due room th,
    (reg_measure_offset s th).trans (offsetWord_tdiv near)⟩

/-- A dialogue that fails gives no measurement. -/
theorem ptmMeasure_none (s : State) : exec (.ptmMeasure none) s = .next s := ite_self _

-- PPS (R466)

/-- R466: the time the edge was expected at, if one was given for it or for an earlier one. -/
def edgeWant (s : State) : Option Nat := if s.time.todArmed then some (reg64 s Reg.timeTodLo) else s.time.ppsNext

/-- The Timebase once the edge has been noted: a good one takes the time of day that was given. -/
def edgeTime (s : State) : TimeB :=
  let b := if ppsGood s then { s.time with todArmed := false, ppsNext := (edgeWant s).map (fun e => (e + 1000000000) % 2 ^ 64) } else s.time
  { b with ppsLast := some (timeNs s) }

/-- R466: the device time latched into TIME_PPS. -/
def edgeNoted (s : State) : State :=
  setReg (setReg { s with time := edgeTime s } Reg.timePpsLo (timeNs s % 2 ^ 32)) Reg.timePpsHi (timeNs s / 2 ^ 32)

/-- R466: the part after an edge. -/
def edgeEnd (s : State) : State :=
  if timeSrc s ≠ 2 then edgeNoted s
  else if ppsGood s then (edgeWant s).elim (edgeNoted s) (fun e => measure (edgeNoted s) (((e : Int) - timeNs s) * 65536))
  else addReg (edgeNoted s) Reg.timePpsBadCnt 1

theorem exec_ppsEdge {s : State} (on : s.gov.ps ≠ .p4) : exec .ppsEdge s = .next (edgeEnd s) := by
  refine (guard_of (by simp [on]) ..).trans (congrArg _ ?_)
  show (if timeSrc s ≠ 2 then edgeNoted s else if !ppsGood s then addReg (edgeNoted s) Reg.timePpsBadCnt 1 else
    match edgeWant s with
    | some e => measure (edgeNoted s) (((e : Int) - timeNs s) * 65536)
    | none => edgeNoted s) = edgeEnd s
  unfold edgeEnd
  cases ppsGood s
  · rfl
  · cases edgeWant s <;> rfl

theorem reg_edgeEnd {a : Nat} (measure_ : a ∉ measureRegs) (bad : a ≠ Reg.timePpsBadCnt) (s : State) :
    reg (edgeEnd s) a = reg (edgeNoted s) a := by
  unfold edgeEnd; split
  · rfl
  · split
    · cases edgeWant s with
      | none => rfl
      | some e => exact reg_measure_ne measure_ ..
    · exact reg_addReg_ne bad ..

theorem reg_edgeNoted_lo (s : State) : reg (edgeNoted s) Reg.timePpsLo = timeNs s % 2 ^ 32 :=
  (reg_setReg_ne (by decide) ..).trans (reg_setReg_self (Nat.mod_lt _ (by decide)) ..)

theorem reg_edgeNoted_hi (s : State) : reg (edgeNoted s) Reg.timePpsHi = timeNs s / 2 ^ 32 % 2 ^ 32 := by
  rw [edgeNoted, reg_setReg, if_pos rfl]

/-- R466: a bad edge is counted; it leaves the Timebase as it is but for the time of the last edge (log 31). -/
theorem edgeEnd_of_bad {s : State} (pps : reg s Reg.timeCtl % 4 = 2) (bad : ppsGood s = false)
    (room : reg s Reg.timePpsBadCnt < 2 ^ 32 - 1) : (edgeEnd s).time = { s.time with ppsLast := some (timeNs s) } ∧
      reg (edgeEnd s) Reg.timePpsBadCnt = reg s Reg.timePpsBadCnt + 1 := by
  have end_ : edgeEnd s = addReg (edgeNoted s) Reg.timePpsBadCnt 1 := by simp [edgeEnd, timeSrc_eq, pps, bad]
  have same : reg (edgeNoted s) Reg.timePpsBadCnt = reg s Reg.timePpsBadCnt :=
    (reg_setReg_ne (by decide) ..).trans (reg_setReg_ne (by decide) ..)
  have time : (edgeNoted s).time = { s.time with ppsLast := some (timeNs s) } := by
    show edgeTime s = _
    simp [edgeTime, bad]
  rw [end_, reg_addReg_one (by rw [same]; exact room), same]
  exact ⟨time, rfl⟩

/-- R466, R467: a good edge that a time of day was given for steps to it: θ is counted from the whole ns of the edge, so the
fraction stays. -/
theorem edgeEnd_of_timeOfDay {s : State} (pps : reg s Reg.timeCtl % 4 = 2) (good : ppsGood s = true) (armed : s.time.todArmed = true)
    (due : s.time.stepDue = true) : timeNs (edgeEnd s) = reg64 s Reg.timeTodLo ∧ (edgeEnd s).time.todArmed = false ∧
      (edgeEnd s).time.stepDue = false := by
  have end_ : edgeEnd s = measure (edgeNoted s) (((reg64 s Reg.timeTodLo : Int) - timeNs s) * 65536) := by
    simp [edgeEnd, timeSrc_eq, pps, good, edgeWant, armed]
  have noted : (edgeNoted s).time.time = s.time.time ∧ (edgeNoted s).time.stepDue = true ∧ (edgeNoted s).time.todArmed = false := by
    show (edgeTime s).time = _ ∧ (edgeTime s).stepDue = _ ∧ (edgeTime s).todArmed = _
    simp [edgeTime, good, due]
  obtain ⟨sameTime, stillDue, disarmed⟩ := noted
  obtain ⟨time, done, tod⟩ := measure_steps stillDue (((reg64 s Reg.timeTodLo : Int) - timeNs s) * 65536)
  rw [end_]
  refine ⟨?_, tod.trans disarmed, done⟩
  have word : reg64 s Reg.timeTodLo < 2 ^ 64 := by
    have lo := reg_lt s Reg.timeTodLo
    have hi := reg_lt s (Reg.timeTodLo + 1)
    unfold reg64; omega
  generalize reg64 s Reg.timeTodLo = e at word time ⊢
  have target : (s.time.time : Int) + ((e : Int) - timeNs s) * 65536 = ((e * 65536 + s.time.time % 65536 : Nat) : Int) := by
    unfold timeNs; omega
  rw [timeNs, time, sameTime, target, unsigned_natCast (by omega)]
  omega

theorem ppsEdge_latches {s : State} (on : s.gov.ps ≠ .p4) : ∃ s', exec .ppsEdge s = .next s' ∧
    reg s' Reg.timePpsLo = timeNs s % 2 ^ 32 ∧ reg s' Reg.timePpsHi = timeNs s / 2 ^ 32 % 2 ^ 32 ∧
    (reg s Reg.timeCtl % 4 = 2 → ppsGood s = false → reg s Reg.timePpsBadCnt < 2 ^ 32 - 1 →
      s'.time = { s.time with ppsLast := some (timeNs s) } ∧ reg s' Reg.timePpsBadCnt = reg s Reg.timePpsBadCnt + 1) ∧
    (reg s Reg.timeCtl % 4 = 2 → ppsGood s = true → s.time.todArmed = true → s.time.stepDue = true →
      timeNs s' = reg64 s Reg.timeTodLo ∧ s'.time.todArmed = false ∧ s'.time.stepDue = false) :=
  ⟨_, exec_ppsEdge on, (reg_edgeEnd (by decide) (by decide) s).trans (reg_edgeNoted_lo s),
    (reg_edgeEnd (by decide) (by decide) s).trans (reg_edgeNoted_hi s), edgeEnd_of_bad, edgeEnd_of_timeOfDay⟩

-- the writes that make a step due (R467, R468)

/-- A written SRC of 3 is stored as 0 (Table 15.3), so what is stored fits its two bits. -/
theorem storedSrc_lt (v : Nat) : (if v % 4 = 3 then 0 else v % 4) < 4 := by split <;> omega

/-- TIME_CTL as it is stored: SRC, with 3 as 0, and STEP_REQ, which stays until the step is made (Table 15.3). -/
theorem reg_writeTimeCtl (v : Nat) (s : State) : reg (writeTimeCtl v s) Reg.timeCtl =
    (if v % 4 = 3 then 0 else v % 4) + 4 * b2n (v.testBit 2 || regBit s Reg.timeCtl 2) := by
  have src := storedSrc_lt v
  have req (b : Bool) : b2n b ≤ 1 := by cases b <;> decide
  have room := req (v.testBit 2 || regBit s Reg.timeCtl 2)
  unfold writeTimeCtl; extract_lets w stored
  rw [reg_servoGo (by decide)]
  exact reg_setReg_self (by omega) ..

theorem writeTimeCtl_time (v : Nat) (s : State) :
    (writeTimeCtl v s).time = { s.time with stepDue := true, servo := .free, count := 0, good := 0 } := servoGo_time ..

theorem timeSrcSelect_frees {s : State} {v : Nat} (word : v < 2 ^ 32) : ∃ s', exec (.timeSrcSelect v) s = .next s' ∧
    s'.time.servo = .free ∧ s'.time.stepDue = true ∧ reg s' Reg.timeCtl % 4 = (if v % 4 = 3 then 0 else v % 4) := by
  refine ⟨writeTimeCtl v s, withOperand_of (decide_eq_true word) _, ?_⟩
  rw [writeTimeCtl_time, reg_writeTimeCtl]
  exact ⟨rfl, rfl, (Nat.add_mul_mod_self_left ..).trans (Nat.mod_eq_of_lt (storedSrc_lt v))⟩

theorem stepReq_arms {s : State} {v : Nat} (word : v < 2 ^ 32) (req : v.testBit 2 = true) : ∃ s', exec (.stepReq v) s = .next s' ∧
    s'.time.servo = .free ∧ s'.time.stepDue = true ∧ regBit s' Reg.timeCtl 2 = true := by
  refine ⟨writeTimeCtl v s, withOperand_of (Bool.and_eq_true_iff.2 ⟨decide_eq_true word, req⟩) _, ?_⟩
  rw [writeTimeCtl_time, regBit, reg_writeTimeCtl, req]
  refine ⟨rfl, rfl, ?_⟩
  have src := storedSrc_lt v
  generalize (if v % 4 = 3 then 0 else v % 4) = x at src
  have bit2 : (x + 4 * 1) / 2 ^ 2 % 2 = 1 := by omega
  exact Nat.testBit_eq_decide_div_mod_eq.trans (decide_eq_true bit2)

theorem timeTodHiWrite_arms {s : State} {v : Nat} (word : v < 2 ^ 32) : ∃ s', exec (.timeTodHiWrite v) s = .next s' ∧
    s'.time.todArmed = true ∧ s'.time.stepDue = true ∧ reg s' Reg.timeTodHi = v ∧ s'.time.time = s.time.time :=
  ⟨writeTodHi v s, withOperand_of (decide_eq_true word) _, rfl, rfl, reg_setReg_self word .., rfl⟩

/-- Settles O44: the tick, PTM, PPS, the holdover and the three writes, each by its lemma. That TIME_OFFSET is truncated is log 52;
that a bad edge moves the time of the last edge, log 31. -/
theorem timebaseTicksStepsAndSlews : Obligations.TimebaseTicksStepsAndSlews := fun s =>
  ⟨timeTick_advances, fun _ _ => ptmMeasure_steps, ptmMeasure_none s, ppsEdge_latches, servoHoldover_restarts,
    fun _ => timeSrcSelect_frees, fun _ => stepReq_arms, fun _ => timeTodHiWrite_arms⟩

end Sys2Proof.Machine

/-! PROOFS. The sump and telemetry (R476, R477, R486, R487): a record's slot, number and events, and the two snapshot buffers. -/

namespace Sys2Proof.Machine

-- the sump

/-- A bit of EVT_STATUS that is set stays set when another is. -/
theorem regBit_setEvt_of_regBit {s : State} {b : Nat} (narrow : b < 32) (h : regBit s Reg.evtStatus b = true) (c : Nat) :
    regBit (setEvt s c) Reg.evtStatus b = true := by
  rw [regBit, setEvt, reg_of_regs (evtRise_regs ..), reg_setReg, if_pos rfl, Nat.testBit_mod_two_pow, Nat.testBit_or]
  simp [narrow, show (reg s Reg.evtStatus).testBit b = true from h]

/-- The record as it enters: with the time of its entry and the sequence number (R477, Table 15.6). -/
def numberedRec (s : State) (r : RecIn) : Rec :=
  { time := s.time.time, kind := r.kind, index := r.index, code := r.code, seq := reg s Reg.sumpWr, ctx := r.ctx }

/-- The record in its slot, counted and signalled, before FAULT_RECORD. -/
def slotted (s : State) (r : RecIn) : State :=
  setEvt (setReg { s with sump := { s.sump with slots := tabPut s.sump.slots (reg s Reg.sumpWr % 64) (numberedRec s r) } }
    Reg.sumpWr ((reg s Reg.sumpWr + 1) % 2 ^ 32)) 0

theorem sumpEnter_eq (s : State) (r : RecIn) :
    sumpEnter s r = if faultCode r.code then setEvt (slotted s r) 13 else slotted s r := rfl

theorem sumpEnter_sump (s : State) (r : RecIn) :
    (sumpEnter s r).sump = { s.sump with slots := tabPut s.sump.slots (reg s Reg.sumpWr % 64) (numberedRec s r) } := by
  have stored : (slotted s r).sump = { s.sump with slots := tabPut s.sump.slots (reg s Reg.sumpWr % 64) (numberedRec s r) } :=
    setEvt_sump ..
  rw [sumpEnter_eq]; split
  · exact (setEvt_sump ..).trans stored
  · exact stored

theorem reg_sumpEnter_sumpWr (s : State) (r : RecIn) : reg (sumpEnter s r) Reg.sumpWr = (reg s Reg.sumpWr + 1) % 2 ^ 32 := by
  have counted : reg (slotted s r) Reg.sumpWr = (reg s Reg.sumpWr + 1) % 2 ^ 32 :=
    (reg_setEvt_ne (by decide) ..).trans (reg_setReg_self (Nat.mod_lt _ (by decide)) ..)
  rw [sumpEnter_eq]; split
  · exact (reg_setEvt_ne (by decide) ..).trans counted
  · exact counted

/-- R476: SUMP_NEW is set, and FAULT_RECORD does not undo it. -/
theorem regBit_sumpEnter_sumpNew (s : State) (r : RecIn) : regBit (sumpEnter s r) Reg.evtStatus 0 = true := by
  have new : regBit (slotted s r) Reg.evtStatus 0 = true := regBit_setEvt (by decide) ..
  rw [sumpEnter_eq]; split
  · exact regBit_setEvt_of_regBit (by decide) new 13
  · exact new

theorem sumpIntake_enters {s : State} {r : RecIn} {rest : List RecIn} (queue : s.sump.intake = r :: rest) :
    ∃ s', exec .sumpIntake s = .next s' ∧ s'.sump.intake = rest ∧ reg s' 0x300 = (reg s 0x300 + 1) % 2 ^ 32 ∧
      regBit s' 0x240 0 = true ∧ tabGet {} s'.sump.slots (reg s 0x300 % 64) =
        { time := s.time.time, kind := r.kind, index := r.index, code := r.code, seq := reg s 0x300, ctx := r.ctx } ∧
      ∀ k, k ≠ reg s 0x300 % 64 → tabGet {} s'.sump.slots k = tabGet {} s.sump.slots k := by
  have run : exec .sumpIntake s = .next (sumpEnter { s with sump := { s.sump with intake := rest } } r) := by
    show execSumpIntake s = _
    simp only [execSumpIntake, queue]
  refine ⟨_, run, ?_, reg_sumpEnter_sumpWr .., regBit_sumpEnter_sumpNew .., ?_, ?_⟩
  all_goals rw [sumpEnter_sump]
  · exact tabGet_tabPut_self ..
  · exact fun k other => tabGet_tabPut_ne _ _ _ _ _ other

-- telemetry

/-- The debit of maintenance work changes the Governor alone (R358). -/
theorem maintDebit_eq (s : State) (n : Nat) : ∃ g, maintDebit s n = { s with gov := g } := by
  unfold maintDebit; exact ⟨_, rfl⟩

/-- R486, R487: the snapshot in the buffer that is not the newest, and in the well, under the next number. -/
def snapshotTaken (s : State) (seq b : Nat) : State :=
  setReg { s with telem := { bufs := tabPut s.telem.bufs b (telemWords s seq), newest := b },
                  well := memWrite s.well (sysAddr (1 + b) 288) ((telemWords s seq).flatMap (leBytes 4)) } Reg.telemSeq seq

theorem exec_telemSnapshot {s : State} (up : supervisor s = true) : ∃ g, exec .telemSnapshot s = .next
    { snapshotTaken s ((reg s Reg.telemSeq + 1) % 2 ^ 32) (1 - s.telem.newest % 2) with gov := g } := by
  obtain ⟨g, debit⟩ := maintDebit_eq (snapshotTaken s ((reg s Reg.telemSeq + 1) % 2 ^ 32) (1 - s.telem.newest % 2))
    (costEntry 5 (isEco s.gov.ps))
  exact ⟨g, (guard_of up ..).trans (congrArg _ debit)⟩

/-- R487: a snapshot begins with its number. -/
theorem head?_telemWords (s : State) (seq : Nat) : (telemWords s seq).head? = some seq := by
  simp [telemWords]

/-- Table 18.18: a snapshot is 72 words. -/
theorem length_telemWords (s : State) (seq : Nat) : (telemWords s seq).length = 72 := rfl

theorem telemSnapshot_fillsOther {s : State} (up : supervisor s = true) : ∃ s', exec .telemSnapshot s = .next s' ∧
    s'.telem.newest = 1 - s.telem.newest % 2 ∧ reg s' 0x244 = (reg s 0x244 + 1) % 2 ^ 32 ∧
    (tabGet [] s'.telem.bufs s'.telem.newest).head? = some ((reg s 0x244 + 1) % 2 ^ 32) ∧
    (tabGet [] s'.telem.bufs s'.telem.newest).length = 72 ∧
    tabGet [] s'.telem.bufs (s.telem.newest % 2) = tabGet [] s.telem.bufs (s.telem.newest % 2) := by
  obtain ⟨g, run⟩ := exec_telemSnapshot up
  have filled (seq b : Nat) : tabGet [] (snapshotTaken s seq b).telem.bufs b = telemWords s seq := tabGet_tabPut_self ..
  have older : s.telem.newest % 2 ≠ 1 - s.telem.newest % 2 := by omega
  refine ⟨_, run, rfl, reg_setReg_self (Nat.mod_lt _ (by decide)) .., ?_, ?_, tabGet_tabPut_ne _ _ _ _ _ older⟩
  · exact (congrArg List.head? (filled ..)).trans (head?_telemWords ..)
  · exact (congrArg List.length (filled ..)).trans (length_telemWords ..)

/-- Settles O46: the intake's oldest record, and a snapshot. -/
theorem sumpAndTelemetryRecord : Obligations.SumpAndTelemetryRecord := fun _ =>
  ⟨fun _ _ => sumpIntake_enters, telemSnapshot_fillsOther⟩

end Sys2Proof.Machine
